-- ==== Sys2Proof/Word.lean ====
section
/-!
DEFINITION. The word types of the machine: a 64-bit scalar (R21), a byte of memory, a 1,024-bit vector register and a
128-bit mask register (R23).
-/

namespace Sys2Proof

/-- A scalar, f register, address or sysreg: 64 bits (R21). -/
abbrev Word := BitVec 64

/-- One byte of memory (R255). -/
abbrev Byte := BitVec 8

/-- A vector register: 1,024 bits (R21, R23). -/
abbrev VReg := BitVec 1024

/-- A mask register: 128 bits (R21, R23). -/
abbrev MReg := BitVec 128

end Sys2Proof
end

