-- ==== Sys2Proof/Syntax.lean ====
section
/-!
DEFINITION. The instructions and the steps of the other agents, one constructor for each row of the opcode table
(spec/opcode_table.json). A field is the number the encoding holds (R52, R53): a register number, a literal, or a
signed offset or immediate (an Int). The rows without an encoding are the steps of the other agents: they
have no fields, and the unit they act on and what the environment answers stand in State.ev (notes/assumptions/3.md).
-/

namespace Sys2Proof

/-- One constructor for each row of the opcode table. -/
inductive Instr where
  /-- SLEEP (R99). -/
  | sleep (n : Nat)
  /-- TRAP (R100). -/
  | trap (n : Nat)
  /-- HERD (R102). -/
  | herd (n : Nat)
  /-- SRD (R405). -/
  | srd (d : Nat) (i : Nat)
  /-- SWR (R405). -/
  | swr (a : Nat) (i : Nat)
  /-- BR (R92). -/
  | br (o : Int)
  /-- CALL (R92). -/
  | call (o : Int)
  /-- JR (R93). -/
  | jr (a : Nat)
  /-- JRL (R93). -/
  | jrl (d : Nat) (a : Nat)
  /-- BEQ (R91). -/
  | beq (a : Nat) (b : Nat) (o : Int)
  /-- BNE (R91). -/
  | bne (a : Nat) (b : Nat) (o : Int)
  /-- BLT (R91). -/
  | blt (a : Nat) (b : Nat) (o : Int)
  /-- BGE (R91). -/
  | bge (a : Nat) (b : Nat) (o : Int)
  /-- BLTN (R91). -/
  | bltn (a : Nat) (b : Nat) (o : Int)
  /-- BGEN (R91). -/
  | bgen (a : Nat) (b : Nat) (o : Int)
  /-- LOOP (R95). -/
  | loop (a : Nat) (o : Int)
  /-- LD (R134). -/
  | ld (d : Nat) (b : Nat) (z : Nat) (o : Int)
  /-- LD_SIGNED (R134). -/
  | ldSigned (d : Nat) (b : Nat) (z : Nat) (o : Int)
  /-- ST (R134). -/
  | st (d : Nat) (b : Nat) (z : Nat) (o : Int)
  /-- FLD (R134). -/
  | fld (d : Nat) (b : Nat) (z : Nat) (o : Int)
  /-- FST (R134). -/
  | fst (d : Nat) (b : Nat) (z : Nat) (o : Int)
  /-- VLD (R134). -/
  | vld (d : Nat) (b : Nat) (o : Int)
  /-- VST (R134). -/
  | vst (d : Nat) (b : Nat) (o : Int)
  /-- VLDS (R136). -/
  | vlds (d : Nat) (a : Nat) (b : Nat) (k : Nat)
  /-- VSTS (R136). -/
  | vsts (d : Nat) (a : Nat) (b : Nat) (k : Nat)
  /-- TLDX (R138). -/
  | tldx (d : Nat) (a : Nat) (b : Nat) (k : Nat)
  /-- VSTM (R137). -/
  | vstm (d : Nat) (a : Nat) (k : Nat)
  /-- VGATHER_W (R139). -/
  | vgatherW (d : Nat) (a : Nat) (b : Nat) (c : Nat) (h : Nat)
  /-- VGATHER_D (R139). -/
  | vgatherD (d : Nat) (a : Nat) (b : Nat) (c : Nat) (h : Nat)
  /-- VSCATTER_W (R139). -/
  | vscatterW (d : Nat) (a : Nat) (b : Nat) (c : Nat) (h : Nat)
  /-- VSCATTER_D (R139). -/
  | vscatterD (d : Nat) (a : Nat) (b : Nat) (c : Nat) (h : Nat)
  /-- AMO (R142). -/
  | amo (d : Nat) (a : Nat) (b : Nat) (o : Nat) (z : Nat) (s : Nat) (r : Nat)
  /-- CAS_W (R143). -/
  | casW (d : Nat) (a : Nat) (b : Nat) (s : Nat)
  /-- CAS_D (R143). -/
  | casD (d : Nat) (a : Nat) (b : Nat) (s : Nat)
  /-- CAS2_D (R143). -/
  | cas2D (d : Nat) (a : Nat) (b : Nat) (s : Nat)
  /-- LDAQ (R145). -/
  | ldaq (d : Nat) (a : Nat) (s : Nat) (z : Nat)
  /-- STRL (R145). -/
  | strl (a : Nat) (b : Nat) (s : Nat) (z : Nat)
  /-- FENCE_ACQ (R145). -/
  | fenceAcq (s : Nat)
  /-- FENCE_REL (R145). -/
  | fenceRel (s : Nat)
  /-- FENCE_AR (R145). -/
  | fenceAr (s : Nat)
  /-- RED (R144). -/
  | red (a : Nat) (b : Nat) (o : Nat) (z : Nat) (s : Nat) (r : Nat)
  /-- NMCAS4 (R146). -/
  | nmcas4 (d : Nat) (a : Nat) (b : Nat)
  /-- NMENQ (R146). -/
  | nmenq (d : Nat) (a : Nat) (b : Nat)
  /-- NMCHASE (R146). -/
  | nmchase (d : Nat) (a : Nat) (b : Nat)
  /-- TMOV (R148). -/
  | tmov (d : Nat) (a : Nat)
  /-- TMOVP (R148). -/
  | tmovp (d : Nat) (a : Nat)
  /-- BGATH (R151). -/
  | bgath (d : Nat) (a : Nat)
  /-- PGIN (R152). -/
  | pgin (d : Nat) (a : Nat)
  /-- FORK (R154). -/
  | fork (a : Nat) (b : Nat)
  /-- JOIN (R155). -/
  | join (d : Nat)
  /-- TWAIT (R153). -/
  | twait (a : Nat)
  /-- DCONS (R156). -/
  | dcons (d : Nat)
  /-- QBIND (R157). -/
  | qbind (d : Nat) (a : Nat)
  /-- QUNBIND (R157). -/
  | qunbind (d : Nat)
  /-- VPOP (R157). -/
  | vpop (d : Nat) (a : Nat)
  /-- SPOP (R157). -/
  | spop (d : Nat) (a : Nat)
  /-- QSTAT (R158). -/
  | qstat (d : Nat) (a : Nat)
  /-- SEND (R322). -/
  | send (d : Nat) (a : Nat) (b : Nat) (c : Nat)
  /-- SENDS (R323). -/
  | sends (d : Nat) (a : Nat) (b : Nat) (c : Nat)
  /-- TAGEN (R325). -/
  | tagen (a : Nat)
  /-- TAGDIS (R325). -/
  | tagdis (a : Nat)
  /-- TAGPND (R325). -/
  | tagpnd (a : Nat)
  /-- TAGCLR (R325). -/
  | tagclr (a : Nat)
  /-- TAGRD (R325). -/
  | tagrd (d : Nat) (a : Nat)
  /-- SPAWN (R328). -/
  | spawn (a : Nat)
  /-- SUSPEND (R329). -/
  | suspend (a : Nat)
  /-- WAITW (R331). -/
  | waitw (a : Nat) (b : Nat)
  /-- DEPSET (R333). -/
  | depset (a : Nat) (b : Nat)
  /-- DEPDEC (R333). -/
  | depdec (a : Nat)
  /-- RESUME (R332). -/
  | resume (a : Nat)
  /-- CALLC (R334). -/
  | callc (d : Nat) (o : Int)
  /-- ECOLLECT (R339). -/
  | ecollect (d : Nat) (a : Nat) (b : Nat)
  /-- ECLOSE (R338). -/
  | eclose (d : Nat)
  /-- ECAT (R340). -/
  | ecat (d : Nat) (a : Nat) (b : Nat)
  /-- EFILT (R340). -/
  | efilt (d : Nat) (a : Nat) (b : Nat)
  /-- EFILTX (R340). -/
  | efiltx (d : Nat) (a : Nat) (b : Nat)
  /-- EREBASE (R340). -/
  | erebase (d : Nat) (a : Nat) (b : Nat)
  /-- EAPPLY (R341). -/
  | eapply (a : Nat) (s : Nat) (i : Nat) (r : Nat)
  /-- EDROP (R342). -/
  | edrop (a : Nat)
  /-- ELEN (R342). -/
  | elen (d : Nat) (a : Nat) (k : Nat)
  /-- EGROW (R342). -/
  | egrow (a : Nat) (b : Nat)
  /-- ETRUNC (R340). -/
  | etrunc (a : Nat) (b : Nat)
  /-- EVBEGIN (R345). -/
  | evbegin (a : Nat) (b : Nat) (s : Nat)
  /-- EVEND (R345). -/
  | evend (s : Nat)
  /-- ROLLBACK (R347). -/
  | rollback (d : Nat) (a : Nat) (b : Nat) (s : Nat)
  /-- COMMIT (R348). -/
  | commit (a : Nat) (b : Nat) (s : Nat)
  /-- FLOORW (R349). -/
  | floorw (b : Nat)
  /-- LQRY (R350). -/
  | lqry (d : Nat) (a : Nat)
  /-- TLBI (R418). -/
  | tlbi (a : Nat) (b : Nat) (s : Nat)
  /-- AGIST (R419). -/
  | agist (a : Nat)
  /-- MUSTER (R421). -/
  | muster (a : Nat)
  /-- PGMIG (R422). -/
  | pgmig (a : Nat) (b : Nat)
  /-- ADD (R73). -/
  | add (d : Nat) (a : Nat) (b : Nat)
  /-- SUB (R73). -/
  | sub (d : Nat) (a : Nat) (b : Nat)
  /-- AND (R73). -/
  | and (d : Nat) (a : Nat) (b : Nat)
  /-- OR (R73). -/
  | or (d : Nat) (a : Nat) (b : Nat)
  /-- XOR (R73). -/
  | xor (d : Nat) (a : Nat) (b : Nat)
  /-- ANDN (R73). -/
  | andn (d : Nat) (a : Nat) (b : Nat)
  /-- ORN (R73). -/
  | orn (d : Nat) (a : Nat) (b : Nat)
  /-- XNOR (R73). -/
  | xnor (d : Nat) (a : Nat) (b : Nat)
  /-- SHL (R73). -/
  | shl (d : Nat) (a : Nat) (b : Nat)
  /-- SHR (R73). -/
  | shr (d : Nat) (a : Nat) (b : Nat)
  /-- SAR (R73). -/
  | sar (d : Nat) (a : Nat) (b : Nat)
  /-- ROL (R73). -/
  | rol (d : Nat) (a : Nat) (b : Nat)
  /-- ROR (R73). -/
  | ror (d : Nat) (a : Nat) (b : Nat)
  /-- SLT (R73). -/
  | slt (d : Nat) (a : Nat) (b : Nat)
  /-- SLTN (R73). -/
  | sltn (d : Nat) (a : Nat) (b : Nat)
  /-- MIN (R73). -/
  | min (d : Nat) (a : Nat) (b : Nat)
  /-- MAX (R73). -/
  | max (d : Nat) (a : Nat) (b : Nat)
  /-- MINN (R73). -/
  | minn (d : Nat) (a : Nat) (b : Nat)
  /-- MAXN (R73). -/
  | maxn (d : Nat) (a : Nat) (b : Nat)
  /-- MUL (R73). -/
  | mul (d : Nat) (a : Nat) (b : Nat)
  /-- MULH (R73). -/
  | mulh (d : Nat) (a : Nat) (b : Nat)
  /-- MULHN (R73). -/
  | mulhn (d : Nat) (a : Nat) (b : Nat)
  /-- DIV (R74). -/
  | div (d : Nat) (a : Nat) (b : Nat)
  /-- DIVN (R74). -/
  | divn (d : Nat) (a : Nat) (b : Nat)
  /-- REM (R74). -/
  | rem (d : Nat) (a : Nat) (b : Nat)
  /-- REMN (R74). -/
  | remn (d : Nat) (a : Nat) (b : Nat)
  /-- CLZ (R73). -/
  | clz (d : Nat) (a : Nat)
  /-- CTZ (R73). -/
  | ctz (d : Nat) (a : Nat)
  /-- POPC (R73). -/
  | popc (d : Nat) (a : Nat)
  /-- SEXTW (R73). -/
  | sextw (d : Nat) (a : Nat)
  /-- ZEXTW (R73). -/
  | zextw (d : Nat) (a : Nat)
  /-- BREV8 (R73). -/
  | brev8 (d : Nat) (a : Nat)
  /-- ADDI (R76). -/
  | addi (d : Nat) (a : Nat) (i : Int)
  /-- LI (R77). -/
  | li (d : Nat) (i : Int)
  /-- LIS (R77). -/
  | lis (d : Nat) (i : Nat)
  /-- ADDK (R78). -/
  | addk (d : Nat) (a : Nat) (k : Nat)
  /-- SUBK (R78). -/
  | subk (d : Nat) (a : Nat) (k : Nat)
  /-- ANDK (R78). -/
  | andk (d : Nat) (a : Nat) (k : Nat)
  /-- ORK (R78). -/
  | ork (d : Nat) (a : Nat) (k : Nat)
  /-- XORK (R78). -/
  | xork (d : Nat) (a : Nat) (k : Nat)
  /-- MULK (R78). -/
  | mulk (d : Nat) (a : Nat) (k : Nat)
  /-- SLTK (R78). -/
  | sltk (d : Nat) (a : Nat) (k : Nat)
  /-- MINK (R78). -/
  | mink (d : Nat) (a : Nat) (k : Nat)
  /-- MAXK (R78). -/
  | maxk (d : Nat) (a : Nat) (k : Nat)
  /-- MOVK (R78). -/
  | movk (d : Nat) (k : Nat)
  /-- SHLI (R79). -/
  | shli (d : Nat) (a : Nat) (n : Nat)
  /-- SHRI (R79). -/
  | shri (d : Nat) (a : Nat) (n : Nat)
  /-- SARI (R79). -/
  | sari (d : Nat) (a : Nat) (n : Nat)
  /-- RORI (R79). -/
  | rori (d : Nat) (a : Nat) (n : Nat)
  /-- EXTR (R80). -/
  | extr (d : Nat) (a : Nat) (p : Nat) (e : Nat)
  /-- EXTRS (R80). -/
  | extrs (d : Nat) (a : Nat) (p : Nat) (e : Nat)
  /-- INSR (R80). -/
  | insr (d : Nat) (a : Nat) (p : Nat) (e : Nat)
  /-- FADD (R84). -/
  | fadd (d : Nat) (a : Nat) (b : Nat) (p : Nat)
  /-- FSUB (R84). -/
  | fsub (d : Nat) (a : Nat) (b : Nat) (p : Nat)
  /-- FMUL (R84). -/
  | fmul (d : Nat) (a : Nat) (b : Nat) (p : Nat)
  /-- FDIV (R84). -/
  | fdiv (d : Nat) (a : Nat) (b : Nat) (p : Nat)
  /-- FSQRT (R84). -/
  | fsqrt (d : Nat) (a : Nat) (p : Nat)
  /-- FMIN (R86). -/
  | fmin (d : Nat) (a : Nat) (b : Nat) (p : Nat)
  /-- FMAX (R86). -/
  | fmax (d : Nat) (a : Nat) (b : Nat) (p : Nat)
  /-- FNEG (R84). -/
  | fneg (d : Nat) (a : Nat) (p : Nat)
  /-- FABS (R84). -/
  | fabs (d : Nat) (a : Nat) (p : Nat)
  /-- FEQ (R85). -/
  | feq (d : Nat) (a : Nat) (b : Nat) (p : Nat)
  /-- FLT (R85). -/
  | flt (d : Nat) (a : Nat) (b : Nat) (p : Nat)
  /-- FLE (R85). -/
  | fle (d : Nat) (a : Nat) (b : Nat) (p : Nat)
  /-- FCVT_S (R88). -/
  | fcvtS (d : Nat) (a : Nat) (r : Nat)
  /-- FCVT_D (R88). -/
  | fcvtD (d : Nat) (a : Nat)
  /-- FCVTI (R88). -/
  | fcvti (d : Nat) (a : Nat) (p : Nat) (r : Nat)
  /-- FCVTIN (R88). -/
  | fcvtin (d : Nat) (a : Nat) (p : Nat) (r : Nat)
  /-- FICVT (R88). -/
  | ficvt (d : Nat) (a : Nat) (p : Nat) (r : Nat)
  /-- FICVTN (R88). -/
  | ficvtn (d : Nat) (a : Nat) (p : Nat) (r : Nat)
  /-- FMVFS (R84). -/
  | fmvfs (d : Nat) (a : Nat) (p : Nat)
  /-- FMVSF (R84). -/
  | fmvsf (d : Nat) (a : Nat) (p : Nat)
  /-- FCLASS (R87). -/
  | fclass (d : Nat) (a : Nat) (p : Nat)
  /-- FFMA (R89). -/
  | ffma (d : Nat) (a : Nat) (b : Nat) (c : Nat) (p : Nat)
  /-- FFMS (R89). -/
  | ffms (d : Nat) (a : Nat) (b : Nat) (c : Nat) (p : Nat)
  /-- FNMA (R89). -/
  | fnma (d : Nat) (a : Nat) (b : Nat) (c : Nat) (p : Nat)
  /-- FNMS (R89). -/
  | fnms (d : Nat) (a : Nat) (b : Nat) (c : Nat) (p : Nat)
  /-- VADD (R194). -/
  | vadd (d : Nat) (a : Nat) (b : Nat) (w : Nat)
  /-- VSUB (R194). -/
  | vsub (d : Nat) (a : Nat) (b : Nat) (w : Nat)
  /-- VMUL (R194). -/
  | vmul (d : Nat) (a : Nat) (b : Nat) (w : Nat)
  /-- VMULH (R194). -/
  | vmulh (d : Nat) (a : Nat) (b : Nat) (w : Nat)
  /-- VAND (R194). -/
  | vand (d : Nat) (a : Nat) (b : Nat) (w : Nat)
  /-- VOR (R194). -/
  | vor (d : Nat) (a : Nat) (b : Nat) (w : Nat)
  /-- VXOR (R194). -/
  | vxor (d : Nat) (a : Nat) (b : Nat) (w : Nat)
  /-- VSHL (R194). -/
  | vshl (d : Nat) (a : Nat) (b : Nat) (w : Nat)
  /-- VSHR (R194). -/
  | vshr (d : Nat) (a : Nat) (b : Nat) (w : Nat)
  /-- VSAR (R194). -/
  | vsar (d : Nat) (a : Nat) (b : Nat) (w : Nat)
  /-- VMIN (R194). -/
  | vmin (d : Nat) (a : Nat) (b : Nat) (w : Nat)
  /-- VMAX (R194). -/
  | vmax (d : Nat) (a : Nat) (b : Nat) (w : Nat)
  /-- VMINN (R194). -/
  | vminn (d : Nat) (a : Nat) (b : Nat) (w : Nat)
  /-- VMAXN (R194). -/
  | vmaxn (d : Nat) (a : Nat) (b : Nat) (w : Nat)
  /-- VABS (R194). -/
  | vabs (d : Nat) (a : Nat) (w : Nat)
  /-- VFADD (R195). -/
  | vfadd (d : Nat) (a : Nat) (b : Nat) (t : Nat)
  /-- VFSUB (R195). -/
  | vfsub (d : Nat) (a : Nat) (b : Nat) (t : Nat)
  /-- VFMUL (R195). -/
  | vfmul (d : Nat) (a : Nat) (b : Nat) (t : Nat)
  /-- VFMAX (R195). -/
  | vfmax (d : Nat) (a : Nat) (b : Nat) (t : Nat)
  /-- VFMIN (R195). -/
  | vfmin (d : Nat) (a : Nat) (b : Nat) (t : Nat)
  /-- VFABS (R195). -/
  | vfabs (d : Nat) (a : Nat) (t : Nat)
  /-- VFNEG (R195). -/
  | vfneg (d : Nat) (a : Nat) (t : Nat)
  /-- VFMA (R196). -/
  | vfma (d : Nat) (a : Nat) (b : Nat) (c : Nat) (t : Nat)
  /-- VFMS (R196). -/
  | vfms (d : Nat) (a : Nat) (b : Nat) (c : Nat) (t : Nat)
  /-- VFMAS (R196). -/
  | vfmas (d : Nat) (a : Nat) (b : Nat) (c : Nat) (t : Nat)
  /-- VSEL (R196). -/
  | vsel (d : Nat) (a : Nat) (b : Nat) (c : Nat) (t : Nat)
  /-- VEXP2 (R199). -/
  | vexp2 (d : Nat) (a : Nat) (f : Nat)
  /-- VLOG2 (R199). -/
  | vlog2 (d : Nat) (a : Nat) (f : Nat)
  /-- VRCP (R199). -/
  | vrcp (d : Nat) (a : Nat) (f : Nat)
  /-- VRSQ (R199). -/
  | vrsq (d : Nat) (a : Nat) (f : Nat)
  /-- VSQRT (R199). -/
  | vsqrt (d : Nat) (a : Nat) (f : Nat)
  /-- VCVT (R200). -/
  | vcvt (d : Nat) (a : Nat) (f : Nat) (t : Nat)
  /-- VQBLK (R201). -/
  | vqblk (d : Nat) (a : Nat) (t : Nat)
  /-- VDQBLK (R202). -/
  | vdqblk (d : Nat) (a : Nat) (t : Nat)
  /-- VPLANE (R203). -/
  | vplane (d : Nat) (a : Nat) (t : Nat)
  /-- VTRIP (R204). -/
  | vtrip (d : Nat) (a : Nat)
  /-- VTRIU (R205). -/
  | vtriu (d : Nat) (a : Nat)
  /-- VREDSUM (R207). -/
  | vredsum (d : Nat) (a : Nat) (w : Nat) (x : Nat)
  /-- VREDMAX (R207). -/
  | vredmax (d : Nat) (a : Nat) (w : Nat) (x : Nat)
  /-- VREDMIN (R207). -/
  | vredmin (d : Nat) (a : Nat) (w : Nat) (x : Nat)
  /-- VSCAN (R207). -/
  | vscan (d : Nat) (a : Nat) (w : Nat) (x : Nat)
  /-- VSHUF (R207). -/
  | vshuf (d : Nat) (a : Nat) (b : Nat) (w : Nat)
  /-- VBCAST (R207). -/
  | vbcast (d : Nat) (a : Nat) (w : Nat) (x : Nat)
  /-- VEXTR (R207). -/
  | vextr (d : Nat) (a : Nat) (b : Nat) (w : Nat) (x : Nat)
  /-- VINS (R207). -/
  | vins (d : Nat) (a : Nat) (b : Nat) (w : Nat) (x : Nat)
  /-- VSLUP (R207). -/
  | vslup (d : Nat) (a : Nat) (b : Nat) (w : Nat)
  /-- VSLDN (R207). -/
  | vsldn (d : Nat) (a : Nat) (b : Nat) (w : Nat)
  /-- VIOTA (R207). -/
  | viota (d : Nat) (a : Nat) (w : Nat)
  /-- VCMP (R209). -/
  | vcmp (d : Nat) (a : Nat) (b : Nat) (c : Nat) (t : Nat) (f : Nat)
  /-- MAND (R210). -/
  | mand (d : Nat) (a : Nat) (b : Nat)
  /-- MOR (R210). -/
  | mor (d : Nat) (a : Nat) (b : Nat)
  /-- MXOR (R210). -/
  | mxor (d : Nat) (a : Nat) (b : Nat)
  /-- MNOT (R210). -/
  | mnot (d : Nat) (a : Nat)
  /-- MPOP (R210). -/
  | mpop (d : Nat) (a : Nat)
  /-- MFIRST (R210). -/
  | mfirst (d : Nat) (a : Nat)
  /-- MSET (R210). -/
  | mset (d : Nat) (a : Nat) (b : Nat)
  /-- MGET (R210). -/
  | mget (d : Nat) (a : Nat) (h : Nat)
  /-- VRANGE (R211). -/
  | vrange (d : Nat) (a : Nat) (b : Nat)
  /-- SMINIT (R183). -/
  | sminit (d : Nat) (a : Nat)
  /-- SMUPD (R184). -/
  | smupd (d : Nat) (a : Nat)
  /-- SMERGE (R185). -/
  | smerge (d : Nat) (a : Nat) (b : Nat)
  /-- SMOUT (R186). -/
  | smout (d : Nat) (a : Nat)
  /-- MMA (R213). -/
  | mma (t : Nat) (a : Nat) (b : Nat) (c : Nat) (y : Nat) (x : Nat)
  /-- MMA2 (R174). -/
  | mma2 (a : Nat) (b : Nat) (c : Nat) (y : Nat) (x : Nat)
  /-- MZERO (R218). -/
  | mzero (a : Nat) (t : Nat)
  /-- MRD (R219). -/
  | mrd (d : Nat) (b : Nat) (t : Nat) (g : Nat)
  /-- MRDQ (R219). -/
  | mrdq (d : Nat) (b : Nat) (t : Nat) (g : Nat)
  /-- MWR (R220). -/
  | mwr (a : Nat) (b : Nat) (t : Nat)
  /-- MSTAT (R221). -/
  | mstat (d : Nat) (t : Nat)
  /-- MDRAW (R222). -/
  | mdraw (d : Nat) (a : Nat) (b : Nat)
  /-- MCONS (R221). -/
  | mcons (d : Nat)
  /-- RNGB (R189). -/
  | rngb (d : Nat) (a : Nat)
  /-- RNGM (R189). -/
  | rngm (d : Nat) (a : Nat) (b : Nat)
  /-- NOP (R98). -/
  | nop
  /-- ERET (R101). -/
  | eret
  /-- IFENCE (R103). -/
  | ifence
  /-- HALT (R104). -/
  | halt
  /-- YIELD (R330). -/
  | yield
  /-- END (R330). -/
  | endTask
  /-- CRET (R338). -/
  | cret
  /-- CORE_ISSUE (R15). -/
  | coreIssue
  /-- STRAND_AGED (R15). -/
  | strandAged
  /-- FETCH_BLOCK_DELIVER (R19). -/
  | fetchBlockDeliver
  /-- ICACHE_MISS_FILL (R19). -/
  | icacheMissFill
  /-- HERD_RELEASE (R20). -/
  | herdRelease
  /-- HERD_TIMEOUT (R20). -/
  | herdTimeout
  /-- LONG_RESULT_RETURN (R31). -/
  | longResultReturn
  /-- CONTINUATION_PICKUP (R37). -/
  | continuationPickup
  /-- RECORD_POOL_SLOT_FREE (R40). -/
  | recordPoolSlotFree
  /-- LOCAL_MEM_ARBITRATION (R111). -/
  | localMemArbitration
  /-- CLUSTER_SPAD_ARBITRATION (R113). -/
  | clusterSpadArbitration
  /-- DIE_SPAD_SLICE_GRANT (R115). -/
  | dieSpadSliceGrant
  /-- TILE_MOVE_START (R121). -/
  | tileMoveStart
  /-- TILE_MOVE_ROW (R116). -/
  | tileMoveRow
  /-- TILE_MOVE_COMPLETE (R116). -/
  | tileMoveComplete
  /-- DROVER_PROGRAM_FAULT (R124). -/
  | droverProgramFault
  /-- STREAM_ELEMENT_ARRIVE (R125). -/
  | streamElementArrive
  /-- ATOMIC_EXECUTE (R141). -/
  | atomicExecute
  /-- NEAR_MEMORY_EXECUTE (R146). -/
  | nearMemoryExecute
  /-- STORE_ASYNC_FAILURE (R128). -/
  | storeAsyncFailure
  /-- TABLE_WALK (R228). -/
  | tableWalk
  /-- MIGRATION_EPOCH_END (R245). -/
  | migrationEpochEnd
  /-- PAGE_MOVE_COPY (R246). -/
  | pageMoveCopy
  /-- PAGE_MOVE_DRAIN (R246). -/
  | pageMoveDrain
  /-- PAGE_MOVE_SWITCH (R246). -/
  | pageMoveSwitch
  /-- PAGE_MOVE_RESUME (R246). -/
  | pageMoveResume
  /-- PAGE_MOVE_ABANDON (R247). -/
  | pageMoveAbandon
  /-- LEASE_PAGE_CLEAN (R250). -/
  | leasePageClean
  /-- MUSTER_NOTICE_ARRIVE (R252). -/
  | musterNoticeArrive
  /-- LEASE_PAGE_REMAP (R252). -/
  | leasePageRemap
  /-- MUSTER_DONE_RECEIVED (R252). -/
  | musterDoneReceived
  /-- ZERO_FILL_DONE (R253). -/
  | zeroFillDone
  /-- MUSTER_WINDOW_EXPIRE (R253). -/
  | musterWindowExpire
  /-- BORROWER_HUB_RESTORED (R253). -/
  | borrowerHubRestored
  /-- LENDER_LOST (R254). -/
  | lenderLost
  /-- AGIST_TAKE_REQUEST (R419). -/
  | agistTakeRequest
  /-- FLUSH_MARKER_ARRIVE (R267). -/
  | flushMarkerArrive
  /-- FLUSH_ACK_RETURN (R267). -/
  | flushAckReturn
  /-- MCG_GENERATION_RETIRE (R270). -/
  | mcgGenerationRetire
  /-- MESSAGE_ARRIVE (R285). -/
  | messageArrive
  /-- ANTI_MESSAGE_ARRIVE (R278). -/
  | antiMessageArrive
  /-- MESSAGE_DEPART (R322). -/
  | messageDepart
  /-- MESSAGE_DELIVER (R286). -/
  | messageDeliver
  /-- MESSAGE_AGED (R286). -/
  | messageAged
  /-- WORK_STEAL (R295). -/
  | workSteal
  /-- HANG_DETECT (R298). -/
  | hangDetect
  /-- FLOOR_ROUND_START (R315). -/
  | floorRoundStart
  /-- FLOOR_REPORT_REPEAT (R315). -/
  | floorReportRepeat
  /-- FLOOR_ROUND_END (R315). -/
  | floorRoundEnd
  /-- SLEEP_EXPIRE (R99). -/
  | sleepExpire
  /-- WAITW_TRIGGER (R331). -/
  | waitwTrigger
  /-- WAITW_POLL (R331). -/
  | waitwPoll
  /-- MMA_OPERANDS_CONSUMED (R215). -/
  | mmaOperandsConsumed
  /-- MMA_FINISH (R224). -/
  | mmaFinish
  /-- DOORBELL_WRITE (R352). -/
  | doorbellWrite
  /-- PACKET_LAUNCH (R371). -/
  | packetLaunch
  /-- PACKET_COPY (R361). -/
  | packetCopy
  /-- COPY_LINE (R361). -/
  | copyLine
  /-- PACKET_BARRIER (R357). -/
  | packetBarrier
  /-- BARRIER_SIGNAL_READ (R357). -/
  | barrierSignalRead
  /-- PACKET_SIGNAL (R356). -/
  | packetSignal
  /-- PACKET_NOP (R355). -/
  | packetNop
  /-- LAUNCH_SLOT_ACQUIRE (R372). -/
  | launchSlotAcquire
  /-- SOCIETY_REGISTER (R312). -/
  | societyRegister
  /-- LEASE_RESIDENCY (R240). -/
  | leaseResidency
  /-- PROXY_RESERVE (R379). -/
  | proxyReserve
  /-- FLOCK_PLACE (R374). -/
  | flockPlace
  /-- PLACE_AGED (R376). -/
  | placeAged
  /-- FLOCK_END (R378). -/
  | flockEnd
  /-- LAUNCH_DONE (R371). -/
  | launchDone
  /-- QUEUE_RESET (R364). -/
  | queueReset
  /-- EVBASE_WRITE (R373). -/
  | evbaseWrite
  /-- PARTCTL_WRITE (R380). -/
  | partctlWrite
  /-- PARTITION_TICK (R381). -/
  | partitionTick
  /-- DRAIN_TIMEOUT (R381). -/
  | drainTimeout
  /-- CLUSTER_DRAINED (R381). -/
  | clusterDrained
  /-- PREEMPT_REQUEST (R397). -/
  | preemptRequest
  /-- LAUNCH_STATE_SAVE (R404). -/
  | launchStateSave
  /-- FLOCK_SAVED (R401). -/
  | flockSaved
  /-- FLOCK_RESTORE (R401). -/
  | flockRestore
  /-- TRAP_ENTRY (R382). -/
  | trapEntry
  /-- LAUNCH_ABORT (R393). -/
  | launchAbort
  /-- FLIT_REPLAY (R396). -/
  | flitReplay
  /-- LINK_DEGRADE (R428). -/
  | linkDegrade
  /-- LINK_RETRAIN (R431). -/
  | linkRetrain
  /-- KEEPALIVE_SEND (R432). -/
  | keepaliveSend
  /-- KEEPALIVE_TIMEOUT (R432). -/
  | keepaliveTimeout
  /-- RECOVERY_FENCE (R403). -/
  | recoveryFence
  /-- RECOVERY_RECONFIGURE (R403). -/
  | recoveryReconfigure
  /-- RECOVERY_RESTORE (R403). -/
  | recoveryRestore
  /-- CIRCUIT_CHANGE (R426). -/
  | circuitChange
  /-- PADDOCK_WRITE (R424). -/
  | paddockWrite
  /-- HOST_WRITE (R435). -/
  | hostWrite
  /-- HOST_READ (R435). -/
  | hostRead
  /-- REGISTER_WRITE (R7). -/
  | registerWrite
  /-- MCGSYNC_WRITE (R415). -/
  | mcgsyncWrite
  /-- TAG_REGISTER_WRITE (R407). -/
  | tagRegisterWrite
  /-- TSTATUS_WRITE (R410). -/
  | tstatusWrite
  /-- ASID_WRITE (R411). -/
  | asidWrite
  /-- FLOORINT_WRITE (R412). -/
  | floorintWrite
  /-- POWER_ON (R439). -/
  | powerOn
  /-- FIRMWARE_UPDATE (R439). -/
  | firmwareUpdate
  /-- READ_ERROR_LOG (R440). -/
  | readErrorLog
  /-- READ_SENSORS (R440). -/
  | readSensors
  /-- SET_POWER_CAP (R442). -/
  | setPowerCap
  /-- NOTIFY_HOST (R440). -/
  | notifyHost
  /-- GET_MEASUREMENTS (R440). -/
  | getMeasurements
  /-- DIE_RESET (R441). -/
  | dieReset
  /-- PACKAGE_RESET (R441). -/
  | packageReset
  /-- POWER_THROTTLE (R442). -/
  | powerThrottle
  /-- ISSUE_GATING (R442). -/
  | issueGating
  /-- POWER_RECOVER (R442). -/
  | powerRecover
  /-- STORE_PERFORMS_AT_HOME (R256). -/
  | storePerformsAtHome
  /-- LENDER_ANSWER_TIMEOUT (R419). -/
  | lenderAnswerTimeout
deriving DecidableEq, Repr

end Sys2Proof
end

