-- ==== Sys2Proof/WellFormed.lean ====
section
/-!
DEFINITION. Which instructions an encoding can stand for: every field within its width (R52, R53, R54), every
subfield value and register constraint its description gives (R23, R50). Accumulator allotment, privilege and the
placement of a suspension point depend on the strand and the bundle and are checked there (R50, R51).
-/

namespace Sys2Proof

/-- A signed field of `w` bits holds `i` (R53). -/
def inRange (w : Nat) (i : Int) : Bool :=
  decide (-(2 ^ (w - 1) : Nat) ≤ i) && decide (i < (2 ^ (w - 1) : Nat))

/-- The row has an encoding: an instruction, not a step of another agent. -/
def Instr.isInstruction : Instr → Bool
  | .coreIssue => false
  | .strandAged => false
  | .fetchBlockDeliver => false
  | .icacheMissFill => false
  | .herdRelease => false
  | .herdTimeout => false
  | .longResultReturn => false
  | .continuationPickup => false
  | .recordPoolSlotFree => false
  | .localMemArbitration => false
  | .clusterSpadArbitration => false
  | .dieSpadSliceGrant => false
  | .tileMoveStart => false
  | .tileMoveRow => false
  | .tileMoveComplete => false
  | .droverProgramFault => false
  | .streamElementArrive => false
  | .atomicExecute => false
  | .nearMemoryExecute => false
  | .storeAsyncFailure => false
  | .tableWalk => false
  | .migrationEpochEnd => false
  | .pageMoveCopy => false
  | .pageMoveDrain => false
  | .pageMoveSwitch => false
  | .pageMoveResume => false
  | .pageMoveAbandon => false
  | .leasePageClean => false
  | .musterNoticeArrive => false
  | .leasePageRemap => false
  | .musterDoneReceived => false
  | .zeroFillDone => false
  | .musterWindowExpire => false
  | .borrowerHubRestored => false
  | .lenderLost => false
  | .agistTakeRequest => false
  | .flushMarkerArrive => false
  | .flushAckReturn => false
  | .mcgGenerationRetire => false
  | .messageArrive => false
  | .antiMessageArrive => false
  | .messageDepart => false
  | .messageDeliver => false
  | .messageAged => false
  | .workSteal => false
  | .hangDetect => false
  | .floorRoundStart => false
  | .floorReportRepeat => false
  | .floorRoundEnd => false
  | .sleepExpire => false
  | .waitwTrigger => false
  | .waitwPoll => false
  | .mmaOperandsConsumed => false
  | .mmaFinish => false
  | .doorbellWrite => false
  | .packetLaunch => false
  | .packetCopy => false
  | .copyLine => false
  | .packetBarrier => false
  | .barrierSignalRead => false
  | .packetSignal => false
  | .packetNop => false
  | .launchSlotAcquire => false
  | .societyRegister => false
  | .leaseResidency => false
  | .proxyReserve => false
  | .flockPlace => false
  | .placeAged => false
  | .flockEnd => false
  | .launchDone => false
  | .queueReset => false
  | .evbaseWrite => false
  | .partctlWrite => false
  | .partitionTick => false
  | .drainTimeout => false
  | .clusterDrained => false
  | .preemptRequest => false
  | .launchStateSave => false
  | .flockSaved => false
  | .flockRestore => false
  | .trapEntry => false
  | .launchAbort => false
  | .flitReplay => false
  | .linkDegrade => false
  | .linkRetrain => false
  | .keepaliveSend => false
  | .keepaliveTimeout => false
  | .recoveryFence => false
  | .recoveryReconfigure => false
  | .recoveryRestore => false
  | .circuitChange => false
  | .paddockWrite => false
  | .hostWrite => false
  | .hostRead => false
  | .registerWrite => false
  | .mcgsyncWrite => false
  | .tagRegisterWrite => false
  | .tstatusWrite => false
  | .asidWrite => false
  | .floorintWrite => false
  | .powerOn => false
  | .firmwareUpdate => false
  | .readErrorLog => false
  | .readSensors => false
  | .setPowerCap => false
  | .notifyHost => false
  | .getMeasurements => false
  | .dieReset => false
  | .packageReset => false
  | .powerThrottle => false
  | .issueGating => false
  | .powerRecover => false
  | .storePerformsAtHome => false
  | .lenderAnswerTimeout => false
  | .nop => true
  | .sleep _ => true
  | .trap _ => true
  | .eret => true
  | .herd _ => true
  | .ifence => true
  | .halt => true
  | .srd _ _ => true
  | .swr _ _ => true
  | .br _ => true
  | .call _ => true
  | .jr _ => true
  | .jrl _ _ => true
  | .beq _ _ _ => true
  | .bne _ _ _ => true
  | .blt _ _ _ => true
  | .bge _ _ _ => true
  | .bltn _ _ _ => true
  | .bgen _ _ _ => true
  | .loop _ _ => true
  | .ld _ _ _ _ => true
  | .ldSigned _ _ _ _ => true
  | .st _ _ _ _ => true
  | .fld _ _ _ _ => true
  | .fst _ _ _ _ => true
  | .vld _ _ _ => true
  | .vst _ _ _ => true
  | .vlds _ _ _ _ => true
  | .vsts _ _ _ _ => true
  | .tldx _ _ _ _ => true
  | .vstm _ _ _ => true
  | .vgatherW _ _ _ _ _ => true
  | .vgatherD _ _ _ _ _ => true
  | .vscatterW _ _ _ _ _ => true
  | .vscatterD _ _ _ _ _ => true
  | .amo _ _ _ _ _ _ _ => true
  | .casW _ _ _ _ => true
  | .casD _ _ _ _ => true
  | .cas2D _ _ _ _ => true
  | .ldaq _ _ _ _ => true
  | .strl _ _ _ _ => true
  | .fenceAcq _ => true
  | .fenceRel _ => true
  | .fenceAr _ => true
  | .red _ _ _ _ _ _ => true
  | .nmcas4 _ _ _ => true
  | .nmenq _ _ _ => true
  | .nmchase _ _ _ => true
  | .tmov _ _ => true
  | .tmovp _ _ => true
  | .bgath _ _ => true
  | .pgin _ _ => true
  | .fork _ _ => true
  | .join _ => true
  | .twait _ => true
  | .dcons _ => true
  | .qbind _ _ => true
  | .qunbind _ => true
  | .vpop _ _ => true
  | .spop _ _ => true
  | .qstat _ _ => true
  | .send _ _ _ _ => true
  | .sends _ _ _ _ => true
  | .tagen _ => true
  | .tagdis _ => true
  | .tagpnd _ => true
  | .tagclr _ => true
  | .tagrd _ _ => true
  | .spawn _ => true
  | .suspend _ => true
  | .yield => true
  | .endTask => true
  | .waitw _ _ => true
  | .depset _ _ => true
  | .depdec _ => true
  | .resume _ => true
  | .callc _ _ => true
  | .ecollect _ _ _ => true
  | .eclose _ => true
  | .cret => true
  | .ecat _ _ _ => true
  | .efilt _ _ _ => true
  | .efiltx _ _ _ => true
  | .erebase _ _ _ => true
  | .eapply _ _ _ _ => true
  | .edrop _ => true
  | .elen _ _ _ => true
  | .egrow _ _ => true
  | .etrunc _ _ => true
  | .evbegin _ _ _ => true
  | .evend _ => true
  | .rollback _ _ _ _ => true
  | .commit _ _ _ => true
  | .floorw _ => true
  | .lqry _ _ => true
  | .tlbi _ _ _ => true
  | .agist _ => true
  | .muster _ => true
  | .pgmig _ _ => true
  | .add _ _ _ => true
  | .sub _ _ _ => true
  | .and _ _ _ => true
  | .or _ _ _ => true
  | .xor _ _ _ => true
  | .andn _ _ _ => true
  | .orn _ _ _ => true
  | .xnor _ _ _ => true
  | .shl _ _ _ => true
  | .shr _ _ _ => true
  | .sar _ _ _ => true
  | .rol _ _ _ => true
  | .ror _ _ _ => true
  | .slt _ _ _ => true
  | .sltn _ _ _ => true
  | .min _ _ _ => true
  | .max _ _ _ => true
  | .minn _ _ _ => true
  | .maxn _ _ _ => true
  | .mul _ _ _ => true
  | .mulh _ _ _ => true
  | .mulhn _ _ _ => true
  | .div _ _ _ => true
  | .divn _ _ _ => true
  | .rem _ _ _ => true
  | .remn _ _ _ => true
  | .clz _ _ => true
  | .ctz _ _ => true
  | .popc _ _ => true
  | .sextw _ _ => true
  | .zextw _ _ => true
  | .brev8 _ _ => true
  | .addi _ _ _ => true
  | .li _ _ => true
  | .lis _ _ => true
  | .addk _ _ _ => true
  | .subk _ _ _ => true
  | .andk _ _ _ => true
  | .ork _ _ _ => true
  | .xork _ _ _ => true
  | .mulk _ _ _ => true
  | .sltk _ _ _ => true
  | .mink _ _ _ => true
  | .maxk _ _ _ => true
  | .movk _ _ => true
  | .shli _ _ _ => true
  | .shri _ _ _ => true
  | .sari _ _ _ => true
  | .rori _ _ _ => true
  | .extr _ _ _ _ => true
  | .extrs _ _ _ _ => true
  | .insr _ _ _ _ => true
  | .fadd _ _ _ _ => true
  | .fsub _ _ _ _ => true
  | .fmul _ _ _ _ => true
  | .fdiv _ _ _ _ => true
  | .fsqrt _ _ _ => true
  | .fmin _ _ _ _ => true
  | .fmax _ _ _ _ => true
  | .fneg _ _ _ => true
  | .fabs _ _ _ => true
  | .feq _ _ _ _ => true
  | .flt _ _ _ _ => true
  | .fle _ _ _ _ => true
  | .fcvtS _ _ _ => true
  | .fcvtD _ _ => true
  | .fcvti _ _ _ _ => true
  | .fcvtin _ _ _ _ => true
  | .ficvt _ _ _ _ => true
  | .ficvtn _ _ _ _ => true
  | .fmvfs _ _ _ => true
  | .fmvsf _ _ _ => true
  | .fclass _ _ _ => true
  | .ffma _ _ _ _ _ => true
  | .ffms _ _ _ _ _ => true
  | .fnma _ _ _ _ _ => true
  | .fnms _ _ _ _ _ => true
  | .vadd _ _ _ _ => true
  | .vsub _ _ _ _ => true
  | .vmul _ _ _ _ => true
  | .vmulh _ _ _ _ => true
  | .vand _ _ _ _ => true
  | .vor _ _ _ _ => true
  | .vxor _ _ _ _ => true
  | .vshl _ _ _ _ => true
  | .vshr _ _ _ _ => true
  | .vsar _ _ _ _ => true
  | .vmin _ _ _ _ => true
  | .vmax _ _ _ _ => true
  | .vminn _ _ _ _ => true
  | .vmaxn _ _ _ _ => true
  | .vabs _ _ _ => true
  | .vfadd _ _ _ _ => true
  | .vfsub _ _ _ _ => true
  | .vfmul _ _ _ _ => true
  | .vfmax _ _ _ _ => true
  | .vfmin _ _ _ _ => true
  | .vfabs _ _ _ => true
  | .vfneg _ _ _ => true
  | .vfma _ _ _ _ _ => true
  | .vfms _ _ _ _ _ => true
  | .vfmas _ _ _ _ _ => true
  | .vsel _ _ _ _ _ => true
  | .vexp2 _ _ _ => true
  | .vlog2 _ _ _ => true
  | .vrcp _ _ _ => true
  | .vrsq _ _ _ => true
  | .vsqrt _ _ _ => true
  | .vcvt _ _ _ _ => true
  | .vqblk _ _ _ => true
  | .vdqblk _ _ _ => true
  | .vplane _ _ _ => true
  | .vtrip _ _ => true
  | .vtriu _ _ => true
  | .vredsum _ _ _ _ => true
  | .vredmax _ _ _ _ => true
  | .vredmin _ _ _ _ => true
  | .vscan _ _ _ _ => true
  | .vshuf _ _ _ _ => true
  | .vbcast _ _ _ _ => true
  | .vextr _ _ _ _ _ => true
  | .vins _ _ _ _ _ => true
  | .vslup _ _ _ _ => true
  | .vsldn _ _ _ _ => true
  | .viota _ _ _ => true
  | .vcmp _ _ _ _ _ _ => true
  | .mand _ _ _ => true
  | .mor _ _ _ => true
  | .mxor _ _ _ => true
  | .mnot _ _ => true
  | .mpop _ _ => true
  | .mfirst _ _ => true
  | .mset _ _ _ => true
  | .mget _ _ _ => true
  | .vrange _ _ _ => true
  | .sminit _ _ => true
  | .smupd _ _ => true
  | .smerge _ _ _ => true
  | .smout _ _ => true
  | .mma _ _ _ _ _ _ => true
  | .mma2 _ _ _ _ _ => true
  | .mzero _ _ => true
  | .mrd _ _ _ _ => true
  | .mrdq _ _ _ _ => true
  | .mwr _ _ _ => true
  | .mstat _ _ => true
  | .mdraw _ _ _ => true
  | .mcons _ => true
  | .rngb _ _ => true
  | .rngm _ _ _ => true

/-- The fields of an instruction of the encoding are within their widths and obey the rules that narrow them. The
rows without an encoding carry no field of an encoding and are always well formed. -/
def Instr.wf : Instr → Bool
  | .sleep n => decide (n < 1024)
  | .trap n => decide (n < 1024)
  | .herd n => decide (n < 1024)
  | .srd d i => decide (d < 32) && decide (i < 16384)
  | .swr a i => decide (a < 32) && decide (i < 16384)
  | .br o => inRange 24 o
  | .call o => inRange 24 o
  | .jr a => decide (a < 32)
  | .jrl d a => decide (d < 32) && decide (a < 32)
  | .beq a b o => decide (a < 32) && decide (b < 32) && inRange 14 o
  | .bne a b o => decide (a < 32) && decide (b < 32) && inRange 14 o
  | .blt a b o => decide (a < 32) && decide (b < 32) && inRange 14 o
  | .bge a b o => decide (a < 32) && decide (b < 32) && inRange 14 o
  | .bltn a b o => decide (a < 32) && decide (b < 32) && inRange 14 o
  | .bgen a b o => decide (a < 32) && decide (b < 32) && inRange 14 o
  | .loop a o => decide (a < 32) && inRange 14 o && (decide (1 ≤ o))
  | .ld d b z o => decide (d < 32) && decide (b < 32) && decide (z < 4) && inRange 11 o
  | .ldSigned d b z o => decide (d < 32) && decide (b < 32) && decide (z < 4) && inRange 11 o && (decide (z < 3))
  | .st d b z o => decide (d < 32) && decide (b < 32) && decide (z < 4) && inRange 11 o
  | .fld d b z o => decide (d < 32) && decide (b < 32) && decide (z < 2) && inRange 11 o
  | .fst d b z o => decide (d < 32) && decide (b < 32) && decide (z < 2) && inRange 11 o
  | .vld d b o => decide (d < 32) && decide (b < 32) && inRange 11 o
  | .vst d b o => decide (d < 32) && decide (b < 32) && inRange 11 o
  | .vlds d a b k => decide (d < 32) && decide (a < 32) && decide (b < 32) && decide (k < 8)
  | .vsts d a b k => decide (d < 32) && decide (a < 32) && decide (b < 32) && decide (k < 8)
  | .tldx d a b k => decide (d < 32) && decide (a < 32) && decide (b < 32) && decide (k < 8) && (d % 2 == 0)
  | .vstm d a k => decide (d < 32) && decide (a < 32) && decide (k < 8)
  | .vgatherW d a b c h => decide (d < 32) && decide (a < 32) && decide (b < 32) && decide (c < 32) && decide (h < 2)
  | .vgatherD d a b c h => decide (d < 32) && decide (a < 32) && decide (b < 32) && decide (c < 32) && decide (h < 2)
  | .vscatterW d a b c h => decide (d < 32) && decide (a < 32) && decide (b < 32) && decide (c < 32) && decide (h < 2)
  | .vscatterD d a b c h => decide (d < 32) && decide (a < 32) && decide (b < 32) && decide (c < 32) && decide (h < 2)
  | .amo d a b o z s r => decide (d < 32) && decide (a < 32) && decide (b < 32) && decide (o < 16) && decide (z < 2) && decide (s < 8) && decide (r < 2) && (decide (o < 10) && (o != 9 || z == 0))
  | .casW d a b s => decide (d < 32) && decide (a < 32) && decide (b < 32) && decide (s < 8)
  | .casD d a b s => decide (d < 32) && decide (a < 32) && decide (b < 32) && decide (s < 8)
  | .cas2D d a b s => decide (d < 32) && decide (a < 32) && decide (b < 32) && decide (s < 8) && (d % 2 == 0 && b % 2 == 0)
  | .ldaq d a s z => decide (d < 32) && decide (a < 32) && decide (s < 8) && decide (z < 4)
  | .strl a b s z => decide (a < 32) && decide (b < 32) && decide (s < 8) && decide (z < 4)
  | .fenceAcq s => decide (s < 8)
  | .fenceRel s => decide (s < 8)
  | .fenceAr s => decide (s < 8)
  | .red a b o z s r => decide (a < 32) && decide (b < 32) && decide (o < 16) && decide (z < 2) && decide (s < 8) && decide (r < 2) && (decide (o < 10) && o != 8 && (o != 9 || z == 0))
  | .nmcas4 d a b => decide (d < 32) && decide (a < 32) && decide (b < 32)
  | .nmenq d a b => decide (d < 32) && decide (a < 32) && decide (b < 32)
  | .nmchase d a b => decide (d < 32) && decide (a < 32) && decide (b < 32)
  | .tmov d a => decide (d < 32) && decide (a < 32)
  | .tmovp d a => decide (d < 32) && decide (a < 32)
  | .bgath d a => decide (d < 32) && decide (a < 32)
  | .pgin d a => decide (d < 32) && decide (a < 32)
  | .fork a b => decide (a < 32) && decide (b < 32)
  | .join d => decide (d < 32) && ((d == 1 || d == 2 || d == 3 || d == 4 || d == 31))
  | .twait a => decide (a < 32)
  | .dcons d => decide (d < 32)
  | .qbind d a => decide (d < 32) && decide (a < 32) && (decide (d < 8))
  | .qunbind d => decide (d < 32) && (decide (d < 8))
  | .vpop d a => decide (d < 32) && decide (a < 32) && (decide (a < 8))
  | .spop d a => decide (d < 32) && decide (a < 32) && (decide (a < 8))
  | .qstat d a => decide (d < 32) && decide (a < 32) && (decide (a < 8))
  | .send d a b c => decide (d < 32) && decide (a < 32) && decide (b < 32) && decide (c < 32)
  | .sends d a b c => decide (d < 32) && decide (a < 32) && decide (b < 32) && decide (c < 32)
  | .tagen a => decide (a < 32)
  | .tagdis a => decide (a < 32)
  | .tagpnd a => decide (a < 32)
  | .tagclr a => decide (a < 32)
  | .tagrd d a => decide (d < 32) && decide (a < 32)
  | .spawn a => decide (a < 32)
  | .suspend a => decide (a < 32)
  | .waitw a b => decide (a < 32) && decide (b < 32)
  | .depset a b => decide (a < 32) && decide (b < 32)
  | .depdec a => decide (a < 32)
  | .resume a => decide (a < 32)
  | .callc d o => decide (d < 32) && inRange 19 o
  | .ecollect d a b => decide (d < 32) && decide (a < 32) && decide (b < 32)
  | .eclose d => decide (d < 32)
  | .ecat d a b => decide (d < 32) && decide (a < 32) && decide (b < 32)
  | .efilt d a b => decide (d < 32) && decide (a < 32) && decide (b < 32) && (decide (b < 31))
  | .efiltx d a b => decide (d < 32) && decide (a < 32) && decide (b < 32) && (decide (b < 31))
  | .erebase d a b => decide (d < 32) && decide (a < 32) && decide (b < 32) && (decide (b < 31))
  | .eapply a s i r => decide (a < 32) && decide (s < 8) && decide (i < 2) && decide (r < 2)
  | .edrop a => decide (a < 32)
  | .elen d a k => decide (d < 32) && decide (a < 32) && decide (k < 32) && (k != 0)
  | .egrow a b => decide (a < 32) && decide (b < 32)
  | .etrunc a b => decide (a < 32) && decide (b < 32)
  | .evbegin a b s => decide (a < 32) && decide (b < 32) && decide (s < 8)
  | .evend s => decide (s < 8)
  | .rollback d a b s => decide (d < 32) && decide (a < 32) && decide (b < 32) && decide (s < 8)
  | .commit a b s => decide (a < 32) && decide (b < 32) && decide (s < 8)
  | .floorw b => decide (b < 32)
  | .lqry d a => decide (d < 32) && decide (a < 32)
  | .tlbi a b s => decide (a < 32) && decide (b < 32) && decide (s < 8)
  | .agist a => decide (a < 32)
  | .muster a => decide (a < 32)
  | .pgmig a b => decide (a < 32) && decide (b < 32)
  | .add d a b => decide (d < 32) && decide (a < 32) && decide (b < 32)
  | .sub d a b => decide (d < 32) && decide (a < 32) && decide (b < 32)
  | .and d a b => decide (d < 32) && decide (a < 32) && decide (b < 32)
  | .or d a b => decide (d < 32) && decide (a < 32) && decide (b < 32)
  | .xor d a b => decide (d < 32) && decide (a < 32) && decide (b < 32)
  | .andn d a b => decide (d < 32) && decide (a < 32) && decide (b < 32)
  | .orn d a b => decide (d < 32) && decide (a < 32) && decide (b < 32)
  | .xnor d a b => decide (d < 32) && decide (a < 32) && decide (b < 32)
  | .shl d a b => decide (d < 32) && decide (a < 32) && decide (b < 32)
  | .shr d a b => decide (d < 32) && decide (a < 32) && decide (b < 32)
  | .sar d a b => decide (d < 32) && decide (a < 32) && decide (b < 32)
  | .rol d a b => decide (d < 32) && decide (a < 32) && decide (b < 32)
  | .ror d a b => decide (d < 32) && decide (a < 32) && decide (b < 32)
  | .slt d a b => decide (d < 32) && decide (a < 32) && decide (b < 32)
  | .sltn d a b => decide (d < 32) && decide (a < 32) && decide (b < 32)
  | .min d a b => decide (d < 32) && decide (a < 32) && decide (b < 32)
  | .max d a b => decide (d < 32) && decide (a < 32) && decide (b < 32)
  | .minn d a b => decide (d < 32) && decide (a < 32) && decide (b < 32)
  | .maxn d a b => decide (d < 32) && decide (a < 32) && decide (b < 32)
  | .mul d a b => decide (d < 32) && decide (a < 32) && decide (b < 32)
  | .mulh d a b => decide (d < 32) && decide (a < 32) && decide (b < 32)
  | .mulhn d a b => decide (d < 32) && decide (a < 32) && decide (b < 32)
  | .div d a b => decide (d < 32) && decide (a < 32) && decide (b < 32)
  | .divn d a b => decide (d < 32) && decide (a < 32) && decide (b < 32)
  | .rem d a b => decide (d < 32) && decide (a < 32) && decide (b < 32)
  | .remn d a b => decide (d < 32) && decide (a < 32) && decide (b < 32)
  | .clz d a => decide (d < 32) && decide (a < 32)
  | .ctz d a => decide (d < 32) && decide (a < 32)
  | .popc d a => decide (d < 32) && decide (a < 32)
  | .sextw d a => decide (d < 32) && decide (a < 32)
  | .zextw d a => decide (d < 32) && decide (a < 32)
  | .brev8 d a => decide (d < 32) && decide (a < 32)
  | .addi d a i => decide (d < 32) && decide (a < 32) && inRange 14 i
  | .li d i => decide (d < 32) && inRange 19 i
  | .lis d i => decide (d < 32) && decide (i < 524288)
  | .addk d a k => decide (d < 32) && decide (a < 32) && decide (k < 256)
  | .subk d a k => decide (d < 32) && decide (a < 32) && decide (k < 256)
  | .andk d a k => decide (d < 32) && decide (a < 32) && decide (k < 256)
  | .ork d a k => decide (d < 32) && decide (a < 32) && decide (k < 256)
  | .xork d a k => decide (d < 32) && decide (a < 32) && decide (k < 256)
  | .mulk d a k => decide (d < 32) && decide (a < 32) && decide (k < 256)
  | .sltk d a k => decide (d < 32) && decide (a < 32) && decide (k < 256)
  | .mink d a k => decide (d < 32) && decide (a < 32) && decide (k < 256)
  | .maxk d a k => decide (d < 32) && decide (a < 32) && decide (k < 256)
  | .movk d k => decide (d < 32) && decide (k < 256)
  | .shli d a n => decide (d < 32) && decide (a < 32) && decide (n < 64)
  | .shri d a n => decide (d < 32) && decide (a < 32) && decide (n < 64)
  | .sari d a n => decide (d < 32) && decide (a < 32) && decide (n < 64)
  | .rori d a n => decide (d < 32) && decide (a < 32) && decide (n < 64)
  | .extr d a p e => decide (d < 32) && decide (a < 32) && decide (p < 64) && decide (e < 64) && (decide (p + e < 64))
  | .extrs d a p e => decide (d < 32) && decide (a < 32) && decide (p < 64) && decide (e < 64) && (decide (p + e < 64))
  | .insr d a p e => decide (d < 32) && decide (a < 32) && decide (p < 64) && decide (e < 64) && (decide (p + e < 64))
  | .fadd d a b p => decide (d < 32) && decide (a < 32) && decide (b < 32) && decide (p < 2)
  | .fsub d a b p => decide (d < 32) && decide (a < 32) && decide (b < 32) && decide (p < 2)
  | .fmul d a b p => decide (d < 32) && decide (a < 32) && decide (b < 32) && decide (p < 2)
  | .fdiv d a b p => decide (d < 32) && decide (a < 32) && decide (b < 32) && decide (p < 2)
  | .fsqrt d a p => decide (d < 32) && decide (a < 32) && decide (p < 2)
  | .fmin d a b p => decide (d < 32) && decide (a < 32) && decide (b < 32) && decide (p < 2)
  | .fmax d a b p => decide (d < 32) && decide (a < 32) && decide (b < 32) && decide (p < 2)
  | .fneg d a p => decide (d < 32) && decide (a < 32) && decide (p < 2)
  | .fabs d a p => decide (d < 32) && decide (a < 32) && decide (p < 2)
  | .feq d a b p => decide (d < 32) && decide (a < 32) && decide (b < 32) && decide (p < 2)
  | .flt d a b p => decide (d < 32) && decide (a < 32) && decide (b < 32) && decide (p < 2)
  | .fle d a b p => decide (d < 32) && decide (a < 32) && decide (b < 32) && decide (p < 2)
  | .fcvtS d a r => decide (d < 32) && decide (a < 32) && decide (r < 4)
  | .fcvtD d a => decide (d < 32) && decide (a < 32)
  | .fcvti d a p r => decide (d < 32) && decide (a < 32) && decide (p < 2) && decide (r < 4)
  | .fcvtin d a p r => decide (d < 32) && decide (a < 32) && decide (p < 2) && decide (r < 4)
  | .ficvt d a p r => decide (d < 32) && decide (a < 32) && decide (p < 2) && decide (r < 4)
  | .ficvtn d a p r => decide (d < 32) && decide (a < 32) && decide (p < 2) && decide (r < 4)
  | .fmvfs d a p => decide (d < 32) && decide (a < 32) && decide (p < 2)
  | .fmvsf d a p => decide (d < 32) && decide (a < 32) && decide (p < 2)
  | .fclass d a p => decide (d < 32) && decide (a < 32) && decide (p < 2)
  | .ffma d a b c p => decide (d < 32) && decide (a < 32) && decide (b < 32) && decide (c < 32) && decide (p < 2)
  | .ffms d a b c p => decide (d < 32) && decide (a < 32) && decide (b < 32) && decide (c < 32) && decide (p < 2)
  | .fnma d a b c p => decide (d < 32) && decide (a < 32) && decide (b < 32) && decide (c < 32) && decide (p < 2)
  | .fnms d a b c p => decide (d < 32) && decide (a < 32) && decide (b < 32) && decide (c < 32) && decide (p < 2)
  | .vadd d a b w => decide (d < 32) && decide (a < 32) && decide (b < 32) && decide (w < 4)
  | .vsub d a b w => decide (d < 32) && decide (a < 32) && decide (b < 32) && decide (w < 4)
  | .vmul d a b w => decide (d < 32) && decide (a < 32) && decide (b < 32) && decide (w < 4)
  | .vmulh d a b w => decide (d < 32) && decide (a < 32) && decide (b < 32) && decide (w < 4)
  | .vand d a b w => decide (d < 32) && decide (a < 32) && decide (b < 32) && decide (w < 4)
  | .vor d a b w => decide (d < 32) && decide (a < 32) && decide (b < 32) && decide (w < 4)
  | .vxor d a b w => decide (d < 32) && decide (a < 32) && decide (b < 32) && decide (w < 4)
  | .vshl d a b w => decide (d < 32) && decide (a < 32) && decide (b < 32) && decide (w < 4)
  | .vshr d a b w => decide (d < 32) && decide (a < 32) && decide (b < 32) && decide (w < 4)
  | .vsar d a b w => decide (d < 32) && decide (a < 32) && decide (b < 32) && decide (w < 4)
  | .vmin d a b w => decide (d < 32) && decide (a < 32) && decide (b < 32) && decide (w < 4)
  | .vmax d a b w => decide (d < 32) && decide (a < 32) && decide (b < 32) && decide (w < 4)
  | .vminn d a b w => decide (d < 32) && decide (a < 32) && decide (b < 32) && decide (w < 4)
  | .vmaxn d a b w => decide (d < 32) && decide (a < 32) && decide (b < 32) && decide (w < 4)
  | .vabs d a w => decide (d < 32) && decide (a < 32) && decide (w < 4)
  | .vfadd d a b t => decide (d < 32) && decide (a < 32) && decide (b < 32) && decide (t < 4) && (decide (t < 3))
  | .vfsub d a b t => decide (d < 32) && decide (a < 32) && decide (b < 32) && decide (t < 4) && (decide (t < 3))
  | .vfmul d a b t => decide (d < 32) && decide (a < 32) && decide (b < 32) && decide (t < 4) && (decide (t < 3))
  | .vfmax d a b t => decide (d < 32) && decide (a < 32) && decide (b < 32) && decide (t < 4) && (decide (t < 3))
  | .vfmin d a b t => decide (d < 32) && decide (a < 32) && decide (b < 32) && decide (t < 4) && (decide (t < 3))
  | .vfabs d a t => decide (d < 32) && decide (a < 32) && decide (t < 4) && (decide (t < 3))
  | .vfneg d a t => decide (d < 32) && decide (a < 32) && decide (t < 4) && (decide (t < 3))
  | .vfma d a b c t => decide (d < 32) && decide (a < 32) && decide (b < 32) && decide (c < 32) && decide (t < 4) && (decide (t < 3))
  | .vfms d a b c t => decide (d < 32) && decide (a < 32) && decide (b < 32) && decide (c < 32) && decide (t < 4) && (decide (t < 3))
  | .vfmas d a b c t => decide (d < 32) && decide (a < 32) && decide (b < 32) && decide (c < 32) && decide (t < 4) && (decide (t < 3))
  | .vsel d a b c t => decide (d < 32) && decide (a < 32) && decide (b < 32) && decide (c < 32) && decide (t < 4) && (decide (c < 8)) && (decide (t < 3))
  | .vexp2 d a f => decide (d < 32) && decide (a < 32) && decide (f < 4) && (decide (f < 3))
  | .vlog2 d a f => decide (d < 32) && decide (a < 32) && decide (f < 4) && (decide (f < 3))
  | .vrcp d a f => decide (d < 32) && decide (a < 32) && decide (f < 4) && (decide (f < 3))
  | .vrsq d a f => decide (d < 32) && decide (a < 32) && decide (f < 4) && (decide (f < 3))
  | .vsqrt d a f => decide (d < 32) && decide (a < 32) && decide (f < 4) && (decide (f < 3))
  | .vcvt d a f t => decide (d < 32) && decide (a < 32) && decide (f < 4) && decide (t < 4) && (f != t && (if f % 3 == 0 then (t % 3 == 0 || a % 2 == 0) else (t % 3 != 0 || d % 2 == 0)))
  | .vqblk d a t => decide (d < 32) && decide (a < 32) && decide (t < 4) && (t != 0 && a % 2 == 0)
  | .vdqblk d a t => decide (d < 32) && decide (a < 32) && decide (t < 4) && (t != 0 && d % 2 == 0)
  | .vplane d a t => decide (d < 32) && decide (a < 32) && decide (t < 4)
  | .vtrip d a => decide (d < 32) && decide (a < 32) && (a % 2 == 0)
  | .vtriu d a => decide (d < 32) && decide (a < 32) && (d % 2 == 0)
  | .vredsum d a w x => decide (d < 32) && decide (a < 32) && decide (w < 4) && decide (x < 2) && ((x == 0 || decide (w < 3)))
  | .vredmax d a w x => decide (d < 32) && decide (a < 32) && decide (w < 4) && decide (x < 2) && ((x == 0 || decide (w < 3)))
  | .vredmin d a w x => decide (d < 32) && decide (a < 32) && decide (w < 4) && decide (x < 2) && ((x == 0 || decide (w < 3)))
  | .vscan d a w x => decide (d < 32) && decide (a < 32) && decide (w < 4) && decide (x < 2) && ((x == 0 || decide (w < 3)))
  | .vshuf d a b w => decide (d < 32) && decide (a < 32) && decide (b < 32) && decide (w < 4)
  | .vbcast d a w x => decide (d < 32) && decide (a < 32) && decide (w < 4) && decide (x < 2)
  | .vextr d a b w x => decide (d < 32) && decide (a < 32) && decide (b < 32) && decide (w < 4) && decide (x < 2)
  | .vins d a b w x => decide (d < 32) && decide (a < 32) && decide (b < 32) && decide (w < 4) && decide (x < 2)
  | .vslup d a b w => decide (d < 32) && decide (a < 32) && decide (b < 32) && decide (w < 4)
  | .vsldn d a b w => decide (d < 32) && decide (a < 32) && decide (b < 32) && decide (w < 4)
  | .viota d a w => decide (d < 32) && decide (a < 32) && decide (w < 4)
  | .vcmp d a b c t f => decide (d < 32) && decide (a < 32) && decide (b < 32) && decide (c < 16) && decide (t < 4) && decide (f < 2) && (decide (d < 8)) && ((f == 0 || decide (t < 3)) && decide (c < 6))
  | .mand d a b => decide (d < 32) && decide (a < 32) && decide (b < 32) && (decide (d < 8) && decide (a < 8) && decide (b < 8))
  | .mor d a b => decide (d < 32) && decide (a < 32) && decide (b < 32) && (decide (d < 8) && decide (a < 8) && decide (b < 8))
  | .mxor d a b => decide (d < 32) && decide (a < 32) && decide (b < 32) && (decide (d < 8) && decide (a < 8) && decide (b < 8))
  | .mnot d a => decide (d < 32) && decide (a < 32) && (decide (d < 8) && decide (a < 8))
  | .mpop d a => decide (d < 32) && decide (a < 32) && (decide (a < 8))
  | .mfirst d a => decide (d < 32) && decide (a < 32) && (decide (a < 8))
  | .mset d a b => decide (d < 32) && decide (a < 32) && decide (b < 32) && (decide (d < 8))
  | .mget d a h => decide (d < 32) && decide (a < 32) && decide (h < 2) && (decide (a < 8))
  | .vrange d a b => decide (d < 32) && decide (a < 32) && decide (b < 32) && (decide (d < 8) && decide (b < 31))
  | .sminit d a => decide (d < 32) && decide (a < 32)
  | .smupd d a => decide (d < 32) && decide (a < 32) && (a % 2 == 0 && d != a && d != a + 1)
  | .smerge d a b => decide (d < 32) && decide (a < 32) && decide (b < 32)
  | .smout d a => decide (d < 32) && decide (a < 32)
  | .mma t a b c y x => decide (t < 2) && decide (a < 32) && decide (b < 32) && decide (c < 32) && decide (y < 4) && decide (x < 4)
  | .mma2 a b c y x => decide (a < 32) && decide (b < 32) && decide (c < 32) && decide (y < 4) && decide (x < 4)
  | .mzero a t => decide (a < 32) && decide (t < 2)
  | .mrd d b t g => decide (d < 32) && decide (b < 32) && decide (t < 2) && decide (g < 4) && ((g != 0 || d % 2 == 0))
  | .mrdq d b t g => decide (d < 32) && decide (b < 32) && decide (t < 2) && decide (g < 4) && (g != 0)
  | .mwr a b t => decide (a < 32) && decide (b < 32) && decide (t < 2)
  | .mstat d t => decide (d < 32) && decide (t < 2)
  | .mdraw d a b => decide (d < 32) && decide (a < 32) && decide (b < 32) && (a % 2 == 0)
  | .mcons d => decide (d < 32)
  | .rngb d a => decide (d < 32) && decide (a < 32)
  | .rngm d a b => decide (d < 32) && decide (a < 32) && decide (b < 32) && (decide (d < 8))
  | .nop => true
  | .eret => true
  | .ifence => true
  | .halt => true
  | .yield => true
  | .endTask => true
  | .cret => true
  | .coreIssue => true
  | .strandAged => true
  | .fetchBlockDeliver => true
  | .icacheMissFill => true
  | .herdRelease => true
  | .herdTimeout => true
  | .longResultReturn => true
  | .continuationPickup => true
  | .recordPoolSlotFree => true
  | .localMemArbitration => true
  | .clusterSpadArbitration => true
  | .dieSpadSliceGrant => true
  | .tileMoveStart => true
  | .tileMoveRow => true
  | .tileMoveComplete => true
  | .droverProgramFault => true
  | .streamElementArrive => true
  | .atomicExecute => true
  | .nearMemoryExecute => true
  | .storeAsyncFailure => true
  | .tableWalk => true
  | .migrationEpochEnd => true
  | .pageMoveCopy => true
  | .pageMoveDrain => true
  | .pageMoveSwitch => true
  | .pageMoveResume => true
  | .pageMoveAbandon => true
  | .leasePageClean => true
  | .musterNoticeArrive => true
  | .leasePageRemap => true
  | .musterDoneReceived => true
  | .zeroFillDone => true
  | .musterWindowExpire => true
  | .borrowerHubRestored => true
  | .lenderLost => true
  | .agistTakeRequest => true
  | .flushMarkerArrive => true
  | .flushAckReturn => true
  | .mcgGenerationRetire => true
  | .messageArrive => true
  | .antiMessageArrive => true
  | .messageDepart => true
  | .messageDeliver => true
  | .messageAged => true
  | .workSteal => true
  | .hangDetect => true
  | .floorRoundStart => true
  | .floorReportRepeat => true
  | .floorRoundEnd => true
  | .sleepExpire => true
  | .waitwTrigger => true
  | .waitwPoll => true
  | .mmaOperandsConsumed => true
  | .mmaFinish => true
  | .doorbellWrite => true
  | .packetLaunch => true
  | .packetCopy => true
  | .copyLine => true
  | .packetBarrier => true
  | .barrierSignalRead => true
  | .packetSignal => true
  | .packetNop => true
  | .launchSlotAcquire => true
  | .societyRegister => true
  | .leaseResidency => true
  | .proxyReserve => true
  | .flockPlace => true
  | .placeAged => true
  | .flockEnd => true
  | .launchDone => true
  | .queueReset => true
  | .evbaseWrite => true
  | .partctlWrite => true
  | .partitionTick => true
  | .drainTimeout => true
  | .clusterDrained => true
  | .preemptRequest => true
  | .launchStateSave => true
  | .flockSaved => true
  | .flockRestore => true
  | .trapEntry => true
  | .launchAbort => true
  | .flitReplay => true
  | .linkDegrade => true
  | .linkRetrain => true
  | .keepaliveSend => true
  | .keepaliveTimeout => true
  | .recoveryFence => true
  | .recoveryReconfigure => true
  | .recoveryRestore => true
  | .circuitChange => true
  | .paddockWrite => true
  | .hostWrite => true
  | .hostRead => true
  | .registerWrite => true
  | .mcgsyncWrite => true
  | .tagRegisterWrite => true
  | .tstatusWrite => true
  | .asidWrite => true
  | .floorintWrite => true
  | .powerOn => true
  | .firmwareUpdate => true
  | .readErrorLog => true
  | .readSensors => true
  | .setPowerCap => true
  | .notifyHost => true
  | .getMeasurements => true
  | .dieReset => true
  | .packageReset => true
  | .powerThrottle => true
  | .issueGating => true
  | .powerRecover => true
  | .storePerformsAtHome => true
  | .lenderAnswerTimeout => true

/-- `Instr.wf` as a proposition. -/
abbrev Instr.WellFormed (i : Instr) : Prop := i.wf = true

end Sys2Proof
end

