-- ==== Sys2Proof/Decode.lean ====
section
/-!
DEFINITION. The decoder of one payload (R43, R52 to R57) and, after it, the encoder. The decoder is total: a word
that is no instruction is rejected by name. Each major has its own decoder, written from its row of the opcode map.
-/

namespace Sys2Proof

/-- Why a payload is no instruction (R57). Each makes the bundle checks fail with illegal instruction. -/
inductive DecodeError where
  /-- A major opcode that no instruction uses (R56: 0x34 to 0x3F). -/
  | undefinedMajor
  /-- An undefined fn value or subfield (R50). -/
  | undefinedFn
  /-- A field that the description does not use is not zero (R50). -/
  | unusedField
  /-- A subfield value or a register number that the description excludes (R23, R54). -/
  | badField
deriving DecidableEq, Repr

/-- A field of `w` bits read as a signed number (R53). -/
def signedField (w x : Nat) : Int :=
  (((x + 2 ^ (w - 1)) % 2 ^ w : Nat) : Int) - ((2 ^ (w - 1) : Nat) : Int)

/-- A signed number written into a field of `w` bits. -/
def fieldOf (w : Nat) (i : Int) : Nat :=
  (i % ((2 ^ w : Nat) : Int)).toNat

/-- The instruction, when the fixed fields hold. -/
def accept (c : Bool) (i : Instr) : Except DecodeError Instr :=
  if c then .ok i else .error .unusedField

/-- Major 0x00: NOP, SLEEP, TRAP, ERET, HERD, IFENCE, HALT. -/
def decodeMajor00 (w : Nat) : Except DecodeError Instr :=
  match w / 2097152 % 512 with
  | 0 => accept (w / 64 % 32768 == 0) (.nop)
  | 1 => accept (w / 64 % 32 == 0) (.sleep (w / 2048 % 1024))
  | 2 => accept (w / 64 % 32 == 0) (.trap (w / 2048 % 1024))
  | 3 => accept (w / 64 % 32768 == 0) (.eret)
  | 4 => accept (w / 64 % 32 == 0) (.herd (w / 2048 % 1024))
  | 5 => accept (w / 64 % 32768 == 0) (.ifence)
  | 6 => accept (w / 64 % 32768 == 0) (.halt)
  | _ => .error .undefinedFn

/-- Major 0x01: SRD. -/
def decodeMajor01 (w : Nat) : Except DecodeError Instr :=
  accept (w / 2048 % 32 == 0) (.srd (w / 64 % 32) (w / 65536 % 16384))

/-- Major 0x02: SWR. -/
def decodeMajor02 (w : Nat) : Except DecodeError Instr :=
  accept (w / 64 % 32 == 0) (.swr (w / 2048 % 32) (w / 65536 % 16384))

/-- Major 0x03: BR. -/
def decodeMajor03 (w : Nat) : Except DecodeError Instr :=
  accept (true) (.br (signedField 24 (w / 64 % 16777216)))

/-- Major 0x04: CALL. -/
def decodeMajor04 (w : Nat) : Except DecodeError Instr :=
  accept (true) (.call (signedField 24 (w / 64 % 16777216)))

/-- Major 0x05: JR, JRL. -/
def decodeMajor05 (w : Nat) : Except DecodeError Instr :=
  match w / 2097152 % 512 with
  | 0 => accept (w / 64 % 32 == 0 && w / 65536 % 32 == 0) (.jr (w / 2048 % 32))
  | 1 => accept (w / 65536 % 32 == 0) (.jrl (w / 64 % 32) (w / 2048 % 32))
  | _ => .error .undefinedFn

/-- Major 0x06: BEQ. -/
def decodeMajor06 (w : Nat) : Except DecodeError Instr :=
  accept (true) (.beq (w / 64 % 32) (w / 2048 % 32) (signedField 14 (w / 65536 % 16384)))

/-- Major 0x07: BNE. -/
def decodeMajor07 (w : Nat) : Except DecodeError Instr :=
  accept (true) (.bne (w / 64 % 32) (w / 2048 % 32) (signedField 14 (w / 65536 % 16384)))

/-- Major 0x08: BLT. -/
def decodeMajor08 (w : Nat) : Except DecodeError Instr :=
  accept (true) (.blt (w / 64 % 32) (w / 2048 % 32) (signedField 14 (w / 65536 % 16384)))

/-- Major 0x09: BGE. -/
def decodeMajor09 (w : Nat) : Except DecodeError Instr :=
  accept (true) (.bge (w / 64 % 32) (w / 2048 % 32) (signedField 14 (w / 65536 % 16384)))

/-- Major 0x0A: BLTN. -/
def decodeMajor0A (w : Nat) : Except DecodeError Instr :=
  accept (true) (.bltn (w / 64 % 32) (w / 2048 % 32) (signedField 14 (w / 65536 % 16384)))

/-- Major 0x0B: BGEN. -/
def decodeMajor0B (w : Nat) : Except DecodeError Instr :=
  accept (true) (.bgen (w / 64 % 32) (w / 2048 % 32) (signedField 14 (w / 65536 % 16384)))

/-- Major 0x0C: LOOP. -/
def decodeMajor0C (w : Nat) : Except DecodeError Instr :=
  accept (w / 2048 % 32 == 0) (.loop (w / 64 % 32) (signedField 14 (w / 65536 % 16384)))

/-- Major 0x0D: LD, LD_SIGNED. -/
def decodeMajor0D (w : Nat) : Except DecodeError Instr :=
  match w / 262144 % 2 with
  | 0 => accept (true) (.ld (w / 64 % 32) (w / 2048 % 32) (w / 65536 % 4) (signedField 11 (w / 524288 % 2048)))
  | 1 => accept (true) (.ldSigned (w / 64 % 32) (w / 2048 % 32) (w / 65536 % 4) (signedField 11 (w / 524288 % 2048)))
  | _ => .error .undefinedFn

/-- Major 0x0E: ST. -/
def decodeMajor0E (w : Nat) : Except DecodeError Instr :=
  accept (w / 262144 % 2 == 0) (.st (w / 64 % 32) (w / 2048 % 32) (w / 65536 % 4) (signedField 11 (w / 524288 % 2048)))

/-- Major 0x0F: FLD, FST. -/
def decodeMajor0F (w : Nat) : Except DecodeError Instr :=
  match w / 131072 % 4 with
  | 1 => accept (true) (.fld (w / 64 % 32) (w / 2048 % 32) (w / 65536 % 2) (signedField 11 (w / 524288 % 2048)))
  | 3 => accept (true) (.fst (w / 64 % 32) (w / 2048 % 32) (w / 65536 % 2) (signedField 11 (w / 524288 % 2048)))
  | _ => .error .undefinedFn

/-- Major 0x10: VLD, VST. -/
def decodeMajor10 (w : Nat) : Except DecodeError Instr :=
  match w / 65536 % 8 with
  | 0 => accept (true) (.vld (w / 64 % 32) (w / 2048 % 32) (signedField 11 (w / 524288 % 2048)))
  | 1 => accept (true) (.vst (w / 64 % 32) (w / 2048 % 32) (signedField 11 (w / 524288 % 2048)))
  | _ => .error .undefinedFn

/-- Major 0x11: VLDS, VSTS, TLDX, VSTM. -/
def decodeMajor11 (w : Nat) : Except DecodeError Instr :=
  match w / 2097152 % 16 with
  | 0 => accept (w / 268435456 % 4 == 0) (.vlds (w / 64 % 32) (w / 2048 % 32) (w / 65536 % 32) (w / 33554432 % 8))
  | 1 => accept (w / 268435456 % 4 == 0) (.vsts (w / 64 % 32) (w / 2048 % 32) (w / 65536 % 32) (w / 33554432 % 8))
  | 2 => accept (w / 268435456 % 4 == 0) (.tldx (w / 64 % 32) (w / 2048 % 32) (w / 65536 % 32) (w / 33554432 % 8))
  | 3 => accept (w / 65536 % 32 == 0 && w / 268435456 % 4 == 0) (.vstm (w / 64 % 32) (w / 2048 % 32) (w / 33554432 % 8))
  | _ => .error .undefinedFn

/-- Major 0x12: VGATHER_W, VGATHER_D, VSCATTER_W, VSCATTER_D. -/
def decodeMajor12 (w : Nat) : Except DecodeError Instr :=
  match w / 67108864 % 4 with
  | 0 => accept (w / 268435456 % 2 == 0) (.vgatherW (w / 64 % 32) (w / 2048 % 32) (w / 65536 % 32) (w / 2097152 % 32) (w / 536870912 % 2))
  | 1 => accept (w / 268435456 % 2 == 0) (.vgatherD (w / 64 % 32) (w / 2048 % 32) (w / 65536 % 32) (w / 2097152 % 32) (w / 536870912 % 2))
  | 2 => accept (w / 268435456 % 2 == 0) (.vscatterW (w / 64 % 32) (w / 2048 % 32) (w / 65536 % 32) (w / 2097152 % 32) (w / 536870912 % 2))
  | 3 => accept (w / 268435456 % 2 == 0) (.vscatterD (w / 64 % 32) (w / 2048 % 32) (w / 65536 % 32) (w / 2097152 % 32) (w / 536870912 % 2))
  | _ => .error .undefinedFn

/-- Major 0x13: AMO. -/
def decodeMajor13 (w : Nat) : Except DecodeError Instr :=
  accept (true) (.amo (w / 64 % 32) (w / 2048 % 32) (w / 65536 % 32) (w / 2097152 % 16) (w / 33554432 % 2) (w / 67108864 % 8) (w / 536870912 % 2))

/-- Major 0x14: CAS_W, CAS_D, CAS2_D. -/
def decodeMajor14 (w : Nat) : Except DecodeError Instr :=
  match w / 67108864 % 16 with
  | 0 => accept (w / 16777216 % 4 == 0) (.casW (w / 64 % 32) (w / 2048 % 32) (w / 65536 % 32) (w / 2097152 % 8))
  | 1 => accept (w / 16777216 % 4 == 0) (.casD (w / 64 % 32) (w / 2048 % 32) (w / 65536 % 32) (w / 2097152 % 8))
  | 2 => accept (w / 16777216 % 4 == 0) (.cas2D (w / 64 % 32) (w / 2048 % 32) (w / 65536 % 32) (w / 2097152 % 8))
  | _ => .error .undefinedFn

/-- Major 0x15: LDAQ, STRL, FENCE_ACQ, FENCE_REL, FENCE_AR. -/
def decodeMajor15 (w : Nat) : Except DecodeError Instr :=
  match w / 2097152 % 8 with
  | 0 => accept (w / 65536 % 32 == 0 && w / 536870912 % 2 == 0) (.ldaq (w / 64 % 32) (w / 2048 % 32) (w / 16777216 % 8) (w / 134217728 % 4))
  | 1 => accept (w / 64 % 32 == 0 && w / 536870912 % 2 == 0) (.strl (w / 2048 % 32) (w / 65536 % 32) (w / 16777216 % 8) (w / 134217728 % 4))
  | 2 => accept (w / 64 % 32768 == 0 && w / 134217728 % 8 == 0) (.fenceAcq (w / 16777216 % 8))
  | 3 => accept (w / 64 % 32768 == 0 && w / 134217728 % 8 == 0) (.fenceRel (w / 16777216 % 8))
  | 4 => accept (w / 64 % 32768 == 0 && w / 134217728 % 8 == 0) (.fenceAr (w / 16777216 % 8))
  | _ => .error .undefinedFn

/-- Major 0x16: RED. -/
def decodeMajor16 (w : Nat) : Except DecodeError Instr :=
  accept (w / 64 % 32 == 0) (.red (w / 2048 % 32) (w / 65536 % 32) (w / 2097152 % 16) (w / 33554432 % 2) (w / 67108864 % 8) (w / 536870912 % 2))

/-- Major 0x17: NMCAS4, NMENQ, NMCHASE. -/
def decodeMajor17 (w : Nat) : Except DecodeError Instr :=
  match w / 67108864 % 16 with
  | 0 => accept (w / 2097152 % 32 == 0) (.nmcas4 (w / 64 % 32) (w / 2048 % 32) (w / 65536 % 32))
  | 1 => accept (w / 2097152 % 32 == 0) (.nmenq (w / 64 % 32) (w / 2048 % 32) (w / 65536 % 32))
  | 2 => accept (w / 2097152 % 32 == 0) (.nmchase (w / 64 % 32) (w / 2048 % 32) (w / 65536 % 32))
  | _ => .error .undefinedFn

/-- Major 0x18: TMOV, TMOVP, BGATH, PGIN, FORK, JOIN, TWAIT, DCONS. -/
def decodeMajor18 (w : Nat) : Except DecodeError Instr :=
  match w / 2097152 % 512 with
  | 0 => accept (w / 65536 % 32 == 0) (.tmov (w / 64 % 32) (w / 2048 % 32))
  | 1 => accept (w / 65536 % 32 == 0) (.tmovp (w / 64 % 32) (w / 2048 % 32))
  | 2 => accept (w / 65536 % 32 == 0) (.bgath (w / 64 % 32) (w / 2048 % 32))
  | 3 => accept (w / 65536 % 32 == 0) (.pgin (w / 64 % 32) (w / 2048 % 32))
  | 4 => accept (w / 64 % 32 == 0) (.fork (w / 2048 % 32) (w / 65536 % 32))
  | 5 => accept (w / 2048 % 1024 == 0) (.join (w / 64 % 32))
  | 6 => accept (w / 64 % 32 == 0 && w / 65536 % 32 == 0) (.twait (w / 2048 % 32))
  | 7 => accept (w / 2048 % 1024 == 0) (.dcons (w / 64 % 32))
  | _ => .error .undefinedFn

/-- Major 0x19: QBIND, QUNBIND, VPOP, SPOP, QSTAT. -/
def decodeMajor19 (w : Nat) : Except DecodeError Instr :=
  match w / 2097152 % 512 with
  | 0 => accept (w / 65536 % 32 == 0) (.qbind (w / 64 % 32) (w / 2048 % 32))
  | 1 => accept (w / 2048 % 1024 == 0) (.qunbind (w / 64 % 32))
  | 2 => accept (w / 65536 % 32 == 0) (.vpop (w / 64 % 32) (w / 2048 % 32))
  | 3 => accept (w / 65536 % 32 == 0) (.spop (w / 64 % 32) (w / 2048 % 32))
  | 4 => accept (w / 65536 % 32 == 0) (.qstat (w / 64 % 32) (w / 2048 % 32))
  | _ => .error .undefinedFn

/-- Major 0x1A: SEND, SENDS. -/
def decodeMajor1A (w : Nat) : Except DecodeError Instr :=
  match w / 67108864 % 16 with
  | 0 => accept (true) (.send (w / 64 % 32) (w / 2048 % 32) (w / 65536 % 32) (w / 2097152 % 32))
  | 1 => accept (true) (.sends (w / 64 % 32) (w / 2048 % 32) (w / 65536 % 32) (w / 2097152 % 32))
  | _ => .error .undefinedFn

/-- Major 0x1B: TAGEN, TAGDIS, TAGPND, TAGCLR, TAGRD. -/
def decodeMajor1B (w : Nat) : Except DecodeError Instr :=
  match w / 2097152 % 512 with
  | 0 => accept (w / 64 % 32 == 0 && w / 65536 % 32 == 0) (.tagen (w / 2048 % 32))
  | 1 => accept (w / 64 % 32 == 0 && w / 65536 % 32 == 0) (.tagdis (w / 2048 % 32))
  | 2 => accept (w / 64 % 32 == 0 && w / 65536 % 32 == 0) (.tagpnd (w / 2048 % 32))
  | 3 => accept (w / 64 % 32 == 0 && w / 65536 % 32 == 0) (.tagclr (w / 2048 % 32))
  | 4 => accept (w / 65536 % 32 == 0) (.tagrd (w / 64 % 32) (w / 2048 % 32))
  | _ => .error .undefinedFn

/-- Major 0x1C: SPAWN, SUSPEND, YIELD, END, WAITW, DEPSET, DEPDEC, RESUME. -/
def decodeMajor1C (w : Nat) : Except DecodeError Instr :=
  match w / 2097152 % 512 with
  | 0 => accept (w / 64 % 32 == 0 && w / 65536 % 32 == 0) (.spawn (w / 2048 % 32))
  | 1 => accept (w / 64 % 32 == 0 && w / 65536 % 32 == 0) (.suspend (w / 2048 % 32))
  | 2 => accept (w / 64 % 32768 == 0) (.yield)
  | 3 => accept (w / 64 % 32768 == 0) (.endTask)
  | 4 => accept (w / 64 % 32 == 0) (.waitw (w / 2048 % 32) (w / 65536 % 32))
  | 5 => accept (w / 64 % 32 == 0) (.depset (w / 2048 % 32) (w / 65536 % 32))
  | 6 => accept (w / 64 % 32 == 0 && w / 65536 % 32 == 0) (.depdec (w / 2048 % 32))
  | 7 => accept (w / 64 % 32 == 0 && w / 65536 % 32 == 0) (.resume (w / 2048 % 32))
  | _ => .error .undefinedFn

/-- Major 0x1D: CALLC. -/
def decodeMajor1D (w : Nat) : Except DecodeError Instr :=
  accept (true) (.callc (w / 64 % 32) (signedField 19 (w / 2048 % 524288)))

/-- Major 0x1E: ECOLLECT, ECLOSE, CRET, ECAT, EFILT, EFILTX, EREBASE, EAPPLY, EDROP, ELEN, EGROW, ETRUNC. -/
def decodeMajor1E (w : Nat) : Except DecodeError Instr :=
  match w / 2097152 % 16 with
  | 0 => accept (w / 33554432 % 32 == 0) (.ecollect (w / 64 % 32) (w / 2048 % 32) (w / 65536 % 32))
  | 1 => accept (w / 2048 % 1024 == 0 && w / 33554432 % 32 == 0) (.eclose (w / 64 % 32))
  | 2 => accept (w / 64 % 32768 == 0 && w / 33554432 % 32 == 0) (.cret)
  | 3 => accept (w / 33554432 % 32 == 0) (.ecat (w / 64 % 32) (w / 2048 % 32) (w / 65536 % 32))
  | 4 => accept (w / 33554432 % 32 == 0) (.efilt (w / 64 % 32) (w / 2048 % 32) (w / 65536 % 32))
  | 5 => accept (w / 33554432 % 32 == 0) (.efiltx (w / 64 % 32) (w / 2048 % 32) (w / 65536 % 32))
  | 6 => accept (w / 33554432 % 32 == 0) (.erebase (w / 64 % 32) (w / 2048 % 32) (w / 65536 % 32))
  | 7 => accept (w / 64 % 32 == 0 && w / 65536 % 32 == 0) (.eapply (w / 2048 % 32) (w / 33554432 % 8) (w / 268435456 % 2) (w / 536870912 % 2))
  | 8 => accept (w / 64 % 32 == 0 && w / 65536 % 32 == 0 && w / 33554432 % 32 == 0) (.edrop (w / 2048 % 32))
  | 9 => accept (w / 33554432 % 32 == 0) (.elen (w / 64 % 32) (w / 2048 % 32) (w / 65536 % 32))
  | 10 => accept (w / 64 % 32 == 0 && w / 33554432 % 32 == 0) (.egrow (w / 2048 % 32) (w / 65536 % 32))
  | 11 => accept (w / 64 % 32 == 0 && w / 33554432 % 32 == 0) (.etrunc (w / 2048 % 32) (w / 65536 % 32))
  | _ => .error .undefinedFn

/-- Major 0x1F: EVBEGIN, EVEND, ROLLBACK, COMMIT, FLOORW, LQRY, TLBI, AGIST, MUSTER, PGMIG. -/
def decodeMajor1F (w : Nat) : Except DecodeError Instr :=
  match w / 2097152 % 32 with
  | 0 => accept (w / 64 % 32 == 0 && w / 536870912 % 2 == 0) (.evbegin (w / 2048 % 32) (w / 65536 % 32) (w / 67108864 % 8))
  | 1 => accept (w / 64 % 32768 == 0 && w / 536870912 % 2 == 0) (.evend (w / 67108864 % 8))
  | 2 => accept (w / 536870912 % 2 == 0) (.rollback (w / 64 % 32) (w / 2048 % 32) (w / 65536 % 32) (w / 67108864 % 8))
  | 3 => accept (w / 64 % 32 == 0 && w / 536870912 % 2 == 0) (.commit (w / 2048 % 32) (w / 65536 % 32) (w / 67108864 % 8))
  | 4 => accept (w / 64 % 1024 == 0 && w / 67108864 % 16 == 0) (.floorw (w / 65536 % 32))
  | 5 => accept (w / 65536 % 32 == 0 && w / 67108864 % 16 == 0) (.lqry (w / 64 % 32) (w / 2048 % 32))
  | 8 => accept (w / 64 % 32 == 0 && w / 536870912 % 2 == 0) (.tlbi (w / 2048 % 32) (w / 65536 % 32) (w / 67108864 % 8))
  | 9 => accept (w / 64 % 32 == 0 && w / 65536 % 32 == 0 && w / 67108864 % 16 == 0) (.agist (w / 2048 % 32))
  | 10 => accept (w / 64 % 32 == 0 && w / 65536 % 32 == 0 && w / 67108864 % 16 == 0) (.muster (w / 2048 % 32))
  | 11 => accept (w / 64 % 32 == 0 && w / 67108864 % 16 == 0) (.pgmig (w / 2048 % 32) (w / 65536 % 32))
  | _ => .error .undefinedFn

/-- Major 0x20: ADD, SUB, AND, OR, XOR, ANDN, ORN, XNOR, SHL, SHR, SAR, ROL, ROR, SLT, SLTN, MIN, MAX, MINN, MAXN, MUL, MULH, MULHN, DIV, DIVN, REM, REMN, CLZ, CTZ, POPC, SEXTW, ZEXTW, BREV8. -/
def decodeMajor20 (w : Nat) : Except DecodeError Instr :=
  match w / 2097152 % 512 with
  | 0 => accept (true) (.add (w / 64 % 32) (w / 2048 % 32) (w / 65536 % 32))
  | 1 => accept (true) (.sub (w / 64 % 32) (w / 2048 % 32) (w / 65536 % 32))
  | 2 => accept (true) (.and (w / 64 % 32) (w / 2048 % 32) (w / 65536 % 32))
  | 3 => accept (true) (.or (w / 64 % 32) (w / 2048 % 32) (w / 65536 % 32))
  | 4 => accept (true) (.xor (w / 64 % 32) (w / 2048 % 32) (w / 65536 % 32))
  | 5 => accept (true) (.andn (w / 64 % 32) (w / 2048 % 32) (w / 65536 % 32))
  | 6 => accept (true) (.orn (w / 64 % 32) (w / 2048 % 32) (w / 65536 % 32))
  | 7 => accept (true) (.xnor (w / 64 % 32) (w / 2048 % 32) (w / 65536 % 32))
  | 8 => accept (true) (.shl (w / 64 % 32) (w / 2048 % 32) (w / 65536 % 32))
  | 9 => accept (true) (.shr (w / 64 % 32) (w / 2048 % 32) (w / 65536 % 32))
  | 10 => accept (true) (.sar (w / 64 % 32) (w / 2048 % 32) (w / 65536 % 32))
  | 11 => accept (true) (.rol (w / 64 % 32) (w / 2048 % 32) (w / 65536 % 32))
  | 12 => accept (true) (.ror (w / 64 % 32) (w / 2048 % 32) (w / 65536 % 32))
  | 13 => accept (true) (.slt (w / 64 % 32) (w / 2048 % 32) (w / 65536 % 32))
  | 14 => accept (true) (.sltn (w / 64 % 32) (w / 2048 % 32) (w / 65536 % 32))
  | 15 => accept (true) (.min (w / 64 % 32) (w / 2048 % 32) (w / 65536 % 32))
  | 16 => accept (true) (.max (w / 64 % 32) (w / 2048 % 32) (w / 65536 % 32))
  | 17 => accept (true) (.minn (w / 64 % 32) (w / 2048 % 32) (w / 65536 % 32))
  | 18 => accept (true) (.maxn (w / 64 % 32) (w / 2048 % 32) (w / 65536 % 32))
  | 19 => accept (true) (.mul (w / 64 % 32) (w / 2048 % 32) (w / 65536 % 32))
  | 20 => accept (true) (.mulh (w / 64 % 32) (w / 2048 % 32) (w / 65536 % 32))
  | 21 => accept (true) (.mulhn (w / 64 % 32) (w / 2048 % 32) (w / 65536 % 32))
  | 22 => accept (true) (.div (w / 64 % 32) (w / 2048 % 32) (w / 65536 % 32))
  | 23 => accept (true) (.divn (w / 64 % 32) (w / 2048 % 32) (w / 65536 % 32))
  | 24 => accept (true) (.rem (w / 64 % 32) (w / 2048 % 32) (w / 65536 % 32))
  | 25 => accept (true) (.remn (w / 64 % 32) (w / 2048 % 32) (w / 65536 % 32))
  | 26 => accept (w / 65536 % 32 == 0) (.clz (w / 64 % 32) (w / 2048 % 32))
  | 27 => accept (w / 65536 % 32 == 0) (.ctz (w / 64 % 32) (w / 2048 % 32))
  | 28 => accept (w / 65536 % 32 == 0) (.popc (w / 64 % 32) (w / 2048 % 32))
  | 29 => accept (w / 65536 % 32 == 0) (.sextw (w / 64 % 32) (w / 2048 % 32))
  | 30 => accept (w / 65536 % 32 == 0) (.zextw (w / 64 % 32) (w / 2048 % 32))
  | 31 => accept (w / 65536 % 32 == 0) (.brev8 (w / 64 % 32) (w / 2048 % 32))
  | _ => .error .undefinedFn

/-- Major 0x21: ADDI. -/
def decodeMajor21 (w : Nat) : Except DecodeError Instr :=
  accept (true) (.addi (w / 64 % 32) (w / 2048 % 32) (signedField 14 (w / 65536 % 16384)))

/-- Major 0x22: LI. -/
def decodeMajor22 (w : Nat) : Except DecodeError Instr :=
  accept (true) (.li (w / 64 % 32) (signedField 19 (w / 2048 % 524288)))

/-- Major 0x23: LIS. -/
def decodeMajor23 (w : Nat) : Except DecodeError Instr :=
  accept (true) (.lis (w / 64 % 32) (w / 2048 % 524288))

/-- Major 0x24: ADDK, SUBK, ANDK, ORK, XORK, MULK, SLTK, MINK, MAXK, MOVK. -/
def decodeMajor24 (w : Nat) : Except DecodeError Instr :=
  match w / 16777216 % 64 with
  | 0 => accept (true) (.addk (w / 64 % 32) (w / 2048 % 32) (w / 65536 % 256))
  | 1 => accept (true) (.subk (w / 64 % 32) (w / 2048 % 32) (w / 65536 % 256))
  | 2 => accept (true) (.andk (w / 64 % 32) (w / 2048 % 32) (w / 65536 % 256))
  | 3 => accept (true) (.ork (w / 64 % 32) (w / 2048 % 32) (w / 65536 % 256))
  | 4 => accept (true) (.xork (w / 64 % 32) (w / 2048 % 32) (w / 65536 % 256))
  | 5 => accept (true) (.mulk (w / 64 % 32) (w / 2048 % 32) (w / 65536 % 256))
  | 6 => accept (true) (.sltk (w / 64 % 32) (w / 2048 % 32) (w / 65536 % 256))
  | 7 => accept (true) (.mink (w / 64 % 32) (w / 2048 % 32) (w / 65536 % 256))
  | 8 => accept (true) (.maxk (w / 64 % 32) (w / 2048 % 32) (w / 65536 % 256))
  | 9 => accept (w / 2048 % 32 == 0) (.movk (w / 64 % 32) (w / 65536 % 256))
  | _ => .error .undefinedFn

/-- Major 0x25: SHLI, SHRI, SARI, RORI. -/
def decodeMajor25 (w : Nat) : Except DecodeError Instr :=
  match w / 4194304 % 256 with
  | 0 => accept (true) (.shli (w / 64 % 32) (w / 2048 % 32) (w / 65536 % 32 + 32 * (w / 2097152 % 2)))
  | 1 => accept (true) (.shri (w / 64 % 32) (w / 2048 % 32) (w / 65536 % 32 + 32 * (w / 2097152 % 2)))
  | 2 => accept (true) (.sari (w / 64 % 32) (w / 2048 % 32) (w / 65536 % 32 + 32 * (w / 2097152 % 2)))
  | 3 => accept (true) (.rori (w / 64 % 32) (w / 2048 % 32) (w / 65536 % 32 + 32 * (w / 2097152 % 2)))
  | _ => .error .undefinedFn

/-- Major 0x26: EXTR, EXTRS, INSR. -/
def decodeMajor26 (w : Nat) : Except DecodeError Instr :=
  match w / 268435456 % 4 with
  | 0 => accept (true) (.extr (w / 64 % 32) (w / 2048 % 32) (w / 65536 % 64) (w / 4194304 % 64))
  | 1 => accept (true) (.extrs (w / 64 % 32) (w / 2048 % 32) (w / 65536 % 64) (w / 4194304 % 64))
  | 2 => accept (true) (.insr (w / 64 % 32) (w / 2048 % 32) (w / 65536 % 64) (w / 4194304 % 64))
  | _ => .error .undefinedFn

/-- Major 0x27: FADD, FSUB, FMUL, FDIV, FSQRT, FMIN, FMAX, FNEG, FABS, FEQ, FLT, FLE, FCVT_S, FCVT_D, FCVTI, FCVTIN, FICVT, FICVTN, FMVFS, FMVSF, FCLASS. -/
def decodeMajor27 (w : Nat) : Except DecodeError Instr :=
  match w / 4194304 % 32 with
  | 0 => accept (w / 134217728 % 8 == 0) (.fadd (w / 64 % 32) (w / 2048 % 32) (w / 65536 % 32) (w / 2097152 % 2))
  | 1 => accept (w / 134217728 % 8 == 0) (.fsub (w / 64 % 32) (w / 2048 % 32) (w / 65536 % 32) (w / 2097152 % 2))
  | 2 => accept (w / 134217728 % 8 == 0) (.fmul (w / 64 % 32) (w / 2048 % 32) (w / 65536 % 32) (w / 2097152 % 2))
  | 3 => accept (w / 134217728 % 8 == 0) (.fdiv (w / 64 % 32) (w / 2048 % 32) (w / 65536 % 32) (w / 2097152 % 2))
  | 4 => accept (w / 65536 % 32 == 0 && w / 134217728 % 8 == 0) (.fsqrt (w / 64 % 32) (w / 2048 % 32) (w / 2097152 % 2))
  | 5 => accept (w / 134217728 % 8 == 0) (.fmin (w / 64 % 32) (w / 2048 % 32) (w / 65536 % 32) (w / 2097152 % 2))
  | 6 => accept (w / 134217728 % 8 == 0) (.fmax (w / 64 % 32) (w / 2048 % 32) (w / 65536 % 32) (w / 2097152 % 2))
  | 7 => accept (w / 65536 % 32 == 0 && w / 134217728 % 8 == 0) (.fneg (w / 64 % 32) (w / 2048 % 32) (w / 2097152 % 2))
  | 8 => accept (w / 65536 % 32 == 0 && w / 134217728 % 8 == 0) (.fabs (w / 64 % 32) (w / 2048 % 32) (w / 2097152 % 2))
  | 9 => accept (w / 134217728 % 8 == 0) (.feq (w / 64 % 32) (w / 2048 % 32) (w / 65536 % 32) (w / 2097152 % 2))
  | 10 => accept (w / 134217728 % 8 == 0) (.flt (w / 64 % 32) (w / 2048 % 32) (w / 65536 % 32) (w / 2097152 % 2))
  | 11 => accept (w / 134217728 % 8 == 0) (.fle (w / 64 % 32) (w / 2048 % 32) (w / 65536 % 32) (w / 2097152 % 2))
  | 12 =>
    if w / 65536 % 64 == 0 && w / 536870912 % 2 == 0 then .ok (.fcvtS (w / 64 % 32) (w / 2048 % 32) (w / 134217728 % 4))
    else if w / 65536 % 64 == 32 && w / 134217728 % 8 == 0 then .ok (.fcvtD (w / 64 % 32) (w / 2048 % 32))
    else .error .unusedField
  | 13 =>
    if w / 65536 % 32 == 0 && w / 536870912 % 2 == 0 then .ok (.fcvti (w / 64 % 32) (w / 2048 % 32) (w / 2097152 % 2) (w / 134217728 % 4))
    else if w / 65536 % 32 == 0 && w / 536870912 % 2 == 1 then .ok (.fcvtin (w / 64 % 32) (w / 2048 % 32) (w / 2097152 % 2) (w / 134217728 % 4))
    else .error .unusedField
  | 14 =>
    if w / 65536 % 32 == 0 && w / 536870912 % 2 == 0 then .ok (.ficvt (w / 64 % 32) (w / 2048 % 32) (w / 2097152 % 2) (w / 134217728 % 4))
    else if w / 65536 % 32 == 0 && w / 536870912 % 2 == 1 then .ok (.ficvtn (w / 64 % 32) (w / 2048 % 32) (w / 2097152 % 2) (w / 134217728 % 4))
    else .error .unusedField
  | 15 => accept (w / 65536 % 32 == 0 && w / 134217728 % 8 == 0) (.fmvfs (w / 64 % 32) (w / 2048 % 32) (w / 2097152 % 2))
  | 16 => accept (w / 65536 % 32 == 0 && w / 134217728 % 8 == 0) (.fmvsf (w / 64 % 32) (w / 2048 % 32) (w / 2097152 % 2))
  | 17 => accept (w / 65536 % 32 == 0 && w / 134217728 % 8 == 0) (.fclass (w / 64 % 32) (w / 2048 % 32) (w / 2097152 % 2))
  | _ => .error .undefinedFn

/-- Major 0x28: FFMA, FFMS, FNMA, FNMS. -/
def decodeMajor28 (w : Nat) : Except DecodeError Instr :=
  match w / 134217728 % 8 with
  | 0 => accept (true) (.ffma (w / 64 % 32) (w / 2048 % 32) (w / 65536 % 32) (w / 2097152 % 32) (w / 67108864 % 2))
  | 1 => accept (true) (.ffms (w / 64 % 32) (w / 2048 % 32) (w / 65536 % 32) (w / 2097152 % 32) (w / 67108864 % 2))
  | 2 => accept (true) (.fnma (w / 64 % 32) (w / 2048 % 32) (w / 65536 % 32) (w / 2097152 % 32) (w / 67108864 % 2))
  | 3 => accept (true) (.fnms (w / 64 % 32) (w / 2048 % 32) (w / 65536 % 32) (w / 2097152 % 32) (w / 67108864 % 2))
  | _ => .error .undefinedFn

/-- Major 0x29: VADD, VSUB, VMUL, VMULH, VAND, VOR, VXOR, VSHL, VSHR, VSAR, VMIN, VMAX, VMINN, VMAXN, VABS. -/
def decodeMajor29 (w : Nat) : Except DecodeError Instr :=
  match w / 8388608 % 128 with
  | 0 => accept (true) (.vadd (w / 64 % 32) (w / 2048 % 32) (w / 65536 % 32) (w / 2097152 % 4))
  | 1 => accept (true) (.vsub (w / 64 % 32) (w / 2048 % 32) (w / 65536 % 32) (w / 2097152 % 4))
  | 2 => accept (true) (.vmul (w / 64 % 32) (w / 2048 % 32) (w / 65536 % 32) (w / 2097152 % 4))
  | 3 => accept (true) (.vmulh (w / 64 % 32) (w / 2048 % 32) (w / 65536 % 32) (w / 2097152 % 4))
  | 4 => accept (true) (.vand (w / 64 % 32) (w / 2048 % 32) (w / 65536 % 32) (w / 2097152 % 4))
  | 5 => accept (true) (.vor (w / 64 % 32) (w / 2048 % 32) (w / 65536 % 32) (w / 2097152 % 4))
  | 6 => accept (true) (.vxor (w / 64 % 32) (w / 2048 % 32) (w / 65536 % 32) (w / 2097152 % 4))
  | 7 => accept (true) (.vshl (w / 64 % 32) (w / 2048 % 32) (w / 65536 % 32) (w / 2097152 % 4))
  | 8 => accept (true) (.vshr (w / 64 % 32) (w / 2048 % 32) (w / 65536 % 32) (w / 2097152 % 4))
  | 9 => accept (true) (.vsar (w / 64 % 32) (w / 2048 % 32) (w / 65536 % 32) (w / 2097152 % 4))
  | 10 => accept (true) (.vmin (w / 64 % 32) (w / 2048 % 32) (w / 65536 % 32) (w / 2097152 % 4))
  | 11 => accept (true) (.vmax (w / 64 % 32) (w / 2048 % 32) (w / 65536 % 32) (w / 2097152 % 4))
  | 12 => accept (true) (.vminn (w / 64 % 32) (w / 2048 % 32) (w / 65536 % 32) (w / 2097152 % 4))
  | 13 => accept (true) (.vmaxn (w / 64 % 32) (w / 2048 % 32) (w / 65536 % 32) (w / 2097152 % 4))
  | 14 => accept (w / 65536 % 32 == 0) (.vabs (w / 64 % 32) (w / 2048 % 32) (w / 2097152 % 4))
  | _ => .error .undefinedFn

/-- Major 0x2A: VFADD, VFSUB, VFMUL, VFMAX, VFMIN, VFABS, VFNEG. -/
def decodeMajor2A (w : Nat) : Except DecodeError Instr :=
  match w / 8388608 % 128 with
  | 0 => accept (true) (.vfadd (w / 64 % 32) (w / 2048 % 32) (w / 65536 % 32) (w / 2097152 % 4))
  | 1 => accept (true) (.vfsub (w / 64 % 32) (w / 2048 % 32) (w / 65536 % 32) (w / 2097152 % 4))
  | 2 => accept (true) (.vfmul (w / 64 % 32) (w / 2048 % 32) (w / 65536 % 32) (w / 2097152 % 4))
  | 3 => accept (true) (.vfmax (w / 64 % 32) (w / 2048 % 32) (w / 65536 % 32) (w / 2097152 % 4))
  | 4 => accept (true) (.vfmin (w / 64 % 32) (w / 2048 % 32) (w / 65536 % 32) (w / 2097152 % 4))
  | 5 => accept (w / 65536 % 32 == 0) (.vfabs (w / 64 % 32) (w / 2048 % 32) (w / 2097152 % 4))
  | 6 => accept (w / 65536 % 32 == 0) (.vfneg (w / 64 % 32) (w / 2048 % 32) (w / 2097152 % 4))
  | _ => .error .undefinedFn

/-- Major 0x2B: VFMA, VFMS, VFMAS, VSEL. -/
def decodeMajor2B (w : Nat) : Except DecodeError Instr :=
  match w / 268435456 % 4 with
  | 0 => accept (true) (.vfma (w / 64 % 32) (w / 2048 % 32) (w / 65536 % 32) (w / 2097152 % 32) (w / 67108864 % 4))
  | 1 => accept (true) (.vfms (w / 64 % 32) (w / 2048 % 32) (w / 65536 % 32) (w / 2097152 % 32) (w / 67108864 % 4))
  | 2 => accept (true) (.vfmas (w / 64 % 32) (w / 2048 % 32) (w / 65536 % 32) (w / 2097152 % 32) (w / 67108864 % 4))
  | 3 => accept (true) (.vsel (w / 64 % 32) (w / 2048 % 32) (w / 65536 % 32) (w / 2097152 % 32) (w / 67108864 % 4))
  | _ => .error .undefinedFn

/-- Major 0x2C: VEXP2, VLOG2, VRCP, VRSQ, VSQRT, VCVT, VQBLK, VDQBLK, VPLANE, VTRIP, VTRIU. -/
def decodeMajor2C (w : Nat) : Except DecodeError Instr :=
  match w / 2097152 % 32 with
  | 0 => accept (w / 65536 % 32 == 0 && w / 268435456 % 4 == 0) (.vexp2 (w / 64 % 32) (w / 2048 % 32) (w / 67108864 % 4))
  | 1 => accept (w / 65536 % 32 == 0 && w / 268435456 % 4 == 0) (.vlog2 (w / 64 % 32) (w / 2048 % 32) (w / 67108864 % 4))
  | 2 => accept (w / 65536 % 32 == 0 && w / 268435456 % 4 == 0) (.vrcp (w / 64 % 32) (w / 2048 % 32) (w / 67108864 % 4))
  | 3 => accept (w / 65536 % 32 == 0 && w / 268435456 % 4 == 0) (.vrsq (w / 64 % 32) (w / 2048 % 32) (w / 67108864 % 4))
  | 4 => accept (w / 65536 % 32 == 0 && w / 268435456 % 4 == 0) (.vsqrt (w / 64 % 32) (w / 2048 % 32) (w / 67108864 % 4))
  | 5 => accept (w / 65536 % 32 == 0) (.vcvt (w / 64 % 32) (w / 2048 % 32) (w / 67108864 % 4) (w / 268435456 % 4))
  | 6 => accept (w / 65536 % 32 == 0 && w / 67108864 % 4 == 0) (.vqblk (w / 64 % 32) (w / 2048 % 32) (w / 268435456 % 4))
  | 7 => accept (w / 65536 % 32 == 0 && w / 67108864 % 4 == 0) (.vdqblk (w / 64 % 32) (w / 2048 % 32) (w / 268435456 % 4))
  | 8 => accept (w / 65536 % 32 == 0 && w / 67108864 % 4 == 0) (.vplane (w / 64 % 32) (w / 2048 % 32) (w / 268435456 % 4))
  | 9 => accept (w / 65536 % 32 == 0 && w / 67108864 % 16 == 0) (.vtrip (w / 64 % 32) (w / 2048 % 32))
  | 10 => accept (w / 65536 % 32 == 0 && w / 67108864 % 16 == 0) (.vtriu (w / 64 % 32) (w / 2048 % 32))
  | _ => .error .undefinedFn

/-- Major 0x2D: VREDSUM, VREDMAX, VREDMIN, VSCAN, VSHUF, VBCAST, VEXTR, VINS, VSLUP, VSLDN, VIOTA. -/
def decodeMajor2D (w : Nat) : Except DecodeError Instr :=
  match w / 2097152 % 32 with
  | 0 => accept (w / 65536 % 32 == 0 && w / 536870912 % 2 == 0) (.vredsum (w / 64 % 32) (w / 2048 % 32) (w / 67108864 % 4) (w / 268435456 % 2))
  | 1 => accept (w / 65536 % 32 == 0 && w / 536870912 % 2 == 0) (.vredmax (w / 64 % 32) (w / 2048 % 32) (w / 67108864 % 4) (w / 268435456 % 2))
  | 2 => accept (w / 65536 % 32 == 0 && w / 536870912 % 2 == 0) (.vredmin (w / 64 % 32) (w / 2048 % 32) (w / 67108864 % 4) (w / 268435456 % 2))
  | 3 => accept (w / 65536 % 32 == 0 && w / 536870912 % 2 == 0) (.vscan (w / 64 % 32) (w / 2048 % 32) (w / 67108864 % 4) (w / 268435456 % 2))
  | 4 => accept (w / 268435456 % 4 == 0) (.vshuf (w / 64 % 32) (w / 2048 % 32) (w / 65536 % 32) (w / 67108864 % 4))
  | 5 => accept (w / 65536 % 32 == 0 && w / 536870912 % 2 == 0) (.vbcast (w / 64 % 32) (w / 2048 % 32) (w / 67108864 % 4) (w / 268435456 % 2))
  | 6 => accept (w / 536870912 % 2 == 0) (.vextr (w / 64 % 32) (w / 2048 % 32) (w / 65536 % 32) (w / 67108864 % 4) (w / 268435456 % 2))
  | 7 => accept (w / 536870912 % 2 == 0) (.vins (w / 64 % 32) (w / 2048 % 32) (w / 65536 % 32) (w / 67108864 % 4) (w / 268435456 % 2))
  | 8 => accept (w / 268435456 % 4 == 0) (.vslup (w / 64 % 32) (w / 2048 % 32) (w / 65536 % 32) (w / 67108864 % 4))
  | 9 => accept (w / 268435456 % 4 == 0) (.vsldn (w / 64 % 32) (w / 2048 % 32) (w / 65536 % 32) (w / 67108864 % 4))
  | 10 => accept (w / 65536 % 32 == 0 && w / 268435456 % 4 == 0) (.viota (w / 64 % 32) (w / 2048 % 32) (w / 67108864 % 4))
  | _ => .error .undefinedFn

/-- Major 0x2E: VCMP. -/
def decodeMajor2E (w : Nat) : Except DecodeError Instr :=
  accept (w / 268435456 % 4 == 0) (.vcmp (w / 64 % 32) (w / 2048 % 32) (w / 65536 % 32) (w / 2097152 % 16) (w / 33554432 % 4) (w / 134217728 % 2))

/-- Major 0x2F: MAND, MOR, MXOR, MNOT, MPOP, MFIRST, MSET, MGET, VRANGE. -/
def decodeMajor2F (w : Nat) : Except DecodeError Instr :=
  match w / 2097152 % 512 with
  | 0 => accept (true) (.mand (w / 64 % 32) (w / 2048 % 32) (w / 65536 % 32))
  | 1 => accept (true) (.mor (w / 64 % 32) (w / 2048 % 32) (w / 65536 % 32))
  | 2 => accept (true) (.mxor (w / 64 % 32) (w / 2048 % 32) (w / 65536 % 32))
  | 3 => accept (w / 65536 % 32 == 0) (.mnot (w / 64 % 32) (w / 2048 % 32))
  | 4 => accept (w / 65536 % 32 == 0) (.mpop (w / 64 % 32) (w / 2048 % 32))
  | 5 => accept (w / 65536 % 32 == 0) (.mfirst (w / 64 % 32) (w / 2048 % 32))
  | 6 => accept (true) (.mset (w / 64 % 32) (w / 2048 % 32) (w / 65536 % 32))
  | 7 => accept (w / 131072 % 16 == 0) (.mget (w / 64 % 32) (w / 2048 % 32) (w / 65536 % 2))
  | 8 => accept (true) (.vrange (w / 64 % 32) (w / 2048 % 32) (w / 65536 % 32))
  | _ => .error .undefinedFn

/-- Major 0x30: SMINIT, SMUPD, SMERGE, SMOUT. -/
def decodeMajor30 (w : Nat) : Except DecodeError Instr :=
  match w / 2097152 % 512 with
  | 0 => accept (w / 65536 % 32 == 0) (.sminit (w / 64 % 32) (w / 2048 % 32))
  | 1 => accept (w / 65536 % 32 == 0) (.smupd (w / 64 % 32) (w / 2048 % 32))
  | 2 => accept (true) (.smerge (w / 64 % 32) (w / 2048 % 32) (w / 65536 % 32))
  | 3 => accept (w / 65536 % 32 == 0) (.smout (w / 64 % 32) (w / 2048 % 32))
  | _ => .error .undefinedFn

/-- Major 0x31: MMA, MMA2. -/
def decodeMajor31 (w : Nat) : Except DecodeError Instr :=
  match w / 128 % 16 with
  | 0 => accept (true) (.mma (w / 64 % 2) (w / 2048 % 32) (w / 65536 % 32) (w / 2097152 % 32) (w / 67108864 % 4) (w / 268435456 % 4))
  | 1 => accept (w / 64 % 2 == 0) (.mma2 (w / 2048 % 32) (w / 65536 % 32) (w / 2097152 % 32) (w / 67108864 % 4) (w / 268435456 % 4))
  | _ => .error .undefinedFn

/-- Major 0x32: MZERO, MRD, MRDQ, MWR, MSTAT, MDRAW, MCONS. -/
def decodeMajor32 (w : Nat) : Except DecodeError Instr :=
  match w / 2097152 % 16 with
  | 0 => accept (w / 64 % 32 == 0 && w / 65536 % 32 == 0 && w / 67108864 % 16 == 0) (.mzero (w / 2048 % 32) (w / 33554432 % 2))
  | 1 => accept (w / 2048 % 32 == 0 && w / 268435456 % 4 == 0) (.mrd (w / 64 % 32) (w / 65536 % 32) (w / 33554432 % 2) (w / 67108864 % 4))
  | 2 => accept (w / 2048 % 32 == 0 && w / 268435456 % 4 == 0) (.mrdq (w / 64 % 32) (w / 65536 % 32) (w / 33554432 % 2) (w / 67108864 % 4))
  | 3 => accept (w / 64 % 32 == 0 && w / 67108864 % 16 == 3) (.mwr (w / 2048 % 32) (w / 65536 % 32) (w / 33554432 % 2))
  | 4 => accept (w / 2048 % 1024 == 0 && w / 67108864 % 16 == 0) (.mstat (w / 64 % 32) (w / 33554432 % 2))
  | 5 => accept (w / 33554432 % 32 == 0) (.mdraw (w / 64 % 32) (w / 2048 % 32) (w / 65536 % 32))
  | 6 => accept (w / 2048 % 1024 == 0 && w / 33554432 % 32 == 0) (.mcons (w / 64 % 32))
  | _ => .error .undefinedFn

/-- Major 0x33: RNGB, RNGM. -/
def decodeMajor33 (w : Nat) : Except DecodeError Instr :=
  match w / 2097152 % 512 with
  | 0 => accept (w / 65536 % 32 == 0) (.rngb (w / 64 % 32) (w / 2048 % 32))
  | 1 => accept (true) (.rngm (w / 64 % 32) (w / 2048 % 32) (w / 65536 % 32))
  | _ => .error .undefinedFn

/-- The row of the opcode map a payload names, by its major opcode (R55, R56). -/
def decodeFields (w : Nat) : Except DecodeError Instr :=
  match w % 64 with
  | 0 => decodeMajor00 w
  | 1 => decodeMajor01 w
  | 2 => decodeMajor02 w
  | 3 => decodeMajor03 w
  | 4 => decodeMajor04 w
  | 5 => decodeMajor05 w
  | 6 => decodeMajor06 w
  | 7 => decodeMajor07 w
  | 8 => decodeMajor08 w
  | 9 => decodeMajor09 w
  | 10 => decodeMajor0A w
  | 11 => decodeMajor0B w
  | 12 => decodeMajor0C w
  | 13 => decodeMajor0D w
  | 14 => decodeMajor0E w
  | 15 => decodeMajor0F w
  | 16 => decodeMajor10 w
  | 17 => decodeMajor11 w
  | 18 => decodeMajor12 w
  | 19 => decodeMajor13 w
  | 20 => decodeMajor14 w
  | 21 => decodeMajor15 w
  | 22 => decodeMajor16 w
  | 23 => decodeMajor17 w
  | 24 => decodeMajor18 w
  | 25 => decodeMajor19 w
  | 26 => decodeMajor1A w
  | 27 => decodeMajor1B w
  | 28 => decodeMajor1C w
  | 29 => decodeMajor1D w
  | 30 => decodeMajor1E w
  | 31 => decodeMajor1F w
  | 32 => decodeMajor20 w
  | 33 => decodeMajor21 w
  | 34 => decodeMajor22 w
  | 35 => decodeMajor23 w
  | 36 => decodeMajor24 w
  | 37 => decodeMajor25 w
  | 38 => decodeMajor26 w
  | 39 => decodeMajor27 w
  | 40 => decodeMajor28 w
  | 41 => decodeMajor29 w
  | 42 => decodeMajor2A w
  | 43 => decodeMajor2B w
  | 44 => decodeMajor2C w
  | 45 => decodeMajor2D w
  | 46 => decodeMajor2E w
  | 47 => decodeMajor2F w
  | 48 => decodeMajor30 w
  | 49 => decodeMajor31 w
  | 50 => decodeMajor32 w
  | 51 => decodeMajor33 w
  | _ => .error .undefinedMajor

/-- The instruction of a payload of 30 bits, or why it is none: the row of the opcode map, then the rules that narrow
its fields (R50, R57). -/
def decode (w : Nat) : Except DecodeError Instr :=
  match decodeFields w with
  | .error e => .error e
  | .ok i => if i.wf then .ok i else .error .badField

/-- The payload that encodes an instruction (R52 to R56); a row without an encoding has none and gives 0. -/
def encode : Instr → Nat
  | .nop => 0
  | .sleep n => 2097152 + 2048 * n
  | .trap n => 4194304 + 2048 * n
  | .eret => 6291456
  | .herd n => 8388608 + 2048 * n
  | .ifence => 10485760
  | .halt => 12582912
  | .srd d i => 1 + 64 * d + 65536 * i
  | .swr a i => 2 + 2048 * a + 65536 * i
  | .br o => 3 + 64 * fieldOf 24 o
  | .call o => 4 + 64 * fieldOf 24 o
  | .jr a => 5 + 2048 * a
  | .jrl d a => 2097157 + 64 * d + 2048 * a
  | .beq a b o => 6 + 64 * a + 2048 * b + 65536 * fieldOf 14 o
  | .bne a b o => 7 + 64 * a + 2048 * b + 65536 * fieldOf 14 o
  | .blt a b o => 8 + 64 * a + 2048 * b + 65536 * fieldOf 14 o
  | .bge a b o => 9 + 64 * a + 2048 * b + 65536 * fieldOf 14 o
  | .bltn a b o => 10 + 64 * a + 2048 * b + 65536 * fieldOf 14 o
  | .bgen a b o => 11 + 64 * a + 2048 * b + 65536 * fieldOf 14 o
  | .loop a o => 12 + 64 * a + 65536 * fieldOf 14 o
  | .ld d b z o => 13 + 64 * d + 2048 * b + 65536 * z + 524288 * fieldOf 11 o
  | .ldSigned d b z o => 262157 + 64 * d + 2048 * b + 65536 * z + 524288 * fieldOf 11 o
  | .st d b z o => 14 + 64 * d + 2048 * b + 65536 * z + 524288 * fieldOf 11 o
  | .fld d b z o => 131087 + 64 * d + 2048 * b + 65536 * z + 524288 * fieldOf 11 o
  | .fst d b z o => 393231 + 64 * d + 2048 * b + 65536 * z + 524288 * fieldOf 11 o
  | .vld d b o => 16 + 64 * d + 2048 * b + 524288 * fieldOf 11 o
  | .vst d b o => 65552 + 64 * d + 2048 * b + 524288 * fieldOf 11 o
  | .vlds d a b k => 17 + 64 * d + 2048 * a + 65536 * b + 33554432 * k
  | .vsts d a b k => 2097169 + 64 * d + 2048 * a + 65536 * b + 33554432 * k
  | .tldx d a b k => 4194321 + 64 * d + 2048 * a + 65536 * b + 33554432 * k
  | .vstm d a k => 6291473 + 64 * d + 2048 * a + 33554432 * k
  | .vgatherW d a b c h => 18 + 64 * d + 2048 * a + 65536 * b + 2097152 * c + 536870912 * h
  | .vgatherD d a b c h => 67108882 + 64 * d + 2048 * a + 65536 * b + 2097152 * c + 536870912 * h
  | .vscatterW d a b c h => 134217746 + 64 * d + 2048 * a + 65536 * b + 2097152 * c + 536870912 * h
  | .vscatterD d a b c h => 201326610 + 64 * d + 2048 * a + 65536 * b + 2097152 * c + 536870912 * h
  | .amo d a b o z s r => 19 + 64 * d + 2048 * a + 65536 * b + 2097152 * o + 33554432 * z + 67108864 * s + 536870912 * r
  | .casW d a b s => 20 + 64 * d + 2048 * a + 65536 * b + 2097152 * s
  | .casD d a b s => 67108884 + 64 * d + 2048 * a + 65536 * b + 2097152 * s
  | .cas2D d a b s => 134217748 + 64 * d + 2048 * a + 65536 * b + 2097152 * s
  | .ldaq d a s z => 21 + 64 * d + 2048 * a + 16777216 * s + 134217728 * z
  | .strl a b s z => 2097173 + 2048 * a + 65536 * b + 16777216 * s + 134217728 * z
  | .fenceAcq s => 4194325 + 16777216 * s
  | .fenceRel s => 6291477 + 16777216 * s
  | .fenceAr s => 8388629 + 16777216 * s
  | .red a b o z s r => 22 + 2048 * a + 65536 * b + 2097152 * o + 33554432 * z + 67108864 * s + 536870912 * r
  | .nmcas4 d a b => 23 + 64 * d + 2048 * a + 65536 * b
  | .nmenq d a b => 67108887 + 64 * d + 2048 * a + 65536 * b
  | .nmchase d a b => 134217751 + 64 * d + 2048 * a + 65536 * b
  | .tmov d a => 24 + 64 * d + 2048 * a
  | .tmovp d a => 2097176 + 64 * d + 2048 * a
  | .bgath d a => 4194328 + 64 * d + 2048 * a
  | .pgin d a => 6291480 + 64 * d + 2048 * a
  | .fork a b => 8388632 + 2048 * a + 65536 * b
  | .join d => 10485784 + 64 * d
  | .twait a => 12582936 + 2048 * a
  | .dcons d => 14680088 + 64 * d
  | .qbind d a => 25 + 64 * d + 2048 * a
  | .qunbind d => 2097177 + 64 * d
  | .vpop d a => 4194329 + 64 * d + 2048 * a
  | .spop d a => 6291481 + 64 * d + 2048 * a
  | .qstat d a => 8388633 + 64 * d + 2048 * a
  | .send d a b c => 26 + 64 * d + 2048 * a + 65536 * b + 2097152 * c
  | .sends d a b c => 67108890 + 64 * d + 2048 * a + 65536 * b + 2097152 * c
  | .tagen a => 27 + 2048 * a
  | .tagdis a => 2097179 + 2048 * a
  | .tagpnd a => 4194331 + 2048 * a
  | .tagclr a => 6291483 + 2048 * a
  | .tagrd d a => 8388635 + 64 * d + 2048 * a
  | .spawn a => 28 + 2048 * a
  | .suspend a => 2097180 + 2048 * a
  | .yield => 4194332
  | .endTask => 6291484
  | .waitw a b => 8388636 + 2048 * a + 65536 * b
  | .depset a b => 10485788 + 2048 * a + 65536 * b
  | .depdec a => 12582940 + 2048 * a
  | .resume a => 14680092 + 2048 * a
  | .callc d o => 29 + 64 * d + 2048 * fieldOf 19 o
  | .ecollect d a b => 30 + 64 * d + 2048 * a + 65536 * b
  | .eclose d => 2097182 + 64 * d
  | .cret => 4194334
  | .ecat d a b => 6291486 + 64 * d + 2048 * a + 65536 * b
  | .efilt d a b => 8388638 + 64 * d + 2048 * a + 65536 * b
  | .efiltx d a b => 10485790 + 64 * d + 2048 * a + 65536 * b
  | .erebase d a b => 12582942 + 64 * d + 2048 * a + 65536 * b
  | .eapply a s i r => 14680094 + 2048 * a + 33554432 * s + 268435456 * i + 536870912 * r
  | .edrop a => 16777246 + 2048 * a
  | .elen d a k => 18874398 + 64 * d + 2048 * a + 65536 * k
  | .egrow a b => 20971550 + 2048 * a + 65536 * b
  | .etrunc a b => 23068702 + 2048 * a + 65536 * b
  | .evbegin a b s => 31 + 2048 * a + 65536 * b + 67108864 * s
  | .evend s => 2097183 + 67108864 * s
  | .rollback d a b s => 4194335 + 64 * d + 2048 * a + 65536 * b + 67108864 * s
  | .commit a b s => 6291487 + 2048 * a + 65536 * b + 67108864 * s
  | .floorw b => 8388639 + 65536 * b
  | .lqry d a => 10485791 + 64 * d + 2048 * a
  | .tlbi a b s => 16777247 + 2048 * a + 65536 * b + 67108864 * s
  | .agist a => 18874399 + 2048 * a
  | .muster a => 20971551 + 2048 * a
  | .pgmig a b => 23068703 + 2048 * a + 65536 * b
  | .add d a b => 32 + 64 * d + 2048 * a + 65536 * b
  | .sub d a b => 2097184 + 64 * d + 2048 * a + 65536 * b
  | .and d a b => 4194336 + 64 * d + 2048 * a + 65536 * b
  | .or d a b => 6291488 + 64 * d + 2048 * a + 65536 * b
  | .xor d a b => 8388640 + 64 * d + 2048 * a + 65536 * b
  | .andn d a b => 10485792 + 64 * d + 2048 * a + 65536 * b
  | .orn d a b => 12582944 + 64 * d + 2048 * a + 65536 * b
  | .xnor d a b => 14680096 + 64 * d + 2048 * a + 65536 * b
  | .shl d a b => 16777248 + 64 * d + 2048 * a + 65536 * b
  | .shr d a b => 18874400 + 64 * d + 2048 * a + 65536 * b
  | .sar d a b => 20971552 + 64 * d + 2048 * a + 65536 * b
  | .rol d a b => 23068704 + 64 * d + 2048 * a + 65536 * b
  | .ror d a b => 25165856 + 64 * d + 2048 * a + 65536 * b
  | .slt d a b => 27263008 + 64 * d + 2048 * a + 65536 * b
  | .sltn d a b => 29360160 + 64 * d + 2048 * a + 65536 * b
  | .min d a b => 31457312 + 64 * d + 2048 * a + 65536 * b
  | .max d a b => 33554464 + 64 * d + 2048 * a + 65536 * b
  | .minn d a b => 35651616 + 64 * d + 2048 * a + 65536 * b
  | .maxn d a b => 37748768 + 64 * d + 2048 * a + 65536 * b
  | .mul d a b => 39845920 + 64 * d + 2048 * a + 65536 * b
  | .mulh d a b => 41943072 + 64 * d + 2048 * a + 65536 * b
  | .mulhn d a b => 44040224 + 64 * d + 2048 * a + 65536 * b
  | .div d a b => 46137376 + 64 * d + 2048 * a + 65536 * b
  | .divn d a b => 48234528 + 64 * d + 2048 * a + 65536 * b
  | .rem d a b => 50331680 + 64 * d + 2048 * a + 65536 * b
  | .remn d a b => 52428832 + 64 * d + 2048 * a + 65536 * b
  | .clz d a => 54525984 + 64 * d + 2048 * a
  | .ctz d a => 56623136 + 64 * d + 2048 * a
  | .popc d a => 58720288 + 64 * d + 2048 * a
  | .sextw d a => 60817440 + 64 * d + 2048 * a
  | .zextw d a => 62914592 + 64 * d + 2048 * a
  | .brev8 d a => 65011744 + 64 * d + 2048 * a
  | .addi d a i => 33 + 64 * d + 2048 * a + 65536 * fieldOf 14 i
  | .li d i => 34 + 64 * d + 2048 * fieldOf 19 i
  | .lis d i => 35 + 64 * d + 2048 * i
  | .addk d a k => 36 + 64 * d + 2048 * a + 65536 * k
  | .subk d a k => 16777252 + 64 * d + 2048 * a + 65536 * k
  | .andk d a k => 33554468 + 64 * d + 2048 * a + 65536 * k
  | .ork d a k => 50331684 + 64 * d + 2048 * a + 65536 * k
  | .xork d a k => 67108900 + 64 * d + 2048 * a + 65536 * k
  | .mulk d a k => 83886116 + 64 * d + 2048 * a + 65536 * k
  | .sltk d a k => 100663332 + 64 * d + 2048 * a + 65536 * k
  | .mink d a k => 117440548 + 64 * d + 2048 * a + 65536 * k
  | .maxk d a k => 134217764 + 64 * d + 2048 * a + 65536 * k
  | .movk d k => 150994980 + 64 * d + 65536 * k
  | .shli d a n => 37 + 64 * d + 2048 * a + 65536 * (n % 32) + 2097152 * (n / 32)
  | .shri d a n => 4194341 + 64 * d + 2048 * a + 65536 * (n % 32) + 2097152 * (n / 32)
  | .sari d a n => 8388645 + 64 * d + 2048 * a + 65536 * (n % 32) + 2097152 * (n / 32)
  | .rori d a n => 12582949 + 64 * d + 2048 * a + 65536 * (n % 32) + 2097152 * (n / 32)
  | .extr d a p e => 38 + 64 * d + 2048 * a + 65536 * p + 4194304 * e
  | .extrs d a p e => 268435494 + 64 * d + 2048 * a + 65536 * p + 4194304 * e
  | .insr d a p e => 536870950 + 64 * d + 2048 * a + 65536 * p + 4194304 * e
  | .fadd d a b p => 39 + 64 * d + 2048 * a + 65536 * b + 2097152 * p
  | .fsub d a b p => 4194343 + 64 * d + 2048 * a + 65536 * b + 2097152 * p
  | .fmul d a b p => 8388647 + 64 * d + 2048 * a + 65536 * b + 2097152 * p
  | .fdiv d a b p => 12582951 + 64 * d + 2048 * a + 65536 * b + 2097152 * p
  | .fsqrt d a p => 16777255 + 64 * d + 2048 * a + 2097152 * p
  | .fmin d a b p => 20971559 + 64 * d + 2048 * a + 65536 * b + 2097152 * p
  | .fmax d a b p => 25165863 + 64 * d + 2048 * a + 65536 * b + 2097152 * p
  | .fneg d a p => 29360167 + 64 * d + 2048 * a + 2097152 * p
  | .fabs d a p => 33554471 + 64 * d + 2048 * a + 2097152 * p
  | .feq d a b p => 37748775 + 64 * d + 2048 * a + 65536 * b + 2097152 * p
  | .flt d a b p => 41943079 + 64 * d + 2048 * a + 65536 * b + 2097152 * p
  | .fle d a b p => 46137383 + 64 * d + 2048 * a + 65536 * b + 2097152 * p
  | .fcvtS d a r => 50331687 + 64 * d + 2048 * a + 134217728 * r
  | .fcvtD d a => 52428839 + 64 * d + 2048 * a
  | .fcvti d a p r => 54525991 + 64 * d + 2048 * a + 2097152 * p + 134217728 * r
  | .fcvtin d a p r => 591396903 + 64 * d + 2048 * a + 2097152 * p + 134217728 * r
  | .ficvt d a p r => 58720295 + 64 * d + 2048 * a + 2097152 * p + 134217728 * r
  | .ficvtn d a p r => 595591207 + 64 * d + 2048 * a + 2097152 * p + 134217728 * r
  | .fmvfs d a p => 62914599 + 64 * d + 2048 * a + 2097152 * p
  | .fmvsf d a p => 67108903 + 64 * d + 2048 * a + 2097152 * p
  | .fclass d a p => 71303207 + 64 * d + 2048 * a + 2097152 * p
  | .ffma d a b c p => 40 + 64 * d + 2048 * a + 65536 * b + 2097152 * c + 67108864 * p
  | .ffms d a b c p => 134217768 + 64 * d + 2048 * a + 65536 * b + 2097152 * c + 67108864 * p
  | .fnma d a b c p => 268435496 + 64 * d + 2048 * a + 65536 * b + 2097152 * c + 67108864 * p
  | .fnms d a b c p => 402653224 + 64 * d + 2048 * a + 65536 * b + 2097152 * c + 67108864 * p
  | .vadd d a b w => 41 + 64 * d + 2048 * a + 65536 * b + 2097152 * w
  | .vsub d a b w => 8388649 + 64 * d + 2048 * a + 65536 * b + 2097152 * w
  | .vmul d a b w => 16777257 + 64 * d + 2048 * a + 65536 * b + 2097152 * w
  | .vmulh d a b w => 25165865 + 64 * d + 2048 * a + 65536 * b + 2097152 * w
  | .vand d a b w => 33554473 + 64 * d + 2048 * a + 65536 * b + 2097152 * w
  | .vor d a b w => 41943081 + 64 * d + 2048 * a + 65536 * b + 2097152 * w
  | .vxor d a b w => 50331689 + 64 * d + 2048 * a + 65536 * b + 2097152 * w
  | .vshl d a b w => 58720297 + 64 * d + 2048 * a + 65536 * b + 2097152 * w
  | .vshr d a b w => 67108905 + 64 * d + 2048 * a + 65536 * b + 2097152 * w
  | .vsar d a b w => 75497513 + 64 * d + 2048 * a + 65536 * b + 2097152 * w
  | .vmin d a b w => 83886121 + 64 * d + 2048 * a + 65536 * b + 2097152 * w
  | .vmax d a b w => 92274729 + 64 * d + 2048 * a + 65536 * b + 2097152 * w
  | .vminn d a b w => 100663337 + 64 * d + 2048 * a + 65536 * b + 2097152 * w
  | .vmaxn d a b w => 109051945 + 64 * d + 2048 * a + 65536 * b + 2097152 * w
  | .vabs d a w => 117440553 + 64 * d + 2048 * a + 2097152 * w
  | .vfadd d a b t => 42 + 64 * d + 2048 * a + 65536 * b + 2097152 * t
  | .vfsub d a b t => 8388650 + 64 * d + 2048 * a + 65536 * b + 2097152 * t
  | .vfmul d a b t => 16777258 + 64 * d + 2048 * a + 65536 * b + 2097152 * t
  | .vfmax d a b t => 25165866 + 64 * d + 2048 * a + 65536 * b + 2097152 * t
  | .vfmin d a b t => 33554474 + 64 * d + 2048 * a + 65536 * b + 2097152 * t
  | .vfabs d a t => 41943082 + 64 * d + 2048 * a + 2097152 * t
  | .vfneg d a t => 50331690 + 64 * d + 2048 * a + 2097152 * t
  | .vfma d a b c t => 43 + 64 * d + 2048 * a + 65536 * b + 2097152 * c + 67108864 * t
  | .vfms d a b c t => 268435499 + 64 * d + 2048 * a + 65536 * b + 2097152 * c + 67108864 * t
  | .vfmas d a b c t => 536870955 + 64 * d + 2048 * a + 65536 * b + 2097152 * c + 67108864 * t
  | .vsel d a b c t => 805306411 + 64 * d + 2048 * a + 65536 * b + 2097152 * c + 67108864 * t
  | .vexp2 d a f => 44 + 64 * d + 2048 * a + 67108864 * f
  | .vlog2 d a f => 2097196 + 64 * d + 2048 * a + 67108864 * f
  | .vrcp d a f => 4194348 + 64 * d + 2048 * a + 67108864 * f
  | .vrsq d a f => 6291500 + 64 * d + 2048 * a + 67108864 * f
  | .vsqrt d a f => 8388652 + 64 * d + 2048 * a + 67108864 * f
  | .vcvt d a f t => 10485804 + 64 * d + 2048 * a + 67108864 * f + 268435456 * t
  | .vqblk d a t => 12582956 + 64 * d + 2048 * a + 268435456 * t
  | .vdqblk d a t => 14680108 + 64 * d + 2048 * a + 268435456 * t
  | .vplane d a t => 16777260 + 64 * d + 2048 * a + 268435456 * t
  | .vtrip d a => 18874412 + 64 * d + 2048 * a
  | .vtriu d a => 20971564 + 64 * d + 2048 * a
  | .vredsum d a w x => 45 + 64 * d + 2048 * a + 67108864 * w + 268435456 * x
  | .vredmax d a w x => 2097197 + 64 * d + 2048 * a + 67108864 * w + 268435456 * x
  | .vredmin d a w x => 4194349 + 64 * d + 2048 * a + 67108864 * w + 268435456 * x
  | .vscan d a w x => 6291501 + 64 * d + 2048 * a + 67108864 * w + 268435456 * x
  | .vshuf d a b w => 8388653 + 64 * d + 2048 * a + 65536 * b + 67108864 * w
  | .vbcast d a w x => 10485805 + 64 * d + 2048 * a + 67108864 * w + 268435456 * x
  | .vextr d a b w x => 12582957 + 64 * d + 2048 * a + 65536 * b + 67108864 * w + 268435456 * x
  | .vins d a b w x => 14680109 + 64 * d + 2048 * a + 65536 * b + 67108864 * w + 268435456 * x
  | .vslup d a b w => 16777261 + 64 * d + 2048 * a + 65536 * b + 67108864 * w
  | .vsldn d a b w => 18874413 + 64 * d + 2048 * a + 65536 * b + 67108864 * w
  | .viota d a w => 20971565 + 64 * d + 2048 * a + 67108864 * w
  | .vcmp d a b c t f => 46 + 64 * d + 2048 * a + 65536 * b + 2097152 * c + 33554432 * t + 134217728 * f
  | .mand d a b => 47 + 64 * d + 2048 * a + 65536 * b
  | .mor d a b => 2097199 + 64 * d + 2048 * a + 65536 * b
  | .mxor d a b => 4194351 + 64 * d + 2048 * a + 65536 * b
  | .mnot d a => 6291503 + 64 * d + 2048 * a
  | .mpop d a => 8388655 + 64 * d + 2048 * a
  | .mfirst d a => 10485807 + 64 * d + 2048 * a
  | .mset d a b => 12582959 + 64 * d + 2048 * a + 65536 * b
  | .mget d a h => 14680111 + 64 * d + 2048 * a + 65536 * h
  | .vrange d a b => 16777263 + 64 * d + 2048 * a + 65536 * b
  | .sminit d a => 48 + 64 * d + 2048 * a
  | .smupd d a => 2097200 + 64 * d + 2048 * a
  | .smerge d a b => 4194352 + 64 * d + 2048 * a + 65536 * b
  | .smout d a => 6291504 + 64 * d + 2048 * a
  | .mma t a b c y x => 49 + 64 * t + 2048 * a + 65536 * b + 2097152 * c + 67108864 * y + 268435456 * x
  | .mma2 a b c y x => 177 + 2048 * a + 65536 * b + 2097152 * c + 67108864 * y + 268435456 * x
  | .mzero a t => 50 + 2048 * a + 33554432 * t
  | .mrd d b t g => 2097202 + 64 * d + 65536 * b + 33554432 * t + 67108864 * g
  | .mrdq d b t g => 4194354 + 64 * d + 65536 * b + 33554432 * t + 67108864 * g
  | .mwr a b t => 207618098 + 2048 * a + 65536 * b + 33554432 * t
  | .mstat d t => 8388658 + 64 * d + 33554432 * t
  | .mdraw d a b => 10485810 + 64 * d + 2048 * a + 65536 * b
  | .mcons d => 12582962 + 64 * d
  | .rngb d a => 51 + 64 * d + 2048 * a
  | .rngm d a b => 2097203 + 64 * d + 2048 * a + 65536 * b
  | .coreIssue => 0
  | .strandAged => 0
  | .fetchBlockDeliver => 0
  | .icacheMissFill => 0
  | .herdRelease => 0
  | .herdTimeout => 0
  | .longResultReturn => 0
  | .continuationPickup => 0
  | .recordPoolSlotFree => 0
  | .localMemArbitration => 0
  | .clusterSpadArbitration => 0
  | .dieSpadSliceGrant => 0
  | .tileMoveStart => 0
  | .tileMoveRow => 0
  | .tileMoveComplete => 0
  | .droverProgramFault => 0
  | .streamElementArrive => 0
  | .atomicExecute => 0
  | .nearMemoryExecute => 0
  | .storeAsyncFailure => 0
  | .tableWalk => 0
  | .migrationEpochEnd => 0
  | .pageMoveCopy => 0
  | .pageMoveDrain => 0
  | .pageMoveSwitch => 0
  | .pageMoveResume => 0
  | .pageMoveAbandon => 0
  | .leasePageClean => 0
  | .musterNoticeArrive => 0
  | .leasePageRemap => 0
  | .musterDoneReceived => 0
  | .zeroFillDone => 0
  | .musterWindowExpire => 0
  | .borrowerHubRestored => 0
  | .lenderLost => 0
  | .agistTakeRequest => 0
  | .flushMarkerArrive => 0
  | .flushAckReturn => 0
  | .mcgGenerationRetire => 0
  | .messageArrive => 0
  | .antiMessageArrive => 0
  | .messageDepart => 0
  | .messageDeliver => 0
  | .messageAged => 0
  | .workSteal => 0
  | .hangDetect => 0
  | .floorRoundStart => 0
  | .floorReportRepeat => 0
  | .floorRoundEnd => 0
  | .sleepExpire => 0
  | .waitwTrigger => 0
  | .waitwPoll => 0
  | .mmaOperandsConsumed => 0
  | .mmaFinish => 0
  | .doorbellWrite => 0
  | .packetLaunch => 0
  | .packetCopy => 0
  | .copyLine => 0
  | .packetBarrier => 0
  | .barrierSignalRead => 0
  | .packetSignal => 0
  | .packetNop => 0
  | .launchSlotAcquire => 0
  | .societyRegister => 0
  | .leaseResidency => 0
  | .proxyReserve => 0
  | .flockPlace => 0
  | .placeAged => 0
  | .flockEnd => 0
  | .launchDone => 0
  | .queueReset => 0
  | .evbaseWrite => 0
  | .partctlWrite => 0
  | .partitionTick => 0
  | .drainTimeout => 0
  | .clusterDrained => 0
  | .preemptRequest => 0
  | .launchStateSave => 0
  | .flockSaved => 0
  | .flockRestore => 0
  | .trapEntry => 0
  | .launchAbort => 0
  | .flitReplay => 0
  | .linkDegrade => 0
  | .linkRetrain => 0
  | .keepaliveSend => 0
  | .keepaliveTimeout => 0
  | .recoveryFence => 0
  | .recoveryReconfigure => 0
  | .recoveryRestore => 0
  | .circuitChange => 0
  | .paddockWrite => 0
  | .hostWrite => 0
  | .hostRead => 0
  | .registerWrite => 0
  | .mcgsyncWrite => 0
  | .tagRegisterWrite => 0
  | .tstatusWrite => 0
  | .asidWrite => 0
  | .floorintWrite => 0
  | .powerOn => 0
  | .firmwareUpdate => 0
  | .readErrorLog => 0
  | .readSensors => 0
  | .setPowerCap => 0
  | .notifyHost => 0
  | .getMeasurements => 0
  | .dieReset => 0
  | .packageReset => 0
  | .powerThrottle => 0
  | .issueGating => 0
  | .powerRecover => 0
  | .storePerformsAtHome => 0
  | .lenderAnswerTimeout => 0

/-- The fixed bits that a major leaves to word 0's L and M, or to zero in word 1, are no part of the payload (R43). -/
def payload (word : Nat) : Nat := word % 1073741824

/-- The instruction the decoder reads from a word of the opcode table: its bits [29:0]. -/
def decodeTableWord (nbits w : Nat) : Option Instr :=
  match decode (payload (w % 2 ^ nbits)) with
  | .ok i => some i
  | .error _ => none

end Sys2Proof
end

