-- ==== Sys2Proof/Config.lean ====
section
/-!
DEFINITION. What the specification leaves open, as a constant without a body: no proof can see its values, so a statement
about the machine holds for every choice of them. Log 4 names each use.
-/

namespace Sys2Proof.Config

/-- A value that the specification does not state, fresh at each use: `n` counts the uses (log 4). -/
opaque freeWord : Nat → Word

/-- The hash of a source package and a line that chooses a path plane, and that of a pair of packages which chooses a link
of a plane (R266, R430): `kind` 0 and 1. -/
opaque pathHash : (kind a b : Nat) → Nat

end Sys2Proof.Config
end

