-- ==== Sys2Proof/Machine/Bits.lean ====
section
/-!
DEFINITION. Bit fields, sign extension, lanes and byte strings, on natural numbers, so that every width is handled by
the same functions (R23, R43, R53).
-/

namespace Sys2Proof

/-- `n` bits of `x` from bit `lo`. -/
def bits (x lo n : Nat) : Nat := (x >>> lo) % 2 ^ n

/-- Bit `i` of `x`. -/
def bit (x i : Nat) : Bool := Nat.testBit x i

/-- A truth value as the number 0 or 1. -/
def bool1 (b : Bool) : Nat := if b then 1 else 0

/-- The low `w` bits of `x` read as two's complement. -/
def toSigned (w x : Nat) : Int :=
  (((x % 2 ^ w + 2 ^ (w - 1)) % 2 ^ w : Nat) : Int) - ((2 ^ (w - 1) : Nat) : Int)

/-- An integer wrapped to `w` bits. -/
def wrap (w : Nat) (i : Int) : Nat := (i % ((2 ^ w : Nat) : Int)).toNat

/-- Sign extension from `w` bits to 64. -/
def sext64 (w x : Nat) : Nat := wrap 64 (toSigned w x)

/-- `x` with `n` bits from bit `lo` replaced by the low bits of `y`. -/
def setBits (x lo n y : Nat) : Nat :=
  x % 2 ^ lo + (y % 2 ^ n) * 2 ^ lo + (x >>> (lo + n)) * 2 ^ (lo + n)

/-- The number of one bits among the low `n` bits. -/
def popcount : Nat → Nat → Nat
  | 0, _ => 0
  | n + 1, x => x % 2 + popcount n (x / 2)

/-- The least index below `n` of a one bit, or `n`. -/
def lowestSet : Nat → Nat → Nat
  | 0, _ => 0
  | n + 1, x => if x % 2 = 1 then 0 else lowestSet n (x / 2) + 1

/-- The significant bits of `x`: 0 for 0, else one more than the index of its highest one bit. -/
def bitLength (x : Nat) : Nat := if x = 0 then 0 else Nat.log2 x + 1

/-- The low `n` bits of `x` in reverse order. -/
def reverseBits : Nat → Nat → Nat
  | 0, _ => 0
  | n + 1, x => (x % 2) * 2 ^ n + reverseBits n (x / 2)

/-- `count` fields of `w` bits, from bit 0 up, as a list. -/
def splitLanes (w : Nat) : Nat → Nat → List Nat
  | 0, _ => []
  | n + 1, x => x % 2 ^ w :: splitLanes w n (x / 2 ^ w)

/-- Fields of `w` bits placed from bit 0 up. -/
def joinLanes (w : Nat) : List Nat → Nat
  | [] => 0
  | x :: t => x % 2 ^ w + 2 ^ w * joinLanes w t

/-- The first `n` bytes of `x`, the lowest first (R43: little-endian). -/
def bytesOf (n x : Nat) : List Nat := splitLanes 8 n x

/-- The number whose bytes, the lowest first, are `l`. -/
def ofBytes (l : List Nat) : Nat := joinLanes 8 l

/-- The lanes of width `w` of a vector register (R23). -/
def lanes (w : Nat) (v : VReg) : List Nat := splitLanes w (1024 / w) v.toNat

/-- A vector register from its lanes of width `w`; lanes not given are zero. -/
def ofLanes (w : Nat) (l : List Nat) : VReg := BitVec.ofNat 1024 (joinLanes w l)

/-- The bits of `l` from bit 0 up as a number: a mask from its truth values. -/
def ofBools (l : List Bool) : Nat := joinLanes 1 (l.map bool1)

/-- Element `i` of a list, or 0. -/
def nth (l : List Nat) (i : Nat) : Nat := l.getD i 0

/-- The list with element `i` replaced. -/
def setNth {α : Type} (l : List α) (i : Nat) (x : α) : List α := l.set i x

/-- The first `n` natural numbers, counted up from `k`. -/
def upFrom (k : Nat) : Nat → List Nat
  | 0 => []
  | n + 1 => k :: upFrom (k + 1) n

/-- The exclusive or of a list. -/
def xorAll (l : List Nat) : Nat := l.foldl (fun a b => a ^^^ b) 0

/-- An element put into a list in order, after its equals. -/
def insertBy {α : Type} (le : α → α → Bool) (x : α) : List α → List α
  | [] => [x]
  | y :: t => if le y x then y :: insertBy le x t else x :: y :: t

/-- A list in order, equals as they stood. -/
def sortBy {α : Type} (le : α → α → Bool) (l : List α) : List α := l.foldl (fun s x => insertBy le x s) []

/-- Rounds a number up to a multiple of `n`, in units of `n`. -/
def ceilDiv (x n : Nat) : Nat := (x + n - 1) / n

end Sys2Proof
end

