-- ==== Sys2Proof/Machine/Float.lean ====
section
/-!
DEFINITION. IEEE 754 arithmetic on bit patterns (R81 to R89, R178 to R180). A finite value is an exact magnitude
`m * 2 ^ e`; an operation computes the exact result, or its leading bits with a sticky bit, and rounds once.
-/

namespace Sys2Proof

/-- A floating-point format: its exponent and fraction widths (R178). -/
structure Fmt where
  eb : Nat
  fb : Nat
deriving DecidableEq, Repr

namespace Fmt

/-- binary64 -/
def f64 : Fmt := ⟨11, 52⟩
/-- binary32 -/
def f32 : Fmt := ⟨8, 23⟩
/-- binary16 -/
def f16 : Fmt := ⟨5, 10⟩
/-- bfloat16: the exponent of FP32 and 7 fraction bits. -/
def bf16 : Fmt := ⟨8, 7⟩

/-- The exponent bias. -/
def bias (F : Fmt) : Nat := 2 ^ (F.eb - 1) - 1
/-- The width of the format. -/
def width (F : Fmt) : Nat := 1 + F.eb + F.fb
/-- The exponent field of infinities and NaNs. -/
def top (F : Fmt) : Nat := 2 ^ F.eb - 1
/-- The canonical quiet NaN (R178). -/
def qnan (F : Fmt) : Nat := F.top * 2 ^ F.fb + 2 ^ (F.fb - 1)
/-- The sign bit of a pattern set or clear. -/
def sign (F : Fmt) (neg : Bool) : Nat := if neg then 2 ^ (F.eb + F.fb) else 0
/-- An infinity. -/
def inf (F : Fmt) (neg : Bool) : Nat := F.sign neg + F.top * 2 ^ F.fb
/-- The largest finite value of a sign. -/
def maxFinite (F : Fmt) (neg : Bool) : Nat := F.sign neg + F.top * 2 ^ F.fb - 1
/-- The pattern of 1.0. -/
def one (F : Fmt) : Nat := F.bias * 2 ^ F.fb

end Fmt

/-- The precision suffix of a scalar instruction: 0 is .s, otherwise .d (R84). -/
def fmtOf (p : Nat) : Fmt := if p = 0 then Fmt.f32 else Fmt.f64

/-- The lane format of a vector instruction: 0 .f32, 1 .bf16, 2 .f16 (R195). -/
def laneFmt (t : Nat) : Fmt := if t = 0 then Fmt.f32 else if t = 1 then Fmt.bf16 else Fmt.f16

/-- The five flags of FFLAGS (R82), as their bits. -/
def flagNV : Nat := 1
def flagDZ : Nat := 2
def flagOF : Nat := 4
def flagUF : Nat := 8
def flagNX : Nat := 16

/-- Rounding modes (R81). -/
inductive RMode where
  | rne | rtz | rup | rdn
deriving DecidableEq, Repr

/-- The coding of the modes (R81). -/
def RMode.ofCode (n : Nat) : RMode :=
  match n % 4 with
  | 0 => .rne
  | 1 => .rtz
  | 2 => .rup
  | _ => .rdn

/-- A pattern taken apart. -/
inductive FVal where
  /-- A NaN, signalling or quiet. -/
  | nan (signalling : Bool)
  /-- An infinity. -/
  | inf (neg : Bool)
  /-- A finite value `± m * 2 ^ e`; `m = 0` is a zero. -/
  | fin (neg : Bool) (m : Nat) (e : Int)
deriving DecidableEq, Repr

/-- The value of a pattern. -/
def unpack (F : Fmt) (x : Nat) : FVal :=
  let neg := bit x (F.eb + F.fb)
  let ex := bits x F.fb F.eb
  let fr := x % 2 ^ F.fb
  if ex = F.top then
    if fr = 0 then .inf neg else .nan (!bit x (F.fb - 1))
  else if ex = 0 then .fin neg fr (1 - (F.bias : Int) - F.fb)
  else .fin neg (2 ^ F.fb + fr) ((ex : Int) - F.bias - F.fb)

/-- A magnitude `m * 2 ^ e`, plus less than one unit of `m` when `sticky`, as a whole number of units `2 ^ q`, rounded
by the mode, and whether the rounding changed it. -/
def roundUnits (mode : RMode) (neg : Bool) (m : Nat) (e : Int) (sticky : Bool) (q : Int) : Nat × Bool :=
  if q ≤ e then (m * 2 ^ (e - q).toNat, sticky)
  else
    let sh := (q - e).toNat
    let n := m / 2 ^ sh
    let r := m % 2 ^ sh
    let half := 2 ^ (sh - 1)
    let inexact := r != 0 || sticky
    let up := match mode with
      | .rne => decide (half < r) || (r == half && (sticky || n % 2 == 1))
      | .rtz => false
      | .rup => inexact && !neg
      | .rdn => inexact && neg
    (if up then n + 1 else n, inexact)

/-- The pattern and the flags of a magnitude rounded once to a format (R83): tininess is detected after rounding, and
UF is raised only when the result is also inexact. -/
def roundPack (F : Fmt) (mode : RMode) (neg : Bool) (m : Nat) (e : Int) (sticky : Bool) : Nat × Nat :=
  if m = 0 ∧ sticky = false then (F.sign neg, 0)
  else
    let E : Int := (Nat.log2 m : Int) + e
    let emin : Int := 1 - (F.bias : Int)
    let q : Int := max (E - F.fb) (emin - F.fb)
    let (n, inexact) := roundUnits mode neg m e sticky q
    let (nu, _) := roundUnits mode neg m e sticky (E - F.fb)
    let tiny := decide (E < emin) && !(decide (E = emin - 1) && decide (nu = 2 ^ (F.fb + 1)))
    if n = 0 then (F.sign neg, if inexact then flagNX + flagUF else 0)
    else
      let E' : Int := (Nat.log2 n : Int) + q
      if (F.bias : Int) < E' then
        let big := match mode with
          | .rne => true
          | .rtz => false
          | .rup => !neg
          | .rdn => neg
        (if big then F.inf neg else F.maxFinite neg, flagOF + flagNX)
      else
        let fl := if inexact then flagNX + (if tiny then flagUF else 0) else 0
        if n < 2 ^ F.fb then (F.sign neg + n, fl)
        else
          let fr := if n < 2 ^ (F.fb + 1) then n - 2 ^ F.fb else 0
          (F.sign neg + (E' + F.bias).toNat * 2 ^ F.fb + fr, fl)

/-- NV when an operand is a signalling NaN. -/
def snanFlag (l : List FVal) : Nat :=
  if l.any (fun v => v == .nan true) then flagNV else 0

/-- The exact sum `± m₁ * 2 ^ e₁ ± m₂ * 2 ^ e₂` as a signed integer and its exponent. -/
def exactSum (n₁ : Bool) (m₁ : Nat) (e₁ : Int) (n₂ : Bool) (m₂ : Nat) (e₂ : Int) : Int × Int :=
  let e := min e₁ e₂
  let a : Int := (m₁ * 2 ^ (e₁ - e).toNat : Nat)
  let b : Int := (m₂ * 2 ^ (e₂ - e).toNat : Nat)
  ((if n₁ then -a else a) + (if n₂ then -b else b), e)

/-- The rounded sum of two finite values; an exact zero takes the sign IEEE 754 prescribes (R89). -/
def addFinite (F : Fmt) (mode : RMode) (n₁ : Bool) (m₁ : Nat) (e₁ : Int) (n₂ : Bool) (m₂ : Nat) (e₂ : Int) :
    Nat × Nat :=
  let (s, e) := exactSum n₁ m₁ e₁ n₂ m₂ e₂
  if s = 0 then
    let neg := if m₁ = 0 ∧ m₂ = 0 ∧ n₁ = n₂ then n₁ else decide (mode = .rdn)
    (F.sign neg, 0)
  else roundPack F mode (decide (s < 0)) s.natAbs e false

/-- a + b (R84). -/
def fpAdd (F : Fmt) (mode : RMode) (a b : Nat) : Nat × Nat :=
  let x := unpack F a
  let y := unpack F b
  match x, y with
  | .nan _, _ => (F.qnan, snanFlag [x, y])
  | _, .nan _ => (F.qnan, snanFlag [x, y])
  | .inf s, .inf t => if s = t then (F.inf s, 0) else (F.qnan, flagNV)
  | .inf s, _ => (F.inf s, 0)
  | _, .inf t => (F.inf t, 0)
  | .fin n₁ m₁ e₁, .fin n₂ m₂ e₂ => addFinite F mode n₁ m₁ e₁ n₂ m₂ e₂

/-- A pattern with its sign bit inverted (R84). -/
def fpNeg (F : Fmt) (a : Nat) : Nat := a ^^^ 2 ^ (F.eb + F.fb)

/-- A pattern with its sign bit clear (R84). -/
def fpAbs (F : Fmt) (a : Nat) : Nat := a % 2 ^ (F.eb + F.fb)

/-- A pattern names a NaN. -/
def isNaN (F : Fmt) (a : Nat) : Bool :=
  match unpack F a with
  | .nan _ => true
  | _ => false

/-- a − b (R84): a NaN is not negated, since no NaN sign is propagated. -/
def fpSub (F : Fmt) (mode : RMode) (a b : Nat) : Nat × Nat :=
  fpAdd F mode a (if isNaN F b then b else fpNeg F b)

/-- a × b (R84). -/
def fpMul (F : Fmt) (mode : RMode) (a b : Nat) : Nat × Nat :=
  let x := unpack F a
  let y := unpack F b
  match x, y with
  | .nan _, _ => (F.qnan, snanFlag [x, y])
  | _, .nan _ => (F.qnan, snanFlag [x, y])
  | .inf s, .inf t => (F.inf (s != t), 0)
  | .inf s, .fin t m _ => if m = 0 then (F.qnan, flagNV) else (F.inf (s != t), 0)
  | .fin s m _, .inf t => if m = 0 then (F.qnan, flagNV) else (F.inf (s != t), 0)
  | .fin n₁ m₁ e₁, .fin n₂ m₂ e₂ => roundPack F mode (n₁ != n₂) (m₁ * m₂) (e₁ + e₂) false

/-- The leading bits of `m₁ / m₂`, for nonzero numbers: at least `k` bits, the exponent and the sticky bit. -/
def divBits (k m₁ m₂ : Nat) : Nat × Int × Bool :=
  let sh := k + Nat.log2 m₂ + 1 - Nat.log2 m₁
  ((m₁ * 2 ^ sh) / m₂, -(sh : Int), (m₁ * 2 ^ sh) % m₂ != 0)

/-- a ÷ b (R84). -/
def fpDiv (F : Fmt) (mode : RMode) (a b : Nat) : Nat × Nat :=
  let x := unpack F a
  let y := unpack F b
  match x, y with
  | .nan _, _ => (F.qnan, snanFlag [x, y])
  | _, .nan _ => (F.qnan, snanFlag [x, y])
  | .inf _, .inf _ => (F.qnan, flagNV)
  | .inf s, .fin t _ _ => (F.inf (s != t), 0)
  | .fin s _ _, .inf t => (F.sign (s != t), 0)
  | .fin n₁ m₁ e₁, .fin n₂ m₂ e₂ =>
    if m₂ = 0 then
      if m₁ = 0 then (F.qnan, flagNV) else (F.inf (n₁ != n₂), flagDZ)
    else if m₁ = 0 then (F.sign (n₁ != n₂), 0)
    else
      let (q, e, st) := divBits (F.fb + 4) m₁ m₂
      roundPack F mode (n₁ != n₂) q (e₁ - e₂ + e) st

/-- The integer square root of `m`, built from bit `k - 1` down. -/
def isqrtFrom (m : Nat) : Nat → Nat → Nat
  | 0, r => r
  | k + 1, r => isqrtFrom m k (if (r + 2 ^ k) * (r + 2 ^ k) ≤ m then r + 2 ^ k else r)

/-- The integer square root. -/
def isqrt (m : Nat) : Nat := isqrtFrom m (Nat.log2 m / 2 + 1) 0

/-- √a (R84). -/
def fpSqrt (F : Fmt) (mode : RMode) (a : Nat) : Nat × Nat :=
  let x := unpack F a
  match x with
  | .nan _ => (F.qnan, snanFlag [x])
  | .inf s => if s then (F.qnan, flagNV) else (F.inf false, 0)
  | .fin s m e =>
    if m = 0 then (F.sign s, 0)
    else if s then (F.qnan, flagNV)
    else
      let m' := if e % 2 = 0 then m else 2 * m
      let e' := if e % 2 = 0 then e else e - 1
      let k := F.fb + 4
      let r := isqrt (m' * 2 ^ (2 * k))
      roundPack F mode false r (e' / 2 - k) (r * r != m' * 2 ^ (2 * k))

/-- The order of two values that are not NaNs, −0 equal to +0: less, equal, greater. -/
def fpCompare (F : Fmt) (a b : Nat) : Ordering :=
  match unpack F a, unpack F b with
  | .inf s, .inf t => if s = t then .eq else if s then .lt else .gt
  | .inf s, _ => if s then .lt else .gt
  | _, .inf t => if t then .gt else .lt
  | .fin n₁ m₁ e₁, .fin n₂ m₂ e₂ =>
    let (d, _) := exactSum n₁ m₁ e₁ (!n₂) m₂ e₂
    if d < 0 then .lt else if d = 0 then .eq else .gt
  | _, _ => .eq

/-- a = b, and the flags of `feq` (R85). -/
def fpEq (F : Fmt) (a b : Nat) : Bool × Nat :=
  (!isNaN F a && !isNaN F b && fpCompare F a b == .eq, snanFlag [unpack F a, unpack F b])

/-- NV when an operand is any NaN. -/
def nanFlag (F : Fmt) (a b : Nat) : Nat := if isNaN F a || isNaN F b then flagNV else 0

/-- a < b, and the flags of `flt` (R85). -/
def fpLt (F : Fmt) (a b : Nat) : Bool × Nat :=
  (!isNaN F a && !isNaN F b && fpCompare F a b == .lt, nanFlag F a b)

/-- a ≤ b, and the flags of `fle` (R85). -/
def fpLe (F : Fmt) (a b : Nat) : Bool × Nat :=
  (!isNaN F a && !isNaN F b && fpCompare F a b != .gt, nanFlag F a b)

/-- The smaller or the larger of two patterns, −0 below +0 (R86); `want` is the order that keeps the first. -/
def fpPick (F : Fmt) (want : Ordering) (a b : Nat) : Nat × Nat :=
  let fl := snanFlag [unpack F a, unpack F b]
  if isNaN F a then (if isNaN F b then F.qnan else b, fl)
  else if isNaN F b then (a, fl)
  else
    match fpCompare F a b with
    | .eq =>
      let negFirst := bit a (F.eb + F.fb)
      (if (want == .lt) == negFirst then a else b, fl)
    | o => (if o == want then a else b, fl)

/-- The smaller of two patterns (R86). -/
def fpMin (F : Fmt) (a b : Nat) : Nat × Nat := fpPick F .lt a b

/-- The larger of two patterns (R86). -/
def fpMax (F : Fmt) (a b : Nat) : Nat × Nat := fpPick F .gt a b

/-- The class code of a pattern (R87). -/
def fpClass (F : Fmt) (a : Nat) : Nat :=
  let kind := match unpack F a with
    | .fin _ m _ => if m = 0 then 0 else if bits a F.fb F.eb = 0 then 1 else 2
    | .inf _ => 3
    | .nan s => if s then 5 else 4
  8 * bool1 (bit a (F.eb + F.fb)) + kind

/-- (± a × b) ± c, rounded once (R89). `np` negates the product, `nc` the addend. -/
def fpFma (F : Fmt) (mode : RMode) (np nc : Bool) (a b c : Nat) : Nat × Nat :=
  let x := unpack F a
  let y := unpack F b
  let z := unpack F c
  let sn := snanFlag [x, y, z]
  let zeroInf : Bool := match x, y with
    | .inf _, .fin _ m _ => m == 0
    | .fin _ m _, .inf _ => m == 0
    | _, _ => false
  if zeroInf then (F.qnan, flagNV)
  else
    match x, y, z with
    | .nan _, _, _ => (F.qnan, sn)
    | _, .nan _, _ => (F.qnan, sn)
    | _, _, .nan _ => (F.qnan, sn)
    | .fin n₁ m₁ e₁, .fin n₂ m₂ e₂, .fin n₃ m₃ e₃ =>
      addFinite F mode ((n₁ != n₂) != np) (m₁ * m₂) (e₁ + e₂) (n₃ != nc) m₃ e₃
    | .fin _ _ _, .fin _ _ _, .inf s => (F.inf (s != nc), 0)
    | x', y', z' =>
      let s := match x', y' with
        | .inf s, .inf t => s != t
        | .inf s, .fin t _ _ => s != t
        | .fin s _ _, .inf t => s != t
        | _, _ => false
      match z' with
      | .inf t => if (s != np) = (t != nc) then (F.inf (s != np), 0) else (F.qnan, flagNV)
      | _ => (F.inf (s != np), 0)

/-- A value of one format in another (R88, R200). -/
def fpConvert (F G : Fmt) (mode : RMode) (a : Nat) : Nat × Nat :=
  let x := unpack F a
  match x with
  | .nan _ => (G.qnan, snanFlag [x])
  | .inf s => (G.inf s, 0)
  | .fin s m e => roundPack G mode s m e false

/-- A value rounded to an integer and clamped to `lo` to `hi` (R88): the integer and the flags. A NaN gives 0. -/
def fpToInt (F : Fmt) (mode : RMode) (lo hi : Int) (a : Nat) : Int × Nat :=
  match unpack F a with
  | .nan _ => (0, flagNV)
  | .inf s => (if s then lo else hi, flagNV)
  | .fin s m e =>
    let (n, inexact) := roundUnits mode s m e false 0
    let v : Int := if s then -(n : Int) else n
    if v < lo then (lo, flagNV)
    else if hi < v then (hi, flagNV)
    else (v, if inexact then flagNX else 0)

/-- An integer in a format (R88). -/
def fpOfInt (F : Fmt) (mode : RMode) (i : Int) : Nat × Nat :=
  roundPack F mode (decide (i < 0)) i.natAbs 0 false

/-- Fraction bits of the fixed-point evaluation of 2^x and log2 x. -/
def guardBits : Nat := 200

/-- ⌊ln 2 · 2^200⌋. -/
def ln2Fixed : Nat := 1113844574712631719546256151097547306333272293549090750737802

/-- Terms `k`, `k + 1`, … of the exponential series of `t`, from the term `term` on. -/
def expSeries (t : Nat) : Nat → Nat → Nat → Nat
  | 0, _, _ => 0
  | fuel + 1, k, term => term + expSeries t fuel (k + 1) (term * t / 2 ^ guardBits / (k + 1))

/-- 2^f for a fraction `f < 1`, in units of 2^-200, rounded down. -/
def exp2Fraction (f : Nat) : Nat :=
  expSeries (f * ln2Fixed / 2 ^ guardBits) 64 0 (2 ^ guardBits)

/-- 2^x (R180). -/
def fpExp2 (F : Fmt) (a : Nat) : Nat × Nat :=
  let x := unpack F a
  match x with
  | .nan _ => (F.qnan, snanFlag [x])
  | .inf s => (if s then 0 else F.inf false, 0)
  | .fin s m e =>
    if m = 0 then (F.one, 0)
    else if 16 ≤ (Nat.log2 m : Int) + e then
      roundPack F .rne false 1 (if s then -65536 else 65536) true
    else
      -- x in units of 2^-200, exact: no format of R195 has a smaller unit
      let u : Int := (if s then -1 else 1) * ((m * 2 ^ (e + guardBits).toNat : Nat) : Int)
      let n := u / ((2 ^ guardBits : Nat) : Int)
      let f := (u % ((2 ^ guardBits : Nat) : Int)).toNat
      if f = 0 then roundPack F .rne false 1 n false
      else roundPack F .rne false (exp2Fraction f) (n - guardBits) true

/-- The next `n` binary digits of log2 y, for `y` in [1, 2) in units of 2^-440. -/
def log2Digits : Nat → Nat → Nat
  | 0, _ => 0
  | n + 1, y =>
    let z := y * y / 2 ^ 440
    if 2 ^ 441 ≤ z then 2 ^ n + log2Digits n (z / 2) else log2Digits n z

/-- log2 x (R180). -/
def fpLog2 (F : Fmt) (a : Nat) : Nat × Nat :=
  let x := unpack F a
  match x with
  | .nan _ => (F.qnan, snanFlag [x])
  | .inf s => if s then (F.qnan, flagNV) else (F.inf false, 0)
  | .fin s m e =>
    if m = 0 then (F.inf true, flagDZ)
    else if s then (F.qnan, flagNV)
    else
      let k := Nat.log2 m
      let E : Int := k + e
      if m = 2 ^ k then roundPack F .rne (decide (E < 0)) E.natAbs 0 false
      else
        let L := log2Digits guardBits (m * 2 ^ (440 - k))
        if 0 ≤ E then roundPack F .rne false (E.natAbs * 2 ^ guardBits + L) (-(guardBits : Int)) true
        else roundPack F .rne true (E.natAbs * 2 ^ guardBits - L - 1) (-(guardBits : Int)) true

/-- 1 / x (R180). -/
def fpRcp (F : Fmt) (a : Nat) : Nat × Nat := fpDiv F .rne F.one a

/-- 1 / √x (R180). -/
def fpRsq (F : Fmt) (a : Nat) : Nat × Nat :=
  let x := unpack F a
  match x with
  | .nan _ => (F.qnan, snanFlag [x])
  | .inf s => if s then (F.qnan, flagNV) else (0, 0)
  | .fin s m e =>
    if m = 0 then (F.inf s, flagDZ)
    else if s then (F.qnan, flagNV)
    else
      let m' := if e % 2 = 0 then m else 2 * m
      let e' := if e % 2 = 0 then e else e - 1
      let k := F.fb + 4 + Nat.log2 m'
      let r := isqrt (2 ^ (2 * k) / m')
      roundPack F .rne false r (-(e' / 2) - k) (r * r * m' != 2 ^ (2 * k))

end Sys2Proof
end

