-- ==== Sys2Proof/Machine/Formats.lean ====
section
/-!
DEFINITION. The block formats, plane segments, quantisation, the matrix product, the soft-maximum arithmetic, the
sampling draw and the random function (chapter 08, R161 to R190), as functions on bytes and bit patterns.
-/

namespace Sys2Proof

/-- Magnitude bits p of a format code: 0 TRN, 1 VB3, 2 VB5, 3 VB8 (R161, R163, R213). -/
def blockP (c : Nat) : Nat := nth [0, 2, 4, 7] c
/-- Magnitude planes P of a format code (R165). -/
def blockPlanes (c : Nat) : Nat := nth [1, 3, 5, 8] c
/-- The tag byte of a format code (R161, R163). -/
def blockTag (c : Nat) : Nat := nth [0x3E, 0xB3, 0xB5, 0xB8] c
/-- The size of a container (R162, R163). -/
def containerSize (c : Nat) : Nat := nth [16, 48, 64, 80] c
/-- The size of a plane segment (R165). -/
def segSize (c : Nat) : Nat := nth [24, 40, 56, 80] c

/-- The content of a container or a segment: exponents of the four blocks, micro-exponents of the sixteen quads, and the
sign and magnitude of each element. A trit has sign 1 for −1. -/
structure Block64 where
  es : List Nat
  mus : List Nat
  signs : List Nat
  mags : List Nat
deriving DecidableEq, Repr

/-- The five trits of a byte (R163). -/
def tritsOf (b : Nat) : List Nat := [b % 3, b / 3 % 3, b / 9 % 3, b / 27 % 3, b / 81 % 3]

/-- The checks of R164 on a container's bytes, in their order: none, or the cause of the fault. A second read of the same
bytes meets the same parity. -/
def containerFault (c : Nat) (l : List Nat) : Option Nat :=
  if c = 0 then
    if xorAll (l.take 14) ≠ nth l 14 then some 0x0C
    else if nth l 13 ≠ 0x3E then some 0x0B
    else if nth l 15 ≠ 0 then some 0x0B
    else if (l.take 13).any (fun b => decide (243 ≤ b)) || decide (81 ≤ nth l 12) then some 0x0B
    else none
  else
    let o := 8 * (blockP c + 1)
    if xorAll (l.take (o + 9)) ≠ nth l (o + 9) then some 0x0C
    else if nth l (o + 8) ≠ blockTag c then some 0x0B
    else if nth l (o + 6) ≠ 0 ∨ nth l (o + 7) ≠ 0 then some 0x0B
    else if ((l.take (containerSize c)).drop (o + 10)).any (fun b => decide (b ≠ 0)) then some 0x0B
    else none

/-- The content of a container that passed its checks (R162, R163). -/
def readContainer (c : Nat) (l : List Nat) : Block64 :=
  if c = 0 then
    let ts := ((l.take 13).flatMap tritsOf).take 64
    ⟨[127, 127, 127, 127], List.replicate 16 0, ts.map (fun t => bool1 (t == 2)), ts.map (fun t => bool1 (t != 0))⟩
  else
    let p := blockP c
    let o := 8 * (p + 1)
    let els := splitLanes (p + 1) 64 (ofBytes (l.take o))
    ⟨(l.drop o).take 4, splitLanes 1 16 (ofBytes ((l.drop (o + 4)).take 2)), els.map (fun x => bits x p 1),
      els.map (fun x => x % 2 ^ p)⟩

/-- The container of a content in a block format, with its tag, parity and zero reserved bytes (R162). -/
def writeContainer (c : Nat) (b : Block64) : List Nat :=
  let p := blockP c
  let els := List.zipWith (fun s m => s * 2 ^ p + m) b.signs b.mags
  let body := bytesOf (8 * (p + 1)) (joinLanes (p + 1) els) ++ b.es ++ bytesOf 2 (joinLanes 1 b.mus) ++ [0, 0, blockTag c]
  let full := body ++ [xorAll body]
  full ++ List.replicate (containerSize c - full.length) 0

/-- The micro-exponent of element `i` (R161). -/
def muOf (b : Block64) (i : Nat) : Nat := nth b.mus (i / 4)

/-- Plane `k` of folded magnitudes: bit `i` is bit `k` of element `i`'s. -/
def planeOf (ms : List Nat) (k : Nat) : Nat := ofBools (ms.map (fun m => bit m k))

/-- The plane segment of a content (R165, R166). -/
def writeSegment (c : Nat) (b : Block64) : List Nat :=
  let folded := if c = 0 then b.mags else
    (upFrom 0 64).map (fun i => nth b.mags i * 2 ^ (1 - muOf b i))
  let sg := List.zipWith (fun s m => decide (s = 1 ∧ m ≠ 0)) b.signs b.mags
  b.es ++ [blockTag c, 0, 0, 0] ++ bytesOf 8 (ofBools sg) ++
    (upFrom 0 (blockPlanes c)).flatMap (fun k => bytesOf 8 (planeOf folded k))

/-- The header checks of the operand port (R167). -/
def segHeaderOk (c : Nat) (l : List Nat) : Bool :=
  nth l 4 == blockTag c && nth l 5 == 0 && nth l 6 == 0 && nth l 7 == 0 &&
    (c != 0 || (l.take 4).all (fun b => b == 0x7F))

/-- Element `i` of a container as FP32, exactly (R168). -/
def dequant (c : Nat) (b : Block64) (i : Nat) : Nat :=
  let e := nth b.es (i / 16)
  if e = 255 then Fmt.f32.qnan
  else if nth b.mags i = 0 then 0
  else (roundPack Fmt.f32 .rne (nth b.signs i == 1) (nth b.mags i)
    ((e : Int) - 127 - muOf b i - ((blockP c : Int) - 1)) false).1

/-- A trit as FP32 (R205). -/
def tritFp (t : Nat) : Nat := if t = 0 then 0 else if t = 1 then 0x3F800000 else 0xBF800000

/-- ⌊log2⌋ of a nonzero finite FP32 magnitude. -/
def floorLog2 (a : Nat) : Int :=
  match unpack Fmt.f32 a with
  | .fin _ m e => (Nat.log2 m : Int) + e
  | _ => 0

/-- One block quantised: its exponent, its four micro-exponents, and the sign and magnitude of each element (R169). -/
def quantBlock (p : Nat) (x : List Nat) : Nat × List Nat × List Nat × List Nat :=
  let z := List.replicate 16 0
  if x.any (isNaN Fmt.f32) then (255, [0, 0, 0, 0], z, z)
  else
    let a := x.map (fun v => min (fpAbs Fmt.f32 v) 0x7F7FFFFF)
    let amax := a.foldl max 0
    if amax = 0 then (0, [0, 0, 0, 0], z, z)
    else
      let e : Int := max 1 (min 254 (floorLog2 amax + 127))
      let mus := (upFrom 0 4).map (fun j =>
        let m := ((a.drop (4 * j)).take 4).foldl max 0
        bool1 (m == 0 || decide (floorLog2 m < e - 128)))
      let mags := (upFrom 0 16).map (fun i =>
        match unpack Fmt.f32 (nth a i) with
        | .fin _ m ex => min (roundUnits .rne false m ex false (e - 127 - nth mus (i / 4) - ((p : Int) - 1))).1 (2 ^ p - 1)
        | _ => 0)
      let sg := List.zipWith (fun v m => bool1 (decide (bit v 31 = true ∧ m ≠ 0))) x mags
      (e.toNat, mus, sg, mags)

/-- 64 FP32 values quantised into a block format (R169). -/
def quantise (c : Nat) (x : List Nat) : Block64 :=
  let q := (upFrom 0 4).map (fun b => quantBlock (blockP c) ((x.drop (16 * b)).take 16))
  ⟨q.map (·.1), q.flatMap (·.2.1), q.flatMap (·.2.2.1), q.flatMap (·.2.2.2)⟩

/-- The trit of an FP32 value (R204). -/
def tritOfFp (x : Nat) : Nat :=
  if isNaN Fmt.f32 x || decide (fpAbs Fmt.f32 x < 0x3F000000) then 0 else if bit x 31 then 2 else 1

/-- The TRN container of 64 trits (R204). -/
def packTrits (t : List Nat) : List Nat :=
  let body := (upFrom 0 13).map (fun n =>
    nth t (5 * n) + 3 * nth t (5 * n + 1) + 9 * nth t (5 * n + 2) + 27 * nth t (5 * n + 3) +
      (if n < 12 then 81 * nth t (5 * n + 4) else 0)) ++ [0x3E]
  body ++ [xorAll body, 0]

/-! ### The matrix product (R171, R174) -/

/-- One element of an accumulator tile (R171). -/
structure Elem where
  a : BitVec 56 := 0
  nan : Bool := false
  ov : Bool := false
deriving DecidableEq, Repr

/-- `x * 2 ^ n`, exactly or rounded half to even (R171). -/
def rneShift (x n : Int) : Int :=
  let (m, _) := roundUnits .rne false x.natAbs n false 0
  if x < 0 then -(m : Int) else m

/-- Clamped to 56 bits, and whether it was clamped (R171). -/
def sat56 (x : Int) : Int × Bool :=
  if x < -(2 ^ 55 : Int) then (-(2 ^ 55 : Int), true)
  else if (2 ^ 55 : Int) - 1 < x then ((2 ^ 55 : Int) - 1, true)
  else (x, false)

/-- An operand row or column as the array takes it: exponents and signed folded magnitudes (R165, R171). -/
structure Segment where
  es : List Nat
  ms : List Int
deriving DecidableEq, Repr

/-- A plane segment's bytes taken apart. -/
def readSegment (c : Nat) (l : List Nat) : Segment :=
  let sg := ofBytes ((l.drop 8).take 8)
  let pl := (upFrom 0 (blockPlanes c)).map (fun j => ofBytes ((l.drop (16 + 8 * j)).take 8))
  ⟨l.take 4, (upFrom 0 64).map (fun i =>
    let m : Nat := joinLanes 1 (pl.map (fun q => bool1 (bit q i)))
    if bit sg i then -(m : Int) else m)⟩

/-- The dot product of block `b` of a row and a column (R171: P). -/
def blockDot (x y : Segment) (b : Nat) : Int :=
  (List.zipWith (· * ·) ((x.ms.drop (16 * b)).take 16) ((y.ms.drop (16 * b)).take 16)).foldl (· + ·) 0

/-- One element after the addends of a product's four blocks (R171). `k` is ka + kb − 254 − pa − pb, `f` the anchor. -/
def addBlocks (x y : Segment) (k f : Int) (el : Elem) : Elem :=
  (upFrom 0 4).foldl (fun el b =>
    let ea := nth x.es b
    let eb := nth y.es b
    if ea = 255 ∨ eb = 255 then { el with nan := true }
    else
      let (v, c) := sat56 (el.a.toInt + rneShift (blockDot x y b) ((ea : Int) + eb + k - f))
      { el with a := BitVec.ofInt 56 v, ov := el.ov || c }) el

/-- A tile after a product: element (i, j) at index 64 i + j (R171). -/
def productInto (rows cols : List Segment) (k f : Int) (tile : List Elem) : List Elem :=
  List.zipWith (fun n el => addBlocks (rows.getD (n / 64) ⟨[], []⟩) (cols.getD (n % 64) ⟨[], []⟩) k f el)
    (upFrom 0 4096) tile

/-- The contribution of a scale: its exponent field minus 127 (R170). -/
def scaleExp (x : Nat) : Int := (bits x 23 8 : Int) - 127

/-- A scale is a positive normal power of two (R170). -/
def scaleOk (x : Nat) : Bool :=
  x % 2 ^ 23 == 0 && bits x 31 1 == 0 && bits x 23 8 != 0 && bits x 23 8 != 255

/-- An element read out in a format, and its flags (R175). -/
def readout (F : Fmt) (f : Int) (el : Elem) : Nat × Nat :=
  let v := el.a.toInt
  if el.nan then (F.qnan, 0)
  else if el.ov then (F.maxFinite (decide (v < 0)), flagOF + flagNX)
  else roundPack F .rne (decide (v < 0)) v.natAbs f false

/-! ### Reductions (R181, R208) -/

/-- Adjacent pairs combined; the flags collected. -/
def pairUp (op : Nat → Nat → Nat × Nat) : List Nat → List Nat × Nat
  | x :: y :: t =>
    let (v, f) := op x y
    let (r, g) := pairUp op t
    (v :: r, f ||| g)
  | l => (l, 0)

/-- Pairs combined until one lane remains (R181). -/
def treeFold (op : Nat → Nat → Nat × Nat) : Nat → List Nat → Nat × Nat
  | 0, l => (nth l 0, 0)
  | n + 1, l =>
    match l with
    | _ :: _ :: _ =>
      let (r, f) := pairUp op l
      let (v, g) := treeFold op n r
      (v, f ||| g)
    | l => (nth l 0, 0)

/-- The running combination, from lane 0 up (R181). -/
def scanFrom (op : Nat → Nat → Nat × Nat) (acc : Nat) : List Nat → List Nat × Nat
  | [] => ([], 0)
  | x :: t =>
    let (v, f) := op acc x
    let (r, g) := scanFrom op v t
    (v :: r, f ||| g)

/-- The inclusive prefix of a list (R181). -/
def scanLanes (op : Nat → Nat → Nat × Nat) : List Nat → List Nat × Nat
  | [] => ([], 0)
  | x :: t =>
    let (r, f) := scanFrom op x t
    (x :: r, f)

/-! ### Soft maximum and draws (R182 to R187), on FP32 patterns -/

/-- −∞ in FP32. -/
def negInf32 : Nat := 0xFF800000
/-- 1.0 in FP32. -/
def one32 : Nat := 0x3F800000
/-- Sum, product and maximum in FP32, half to even, flags dropped. Of both zeros the maximum is +0, as `fmax` has it (log 103). -/
def add32 (a b : Nat) : Nat := (fpAdd Fmt.f32 .rne a b).1
def mul32 (a b : Nat) : Nat := (fpMul Fmt.f32 .rne a b).1
def max32 (a b : Nat) : Nat := (fpMax Fmt.f32 a b).1

/-- 2^(x − y) for a running maximum y (R182). -/
def pw (x y : Nat) : Nat :=
  if y = negInf32 then 0
  else if (fpEq Fmt.f32 x y).1 then one32
  else (fpExp2 Fmt.f32 (fpSub Fmt.f32 .rne x y).1).1

/-- A new soft-maximum state: m and l (R183). -/
def smInit (f : Nat) : Nat × Nat :=
  if f = negInf32 then (negInf32, 0)
  else if isNaN Fmt.f32 f then (Fmt.f32.qnan, Fmt.f32.qnan)
  else (f, one32)

/-- A state updated with 64 scores: m, l, the scale factor, and the weights (R184). -/
def smUpdate (m l : Nat) (s : List Nat) : Nat × Nat × Nat × List Nat :=
  let q := Fmt.f32.qnan
  if isNaN Fmt.f32 m || s.any (isNaN Fmt.f32) then (q, q, q, s.map (fun _ => q))
  else
    let mn := s.foldl max32 m
    let p := s.map (fun x => pw x mn)
    let alpha := if mn = negInf32 then one32 else pw m mn
    (mn, add32 (mul32 l alpha) (treeFold (fpAdd Fmt.f32 .rne) 6 p).1, alpha, p)

/-- Two states combined: m, l and the two scale factors (R185). -/
def smMerge (m₁ l₁ m₂ l₂ : Nat) : Nat × Nat × Nat × Nat :=
  let q := Fmt.f32.qnan
  if isNaN Fmt.f32 m₁ || isNaN Fmt.f32 m₂ then (q, q, q, q)
  else
    let m := max32 m₁ m₂
    let a₁ := if m = negInf32 then one32 else pw m₁ m
    let a₂ := if m = negInf32 then one32 else pw m₂ m
    (m, add32 (mul32 l₁ a₁) (mul32 l₂ a₂), a₁, a₂)

/-- The factor that normalises an output (R186). -/
def smOut (l : Nat) : Nat :=
  if isNaN Fmt.f32 l then Fmt.f32.qnan
  else if (fpEq Fmt.f32 l 0).1 then 0
  else (fpRcp Fmt.f32 l).1

/-- A rotated 32-bit word. -/
def rotl32 (x n : Nat) : Nat := (x * 2 ^ n + x / 2 ^ (32 - n)) % 2 ^ 32

/-- One quarter round of the ChaCha function on four words of a block. -/
def quarterRound (w : List Nat) (i j k l : Nat) : List Nat :=
  let step (w : List Nat) (x y z n : Nat) : List Nat :=
    let s := (nth w x + nth w y) % 2 ^ 32
    setNth (setNth w x s) z (rotl32 (nth w z ^^^ s) n)
  step (step (step (step w i j l 16) k l j 12) i j l 8) k l j 7

/-- A column round and a diagonal round. -/
def doubleRound (w : List Nat) : List Nat :=
  let c := quarterRound (quarterRound (quarterRound (quarterRound w 0 4 8 12) 1 5 9 13) 2 6 10 14) 3 7 11 15
  quarterRound (quarterRound (quarterRound (quarterRound c 0 5 10 15) 1 6 11 12) 2 7 8 13) 3 4 9 14

/-- The sixteen output words of the block function with 8 rounds (R188). -/
def chachaBlock (seed stream n : Nat) : List Nat :=
  let w := [0x61707865, 0x3320646E, 0x79622D32, 0x6B206574, seed % 2 ^ 32, bits seed 32 32,
    stream % 2 ^ 32, bits stream 32 32, 0x57454E45, 0x41205652, 0x454C4553, 0x51554521,
    n % 2 ^ 32, bits n 32 32, 0, 0]
  List.zipWith (fun x y => (x + y) % 2 ^ 32)
    (doubleRound (doubleRound (doubleRound (doubleRound w)))) w

/-- The 32 words of `rngb` at a counter: blocks 2c and 2c + 1 (R189). -/
def rngWords (seed stream c : Nat) : List Nat :=
  chachaBlock seed stream (2 * c % 2 ^ 64) ++ chachaBlock seed stream ((2 * c + 1) % 2 ^ 64)

/-- The first index whose prefix sum exceeds `t` (R187). -/
def firstAbove (t : Nat) : Nat → List Nat → Option Nat
  | _, [] => none
  | i, x :: r => if (fpLt Fmt.f32 t x).1 then some i else firstAbove t (i + 1) r

/-- The last index of a weight above zero, or 0 (R187). -/
def lastPositive : Nat → Nat → List Nat → Nat
  | _, best, [] => best
  | i, best, x :: r => lastPositive (i + 1) (if (fpLt Fmt.f32 0 x).1 then i else best) r

/-- The sampling draw over 64 logits: an index, or 64 when every logit is −∞ (R187). -/
def drawIndex (seed stream c : Nat) (l : List Nat) : Nat :=
  let w0 := nth (chachaBlock seed stream c) 0
  let u := (roundPack Fmt.f32 .rne false (w0 / 256) (-24) false).1
  let x := l.map (fun v => if isNaN Fmt.f32 v then negInf32 else v)
  let mx := x.foldl max32 negInf32
  if mx = negInf32 then 64
  else
    let ws := x.map (fun v => pw v mx)
    let sums := (scanFrom (fpAdd Fmt.f32 .rne) 0 ws).1
    match firstAbove (mul32 u (nth sums 63)) 0 sums with
    | some i => i
    | none => lastPositive 0 0 ws

/-- The threshold of `rngm` for an FP32 probability (R189). -/
def rngThreshold (p : Nat) : Nat :=
  (fpToInt Fmt.f32 .rne 0 65536 ((fpMul Fmt.f32 .rne p 0x47800000).1)).1.toNat

end Sys2Proof
end

