-- ==== Sys2Proof/Machine/Store.lean ====
section
/-!
DEFINITION. A sparse table from natural numbers to values, as plain data in one canonical form: keys strictly rising,
and no entry that holds the table's default. Equal tables are then equal lists. Memory, register files and every table
of units of the machine use it.
-/

namespace Sys2Proof

/-- Entries of a table: a key and its value. -/
abbrev Store (α : Type) := List (Nat × α)

namespace Store

variable {α : Type}

/-- The value at a key; `d` where the table lists none. -/
def get (d : α) : Store α → Nat → α
  | [], _ => d
  | (k', v) :: t, k => if k' = k then v else get d t k

/-- The table without a key. -/
def drop : Store α → Nat → Store α
  | [], _ => []
  | (k', v) :: t, k => if k' = k then drop t k else (k', v) :: drop t k

/-- The table with an entry put in at its place; for a table that does not list the key. -/
def put : Store α → Nat → α → Store α
  | [], k, v => [(k, v)]
  | (k', v') :: t, k, v => if k < k' then (k, v) :: (k', v') :: t else (k', v') :: put t k v

/-- The table with the value at a key replaced; writing the default removes the entry. -/
def set [DecidableEq α] (d : α) (l : Store α) (k : Nat) (v : α) : Store α :=
  if v = d then drop l k else put (drop l k) k v

/-- The value at a key rewritten by `f`. -/
def update [DecidableEq α] (d : α) (l : Store α) (k : Nat) (f : α → α) : Store α :=
  set d l k (f (get d l k))

/-- The canonical form: keys strictly rising from `lo` on, and no entry holds the default. -/
def wfFrom [DecidableEq α] (d : α) : Nat → Store α → Bool
  | _, [] => true
  | lo, (k, v) :: t => decide (lo ≤ k) && decide (v ≠ d) && wfFrom d (k + 1) t

/-- The canonical form of a table. -/
def wf [DecidableEq α] (d : α) (l : Store α) : Bool := wfFrom d 0 l

end Store

end Sys2Proof
end

