-- ==== Sys2Proof/Machine/State.lean ====
section
/-!
DEFINITION. The state of the package: everything the specification names, as plain data (INVENTORY.md lists each field
with its rule and its reset value), and the state right after reset.
-/

namespace Sys2Proof.Machine

/-- A stop without an effect that the specification gives. -/
inductive Fault where
  /-- An access to a physical address that holds nothing (R230). Raised by the physical accessors; safe: the hardware
  has no location there. -/
  | noSuchPhysical
deriving DecidableEq, Repr

/-- Why a step has no meaning in the model. -/
inductive Refusal where
  /-- An instruction without a meaning yet. Raised only by `exec`'s own arms; safe. -/
  | notModelled (mnemonic : String)
  /-- An access to a device register whose behaviour the specification does not give (R438: the CXL ports'
  register space but for its decoders; R230: device addresses that no rule names). Raised by the device accessors; safe. -/
  | deviceUnspecified
deriving DecidableEq, Repr

/-- A write of a long result to a register (R30, R31). -/
inductive RegWrite where
  | s (d : Nat) (x : Word)
  | f (d : Nat) (x : Word)
  | v (d : Nat) (x : VReg)
  | m (d : Nat) (x : MReg)
deriving DecidableEq, Repr

/-- A change of an accumulator tile, applied at the marker (R172, R192). -/
inductive TileOp where
  /-- `mzero` (R218). -/
  | zero (t : Nat) (anchor : Int)
  /-- A product's addends (R171): formats, the sum of the scale exponents, and the segments of A and B as read. -/
  | product (t : Nat) (fa fb : Nat) (k : Int) (rows cols : List Segment)
  /-- `mwr` (R220): row, quarter and sixteen lanes. -/
  | put (t row quarter : Nat) (lanes : List Nat)
deriving DecidableEq, Repr

/-- One entry of the return buffer (R32): what a long instruction writes at the marker. -/
structure LongRes where
  id : Nat
  /-- The address of its word (R383). -/
  waddr : Nat
  writes : List RegWrite := []
  flags : Nat := 0
  /-- MSTATUS bits it sets (R222). -/
  mstatus : Nat := 0
  tiles : List TileOp := []
  /-- It is no long instruction's: the fault of a poisoned release, which takes no entry of the sixteen (R32, R145). -/
  extra : Bool := false
  /-- A deferred fault (R33): cause and TVAL. -/
  fault : Option (Nat × Nat) := none
  /-- The result has come back (R31). -/
  returned : Bool := false
  /-- Its value waits for another unit: an atomic, a near-memory operation or a product. -/
  queued : Bool := false
  /-- The addresses that a load read, whose words or packets may fail before they return (R395, R396). -/
  src : List Nat := []
deriving DecidableEq, Repr

/-- A stream register (R125, R126, R158): 0 UNBOUND, 1 BOUND, 2 DRAINED. -/
structure Stream where
  state : Nat := 0
  src : Nat := 0
  rows : Nat := 0
  rbytes : Nat := 0
  stride : Nat := 0
  /-- Rows whose elements have arrived. -/
  fetched : Nat := 0
  popped : Nat := 0
  /-- Elements that have arrived and are not popped: their bytes, or the fault of their row. -/
  elems : List (List Nat × Option (Nat × Nat)) := []
  /-- The bundle that bound it (R390), and the address space and the mode it was bound in (R411). -/
  pc : Nat := 0
  asid : Nat := 0
  user : Bool := true
deriving DecidableEq, Repr

/-- A bundle in a strand's fetch buffer (R19); a fetch that failed carries its cause and TVAL (R90). -/
structure Fetched where
  addr : Nat
  w0 : Nat
  w1 : Nat
  fault : Option (Nat × Nat) := none
deriving DecidableEq, Repr

/-- Whose an access under way is: the strand or drover program that runs the continuation that issued it, that
continuation by its record slot while it is suspended, or nobody's any more. A failure poisons that strand (R274, R389);
the orders of a hart's accesses go by the hart that issued them (R255). -/
inductive Owner where
  | hart (k : Nat)
  | record (addr slot : Nat)
  | nobody
deriving DecidableEq, Repr

/-- A message (R283): its words, and what the fabric carries beside them (R284, R324). -/
structure Msg where
  ts : Nat
  hdr : Nat
  payload : List Nat
  /-- Destination endpoint: package and core. -/
  dest : Nat
  asid : Nat
  /-- Launch slot of the sender. -/
  slot : Nat
  /-- The hart whose send it is until it stands in an inbox, and when it was sent (R265); none for the hardware's. -/
  hart : Option Nat := none
  since : Nat := 0
  /-- It was re-injected by `rollback` while its flock drained, and has been counted (R285, R314, R347). -/
  reinjected : Bool := false
deriving DecidableEq, Repr

/-- The registers a pair bundle reads, as they stood before it (R10), and the length of the return buffer then. -/
structure Snap where
  s : Store Word
  mstatus : Nat
  longs : Nat
deriving DecidableEq, Repr

/-- What the word just issued did to the flow of control (R47). -/
inductive Flow where
  /-- The next bundle follows, or the loop goes back. -/
  | seq
  /-- A transfer was taken; `npc` is its target. -/
  | taken
  /-- A trap was taken; `pc` is the handler's address. -/
  | trap
  /-- The word waits at issue (R14). -/
  | wait
  /-- The word set `pc` itself and acted as a marker: `eret`, or a suspension point that goes on (R101, R331). -/
  | resumed
  /-- The strand has become idle (R39) or stopped (R104). -/
  | gone
deriving DecidableEq, Repr

/-- A suspension point with the operands read at its issue (R39). -/
inductive Susp where
  | suspend (a : Nat)
  | yield_
  | endTask
  | waitw (a value : Nat)
  | sends (route ts : Nat) (payload : List Nat)
  | join_ (d : Nat)
  | floorw (bound : Nat)
  | sleep (n : Nat)
deriving DecidableEq, Repr

/-- A take on its way to its lender's hub (R419): the strand that waits for its answer, the words of its record and their place,
and when it left. -/
structure Take where
  hart : Nat
  words : List Nat
  recPlace : Nat
  since : Nat
  /-- Its strand's continuation has ended: nothing waits for the answer any more. -/
  orphan : Bool := false
deriving DecidableEq, Repr

/-- A hart (R13, R255): a strand, or a drover program. -/
structure Hart where
  occ : Bool := false
  halted : Bool := false
  pc : Nat := 0
  npc : Nat := 0
  /-- The word of the bundle that issues next: 0, or 1 (R17, R383). -/
  word : Nat := 0
  /-- Word 1 is entered by `eret`: word 0 is not checked (R383). -/
  resumed1 : Bool := false
  flow : Flow := .seq
  /-- The bundle just issued holds `loop` (R96). -/
  loopWord : Bool := false
  s : Store Word := []
  f : Store Word := []
  v : Store VReg := []
  m : Store MReg := []
  /-- The dirty-register bitmap (R399): s registers, then f, v and m registers, 32 bits each. -/
  dirty : Nat := 0
  q : Store Stream := []
  /-- Supervisor mode (R382). -/
  sup : Bool := false
  fflags : Nat := 0
  frm : Nat := 0
  vt : Word := BitVec.allOnes 64
  ectx : Word := 0
  rngseed : Word := 0
  rngstream : Word := 0
  ecapdef : Word := 64
  retired : Word := 0
  mstatus : Nat := 0
  lc : Word := 0
  lstart : Nat := 0
  lend : Nat := 0
  mcause : Nat := 0
  tvec : Nat := 0
  tcause : Nat := 0
  tepc : Nat := 0
  tval : Word := 0
  tresume : Nat := 0
  /-- TSTATUS (R410): bits 0 INTRAP, 1 PMODE, 2 DEFER, 3 DMORE, 4 PSN, 7:5 PSCOPE. -/
  tstatus : Nat := 0
  asid : Nat := 0
  longs : List LongRes := []
  nextLong : Nat := 0
  parked : Bool := false
  /-- When it arrived at a `herd`, while it waits there (R20). -/
  herd : Option Nat := none
  herdPassed : Bool := false
  /-- Short results on their way (R29, R75): the s registers that wait for one, and the step from which a word may read it. -/
  late : Store Nat := []
  /-- It keeps the issue slot from word 0 to word 1 of its bundle (R17). -/
  kept : Bool := false
  /-- The next container it reads fails its first parity check: 1 the re-read matches, 2 it fails too (R164, R395). -/
  reread : Nat := 0
  cls : Nat := 0
  age : Nat := 0
  fetch : List Fetched := []
  latch : Option Msg := none
  /-- The held anti-message of the continuation (R278): source and serial. -/
  heldAnti : Option Nat := none
  /-- The tag whose handler the continuation runs (R286). -/
  handlerTag : Option Nat := none
  /-- Record slot of the continuation (R40). -/
  record : Option Nat := none
  level : Nat := 0
  slot : Option Nat := none
  flock : Nat := 0
  dests : List Nat := []
  destOverflow : Bool := false
  reds : Nat := 0
  tile0 : Bool := false
  tile1 : Bool := false
  snap : Option Snap := none
  /-- A fence of the hart was poisoned in this window, and the accesses it holds do not perform (R275): 1 those that
  `fence.rel` holds, 2 those that `fence.ar` holds. -/
  releaseHeld : Nat := 0
  /-- A suspension waits for a free record slot (R40). -/
  waitSlot : Bool := false
  /-- It waits at issue in `spawn` (R297). -/
  spawnWait : Bool := false
  /-- A suspension point whose marker delivered a fault: `eret` completes it (R385). -/
  susp : Option Susp := none
  /-- Answers of its takes that `agist` has not used yet (R419): the take, and the reason, 0 where it succeeded. -/
  taken : List (Take × Nat) := []
  /-- Messages that a `rollback` which waits at issue has sent and re-injected (R280, R347). -/
  rolled : Nat := 0
deriving DecidableEq, Repr

/-- An accumulator tile (R171): elements by 64 i + j, and the anchor. -/
structure Tile where
  els : Store Elem := []
  anchor : Int := 0
deriving DecidableEq, Repr

/-- A queued product (R215, R224). -/
structure Product where
  hart : Nat
  long : Nat
  fa : Nat
  fb : Nat
  a : Nat
  b : Nat
  k : Int
  tile : Nat
  dual : Bool
  consumed : Bool := false
  /-- The step in which it issued (R216). -/
  since : Nat := 0
deriving DecidableEq, Repr

/-- What a tile move does. -/
inductive MoveKind where
  | tile (plane : Bool)
  | gather
  | pageIn (va : Nat)
deriving DecidableEq, Repr

/-- A tile move in the drover (R116, R118, R150). -/
structure Move where
  seq : Nat
  kind : MoveKind
  /-- The hart that issued it. -/
  hart : Nat
  desc : List Nat
  descAddr : Nat
  idx : List Nat := []
  row : Nat := 0
  mask : Nat := 0
  active : Bool := false
  stopped : Bool := false
  launch : Option Nat := none
  flock : Nat := 0
  asid : Nat := 0
  pc : Nat := 0
  owner : Owner := .nobody
  since : Nat := 0
  /-- Bytes that earlier rows of an unordered move have written over, by place, as they were before the move (R120). -/
  old : List (Nat × Nat) := []
deriving DecidableEq, Repr

/-- Two entries are one move: a ticket's number is a flock's own (R117, R400). -/
def Move.same (a b : Move) : Bool := a.seq == b.seq && a.launch == b.launch && a.flock == b.flock

/-- The status of a faulted move (R153). -/
structure MoveFault where
  seq : Nat
  cause : Nat
  tval : Nat
  /-- The launch and the flock whose move it was. -/
  launch : Option Nat := none
  flock : Nat := 0
deriving DecidableEq, Repr

/-- A message in an inbox (R285, R286). -/
structure InMsg where
  msg : Msg
  arrival : Nat
  general : Bool
  /-- Its slot of the inbox's 256 (R107). -/
  place : Nat := 0
  /-- Since when it has been deliverable (R286). -/
  since : Option Nat := none
  aged : Bool := false
  /-- Held by a continuation it started (R278). -/
  held : Bool := false
deriving DecidableEq, Repr

/-- What a core keeps for the society of a launch (R314): its colour, the messages sent and received in each colour, and the
lowest timestamp sent in its present one. -/
structure Tally where
  colour : Nat := 0
  sent : List Nat := [0, 0]
  received : List Nat := [0, 0]
  lowestSent : Nat := 18446744073709551615
deriving DecidableEq, Repr

/-- A core (R13). -/
structure Core where
  za0 : Tile := {}
  za1 : Tile := {}
  /-- The tiles written since the last image (R399): bit 0 za0, bit 1 za1. -/
  zaDirty : Nat := 0
  consumed : Nat := 0
  products : List Product := []
  moves : List Move := []
  nextSeq : Nat := 1
  moveFaults : List MoveFault := []
  mailbox : Option Word := none
  /-- What a drover program that has stopped writes to its mailbox once its accesses have performed (R124, R260). -/
  mailWait : Option Word := none
  /-- Joins that wait: record slot, destination, launch slot (R155). -/
  joins : List (Nat × Nat × Nat) := []
  /-- The launch and flock of the drover program's issuer. -/
  droverOwner : Option (Nat × Nat) := none
  inbox : List InMsg := []
  /-- Messages that wait in the network before the inbox (R285). -/
  netWait : List Msg := []
  outbound : List Msg := []
  serial : Nat := 1
  rrClass : List Nat := [0, 0, 0, 0, 0, 0, 0, 0]
  rrTag : Nat := 255
  arrivals : Nat := 0
  tagen : BitVec 256 := 0
  tagpnd : BitVec 256 := 0
  msgdrop : Nat := 0
  tableOwner : Option Nat := none
  /-- By launch slot (R314). -/
  tallies : Store Tally := []
  /-- The core deque (R293): the oldest record's index and the count; the records lie in local memory. -/
  dqHead : Nat := 0
  dqCount : Nat := 0
  /-- The active move whose row moved last (R116). -/
  rrMove : Nat := 0
  /-- Banks claimed by accesses that go on, for each of their further cycles, and the requests granted last (R111). -/
  portBusy : List (List Nat) := []
  portGrants : List Nat := []
deriving DecidableEq, Repr

/-- What a waiting continuation waits for (R297, R327). -/
inductive WaitFor where
  | word (addr : Nat) (value : Word)
  | joined
  | floor (bound : Word)
  | resumed
  /-- Not before a step count (R99). -/
  | sleeping (until_ : Nat)
  | deque
deriving DecidableEq, Repr

/-- The states of a continuation (R327). -/
inductive ContState where
  | ready | running | suspended | waiting
deriving DecidableEq, Repr

/-- A continuation that the launch unit tracks by its record slot (R327). -/
structure Cont where
  recAddr : Nat
  slot : Nat
  flock : Nat
  cluster : Nat
  asid : Nat
  state : ContState
  wake : Bool := false
  /-- It has been WAITING since its last `suspend`: its WAKE stands (R327). -/
  waited : Bool := false
  waits : Option WaitFor := none
  vt : Word := BitVec.allOnes 64
  hangHandler : Bool := false
  /-- READY to a strand of one core only (R155). -/
  onlyCore : Option Nat := none
  /-- What the continuation keeps across a suspension: its message latch, the held anti-message and the tag whose
  handler it runs (R278, R279, R286). -/
  latch : Option Msg := none
  heldAnti : Option Nat := none
  handlerTag : Option Nat := none
deriving DecidableEq, Repr

/-- A cluster (R19, R293, R380). -/
structure Cluster where
  /-- The cluster deque: the oldest record's index and the count. -/
  cdHead : Nat := 0
  cdCount : Nat := 0
  /-- The ready queue, oldest first: record address and launch slot (R443). -/
  ready : List (Nat × Nat) := []
  /-- Record pool slots in use, with the launch and flock that hold them (R375). -/
  pool : List (Nat × Nat × Nat) := []
  poolBusy : List Nat := []
  /-- Partition class: 0 prefill, 1 decode, 2 none (R380). -/
  cls : Nat := 2
  target : Nat := 2
  draining : Bool := false
  /-- When the drain began, and whether its flocks have been pre-empted (R381). -/
  drainAt : Nat := 0
  drainDue : Bool := false
  /-- Lines of the instruction cache: address space, line and its bytes (R19). -/
  icache : List (Nat × Nat × List Nat) := []
  rr : Nat := 0
  /-- The core whose fetch request is served first (R19). -/
  fetchRr : Nat := 0
  portBusy : List (List Nat) := []
  portGrants : List Nat := []
deriving DecidableEq, Repr

/-- A release on its way (R145): its scope, the address of its word, and its place in the order of long results, where a
poisoning is reported (R274). -/
structure Release where
  scope : Nat
  waddr : Nat
  id : Nat
deriving DecidableEq, Repr

/-- A flush marker on its way (R267): the hart whose release sent it, its destination and plane, and when it left. -/
structure FlushMark where
  hart : Nat
  dest : Nat
  plane : Nat
  since : Nat
deriving DecidableEq, Repr

/-- A store that has issued and not performed (R256, R258). -/
structure PendingStore where
  hart : Nat
  /-- Place of its first byte and its bytes. -/
  place : Nat
  data : List Nat
  /-- Bytes of `data` that it does not write (R137). -/
  skip : List Nat := []
  va : Nat
  pkg : Nat
  /-- It is a replica of a store to a multicast page (R268). -/
  replica : Bool := false
  slot : Option Nat := none
  flock : Nat := 0
  pc : Nat := 0
  /-- The PROGRESS word of an asynchronous failure (R391). -/
  progress : Nat := 0
  owner : Owner := .nobody
  /-- The step in which it issued (R267). -/
  since : Nat := 0
  /-- It is a release that its hart does not wait for (R145). -/
  release : Option Release := none
  /-- It was issued in user mode. -/
  user : Bool := true
deriving DecidableEq, Repr

/-- An atomic or a reduction in flight to its executing unit (R141 to R144). -/
structure PendingAtomic where
  hart : Nat
  /-- The return-buffer entry it fills; none for a reduction. -/
  long : Option Nat
  op : Nat
  size : Nat
  place : Nat
  va : Nat
  operands : List Nat
  /-- Operation class: 0 amo or red, 1 cas, 2 cas2.d, 3 depdec. -/
  kind : Nat
  d : Nat := 0
  /-- The PROGRESS word of an asynchronous failure (R391). -/
  progress : Nat := 0
  slot : Option Nat := none
  flock : Nat := 0
  pc : Nat := 0
  pkg : Nat := 0
  owner : Owner := .nobody
  since : Nat := 0
  release : Option Release := none
  /-- It is an acquire: no later send leaves before it (R142, R145). -/
  acq : Bool := false
  /-- It was issued in user mode. -/
  user : Bool := true
deriving DecidableEq, Repr

/-- A near-memory operation in flight (R146): 0 nmcas4, 1 nmenq, 2 nmchase. -/
structure PendingNear where
  hart : Nat
  long : Nat
  op : Nat
  addr : Nat
  arg : List Nat
  argPlace : Nat
  d : Nat
  asid : Nat
  user : Bool
  slot : Option Nat
  flock : Nat
  since : Nat := 0
  /-- The package whose it is, where another one has sent it (R141, R244). -/
  from_ : Option Nat := none
deriving DecidableEq, Repr

/-- A translation held by a TLB (R233): kind 0 micro (unit: core), 1 cluster, 2 walk cache (unit: die). -/
structure Tlb where
  kind : Nat
  unit : Nat
  asid : Nat
  /-- VA[54:16] of the page, or of the region a walk-cache entry covers. -/
  page : Nat
  large : Bool
  entry : Nat
  level : Nat := 1
  /-- The entry stands for the aligned group of 32 pages that holds its page (R232). -/
  group : Bool := false
deriving DecidableEq, Repr

/-- A walk in flight (R234): its die, address space and base page, and what it has read: the leaf, its address and whether
it is large, or a translation fault. -/
structure Walk where
  die : Nat
  asid : Nat
  page : Nat
  core : Nat
  leaf : Option (Nat × Nat × Bool)
deriving DecidableEq, Repr

/-- A move of a mapped page (R246): stage 0 COPY, 1 DRAIN, 2 SWITCH, 3 done. -/
structure PageMove where
  asid : Nat
  va : Nat
  leafAddr : Nat
  leaf : Nat
  src : Nat
  dst : Nat
  dstTier : Nat
  stage : Nat := 0
  /-- The 1,024 lines have been copied. -/
  copied : Bool := false
  logged : List Nat := []
  force : Bool := false
  poisoned : Nat := 0
  /-- The `pgin` move it serves: core and ticket sequence, and the launch and flock whose move it is. -/
  pgin : Option (Nat × Nat) := none
  slot : Option Nat := none
  flock : Nat := 0
  lease : Option Nat := none
deriving DecidableEq, Repr

/-- The atomics counted for a page (R244): counts by requester package. -/
structure PageCount where
  page : Nat
  counts : List (Nat × Nat)
  stamp : Nat
  /-- The address space and address by which it was last reached. -/
  asid : Nat := 0
  va : Nat := 0
deriving DecidableEq, Repr

/-- An agistment offer or lease held by a hub (R248, R252). -/
structure AgistLease where
  id : Nat
  lender : Nat
  borrower : Nat := 0
  lbase : Nat
  size : Nat
  dquota : Nat
  mwin : Nat
  backing : Nat
  lmap : Nat
  dtag : Nat
  core : Nat
  /-- R420: 1 OFFERED, 2 LENT, 3 MUSTERING, 4 ZEROING, 5 HELD, 6 RETURNING. -/
  state : Nat
  /-- The record's physical place, where STATE is written. -/
  recPlace : Nat
  /-- Pages dirty, pages being cleaned, and what RETURNING has counted (R225). -/
  dirtyPages : List Nat := []
  cleaning : List Nat := []
  moved : Nat := 0
  written : Nat := 0
  lowVa : Nat := 0
  highVa : Nat := 0
  poisonedPages : Nat := 0
  revoked : Bool := false
  notRemapped : Nat := 0
  /-- When its muster notice left (R252). -/
  since : Nat := 0
  /-- Pages placed in the lent region: page, address space and virtual address. -/
  placed : List (Nat × Nat × Nat) := []
deriving DecidableEq, Repr

/-- A lease range of a launch (R239, R368). -/
structure Lease where
  base : Nat
  size : Nat
  maxTier : Nat
  r : Bool
  w : Bool
  x : Bool
deriving DecidableEq, Repr

/-- The first-fault fields of a completion record (R390, R391). -/
structure FaultRec where
  cause : Nat
  async : Bool
  defer : Bool
  abort : Bool
  pc : Nat
  addr : Nat
  progress : Nat
  core : Nat
  strand : Nat
  drover : Bool
  flock : Nat
deriving DecidableEq, Repr

/-- The stages of a launch (R371). -/
inductive Stage where
  | slot | society | leases | proxy | place | run | done
deriving DecidableEq, Repr

/-- A pre-emption image (R399): the first of a flock, or a delta to the one before it. It holds what has been written since
then: registers, tiles and lines; and the strands, moves and fault statuses, and the checkpoint's messages. -/
structure Image where
  /-- The harts without their registers, and the registers whose dirty bits are set. -/
  harts : List (Nat × Hart)
  regs : List (Nat × RegWrite)
  moves : List (Nat × Move)
  faults : List (Nat × MoveFault)
  /-- The ticket sequence and the consumed products of each core. -/
  counts : List (Nat × Nat × Nat)
  /-- Tiles: the core, which tile, and its contents. -/
  za : List (Nat × Nat × Tile)
  msgs : List (Nat × InMsg)
  /-- Scratchpad lines: place / 64 and its bytes. -/
  lines : List (Nat × List Nat)
  /-- Those of the lines that were poisoned. -/
  bad : List Nat
  /-- What the drover programs that have stopped still have to write to their mailboxes, by core (R124). -/
  mails : List (Nat × Word) := []
  ckpt : Bool
deriving DecidableEq, Repr

/-- A flock (R366, R374, R401): status 0 unplaced, 1 resident, 2 draining, 3 saved, 4 ended. -/
structure Flock where
  num : Nat
  status : Nat := 0
  cluster : Nat := 0
  /-- Its strands, as hart numbers 8 · core + strand. -/
  strands : List Nat := []
  pool : List Nat := []
  prio : Nat := 0
  ckpt : Bool := false
  /-- Its images: the first, and the deltas that each name the one before as their base. -/
  images : List Image := []
  /-- Re-injections and anti-messages of a `rollback` that found no room while the flock drained, in order, with their
  core: they wait for its restore (R347). -/
  late : List (Nat × Msg) := []
deriving DecidableEq, Repr

/-- A launch in its slot (R365, R371, R372, R390). -/
structure Launch where
  id : Nat
  queue : Nat
  index : Nat
  asid : Nat
  stage : Stage := .slot
  recAddr : Nat
  entry : Nat
  strands : Nat
  acc : Nat
  htw : Bool
  proxy : Bool
  frm : Nat
  stackBytes : Nat
  cls : Nat
  depth : Nat
  localBytes : Nat
  clusterBytes : Nat
  society : Option (Nat × Nat)
  arenaBase : Nat
  arenaSize : Nat
  cimg : List Nat
  /-- The handler image: 4,096 bytes as 512 words; empty for none. -/
  himg : List Nat
  tvec : Nat
  onhang : Nat
  complete : Nat
  levels : List Nat
  leases : List Lease
  count : Nat
  arg : Nat
  signal : Nat
  flocks : List Flock := []
  fcount : Nat := 0
  first : Option FaultRec := none
  transient : Nat := 0
  aborted : Bool := false
  hang : Bool := false
  hangRuns : Nat := 0
  hungBefore : Bool := false
  /-- Since when it has been hung without a break (R298). -/
  hungSince : Option Nat := none
  /-- A write of the completion record failed: cause and address (R390). -/
  recFault : Option (Nat × Nat) := none
  /-- The fault fields of the record's memory are still to be written (R390). -/
  recordDue : Bool := false
  /-- Physical pages whose lease count it raised (R240). -/
  held : List Nat := []
  /-- The wait whose event has been posted: its reason and address (R373). -/
  waiting : Option (Nat × Nat) := none
  /-- When it entered PLACE or last had a flock placed, and whether that is 8 ms ago (R376). -/
  placedAt : Nat := 0
  aged : Bool := false
deriving DecidableEq, Repr

/-- A host queue's descriptor (R362). -/
structure Queue where
  rbase : Nat := 0
  error : Bool := false
  asid : Nat := 0
  en : Bool := false
  prio : Nat := 0
  logn : Nat := 0
  ridx : Nat := 0
  dbval : Nat := 0
  errIndex : Nat := 0
  errCause : Nat := 0
  errAddr : Nat := 0
deriving DecidableEq, Repr

/-- A packet that has started and not completed (R355). -/
structure Packet where
  queue : Nat
  index : Nat
  /-- 1 LAUNCH, 2 COPY, 3 BARRIER. -/
  type : Nat
  words : List Nat
  /-- BARRIER: signals still pending. COPY: lines done. -/
  pending : List Nat := []
  lines : Nat := 0
  leases : List Lease := []
  /-- Words of a launch record read and not yet in a slot. -/
  record : Option Launch := none
deriving DecidableEq, Repr

/-- A society live in the paddock (R312 to R316, R412). -/
structure Society where
  id : Nat
  scope : Nat
  slot : Nat
  floor : Word := 0
  colour : Nat := 0
  interval : Nat
  delta : Word := BitVec.allOnes 64
  lastMsg : Word := 0
  inRound : Bool := false
  /-- It has held timed work (R316). -/
  started : Bool := false
  rounds : Nat := 0
  /-- When the last round started, and the reports made in it (R315). -/
  roundAt : Nat := 0
  reports : Nat := 0
deriving DecidableEq, Repr

/-- The launch unit's state for a launch, as a checkpoint saves it (R404): its slot, the launch with its saved flocks and
their images, its continuations, its society, and the record slots in use, by cluster; and where it was written. -/
structure SavedLaunch where
  slot : Nat
  launch : Launch
  conts : List Cont
  society : Option Society
  busy : List (Nat × Nat)
  /-- The packet of the launch, which has not completed. -/
  packet : Option Packet := none
  /-- The lines of the image region that hold it: the address space they were written in, their addresses and their bytes. -/
  asid : Nat := 0
  lines : List (Nat × List Nat) := []
deriving DecidableEq, Repr

/-- A fabric port (R428, R431): STATE 0 up, 1 degraded, 2 failed, 3 training, 4 no partner. -/
structure Link where
  state : Nat := 3
  replays : Nat := 0
  retired : Nat := 0
deriving DecidableEq, Repr

/-- A multicast group installed at the hub and the switches (R270, R415). -/
structure Group where
  valid : Bool := false
  gen : Nat := 0
  op : Nat := 0
  members : List Nat := []
  /-- Old generations that a packet in flight may still carry, with their members. -/
  old : List (Nat × List Nat) := []
deriving DecidableEq, Repr

/-- An entry of the error log (R440). -/
structure LogEntry where
  time : Nat
  kind : Nat
  location : Nat
  cause : Nat
  transient : Bool
deriving DecidableEq, Repr

/-- A memory operation of software on the frames of a tier: lease count per frame (R240). -/
abbrev Counts := Store Nat

/-- A firmware bundle in a slot of the management flash (R439): the hash of the key that signs it, whether its signature
verifies under that key, and its version. -/
structure Bundle where
  keyHash : Nat := 0
  signed : Bool := true
  version : Nat := 0
deriving DecidableEq, Repr

/-- The hub, launch unit, fabric, host port and management (chapters 16 to 20). -/
structure Hub where
  pkg : Nat := 0
  asidtab : Word := 0
  migctl : Word := 0
  imgbase : Word := 0
  ckdctl : Word := 0
  mcgtab : Word := 0
  groups : Store Group := []
  queues : Store Queue := []
  packets : List Packet := []
  launches : Store (Option Launch) := []
  launchCount : Nat := 0
  conts : List Cont := []
  societies : List Society := []
  /-- The queue served last, for each priority (R376). -/
  rrQueues : List Nat := [1023, 1023, 1023, 1023, 1023, 1023, 1023, 1023]
  evbase : Word := 0
  widx : Nat := 0
  evridx : Nat := 0
  evdrop : Bool := false
  pmin : Nat := 2
  parten : Bool := false
  /-- When the partitioner last counted (R381). -/
  partAt : Nat := 0
  preq : Word := 0
  /-- The request in progress (R397): its slot, and its flock or the number that asks for the launch's state. -/
  preqJob : Option (Nat × Nat) := none
  hostwin : Word := 0
  paddock : BitVec 128 := 1
  links : Store Link := []
  /-- Destinations that have left a plane: package and plane (R430). -/
  awayPlanes : List (Nat × Nat) := []
  grains : Store Nat := []
  cycles : Store Nat := []
  /-- HBM (tier 1) and tier-3 frames in use, by place / 65536. -/
  usedFrames : List Nat := []
  leaseCounts : Counts := []
  moves : List PageMove := []
  counted : List PageCount := []
  /-- When the migration engine's epoch began (R244). -/
  epochAt : Nat := 0
  agist : List AgistLease := []
  takes : List Take := []
  vectors : List Nat := []
  errorLog : List LogEntry := []
  corrected : Nat := 0
  answers : List Word := []
  /-- The bytes of the last host read; none for Unsupported Request (R433 to R435). -/
  hostAnswer : Option (List Nat) := none
  booted : Bool := true
  bootFail : Bool := false
  activeSlot : Nat := 0
  slots : List Bundle := [{}, {}]
  /-- The fuses (R439): the hash of the firmware key, and the anti-rollback counter. -/
  keyFuse : Nat := 0
  rollback : Nat := 0
  pcap : Nat := 2800
  /-- The power of the package as measured, averaged over 1 ms, in W (R442). -/
  power : Nat := 0
  clockStep : Nat := 16
  /-- Issue is gated (R442). -/
  gating : Bool := false
  /-- When the clock last changed (R442). -/
  powerAt : Nat := 0
  /-- When each port sent its last keepalive, and when a flit last came to a switch from each port of the paddock's packages,
  32 · package + port (R432). -/
  keptAt : Store Nat := []
  flitAt : Store Nat := []
  /-- The MSI-X table, four doublewords for each of 16 vectors, and the pending bits (R433, R436). -/
  msix : Store Nat := []
  pendingBits : Nat := 0
  /-- The registers of the CXL ports' decoders (R438), by 4-byte word: 64 · port + 8 · decoder + word (log 100). -/
  cxl : Store Nat := []
  /-- Ports reported silent: 32 · package + port (R432). -/
  silent : List Nat := []
  failed : List Nat := []
  fenced : List Nat := []
  hostDown : Bool := false
  /-- The states of launches that checkpoints have written in the image region, the oldest first (R404). -/
  savedLaunches : List SavedLaunch := []
  /-- Flush markers on their way (R267). -/
  flushMarks : List FlushMark := []
  /-- Flush acknowledgements on their way: hart and destination. -/
  flushAcks : List (Nat × Nat) := []
  dieGrants : List (Nat × Nat) := []
deriving DecidableEq, Repr

/-- What a step of another agent acts on, and what the environment answers: the unit, an entry of one of its lists, an
address, values and a truth value. Read by the rows without an encoding. -/
structure EvArgs where
  core : Nat := 0
  strand : Nat := 0
  idx : Nat := 0
  addr : Nat := 0
  val : Nat := 0
  aux : Nat := 0
  ok : Bool := true
  list : List Nat := []
  /-- The check of a word that the step reads (R395): 1 uncorrectable, but its re-read succeeds; 2 uncorrectable again; 3
  correctable. `off` is where the word lies among the bytes that are read. -/
  ecc : Nat := 0
  off : Nat := 0
deriving DecidableEq, Repr

/-- The machine. -/
structure State where
  /-- The hart whose bundle issues: 8 · core + strand; strand 4 is the core's drover program. -/
  hart : Nat
  /-- The issue slot is held by `hart` (R17). -/
  issuing : Bool
  /-- The operands of the step of another agent under way. -/
  ev : EvArgs
  /-- Steps of other agents that happen next, in order, with their operands (log 3). -/
  agenda : List (Instr × EvArgs)
  /-- Strands and drover programs by hart number. -/
  harts : Store Hart
  cores : Store Core
  clusters : Store Cluster
  /-- Memory by place (R230, R105): each package's local physical space, and the scratchpads. -/
  mem : List Host.Cell
  /-- Poisoned 64-byte lines, by place / 64 (R132). -/
  poison : List Nat
  /-- Lines of scratchpads written since a flock start (R399). -/
  written : List Nat
  stores : List PendingStore
  atomics : List PendingAtomic
  nears : List PendingNear
  tlbs : List Tlb
  walks : List Walk
  /-- Requests that wait for a walker with 64 walks in flight, the oldest first: die, address space and page (R234). -/
  walkQueue : List (Nat × Nat × Nat)
  hub : Hub
  /-- Free values used so far (log 4). -/
  fresh : Nat
  /-- Steps taken (log 5). -/
  cycle : Nat
deriving DecidableEq, Repr

/-- The machine right after reset: boot is over (R439), every scratchpad is zero, no queue is enabled, no flock is
resident and every strand is idle. -/
def State.reset : State where
  hart := 0
  issuing := false
  ev := {}
  agenda := []
  harts := []
  cores := []
  clusters := []
  mem := []
  poison := []
  written := []
  stores := []
  atomics := []
  nears := []
  tlbs := []
  walks := []
  walkQueue := []
  hub := {}
  fresh := 0
  cycle := 0

end Sys2Proof.Machine
end

