-- ==== Sys2Proof/Machine/Units.lean ====
section
/-!
DEFINITION. The units, registers and memory of the machine: one accessor for each, the return buffer, and memory by
place.
-/

namespace Sys2Proof.Machine

/-- The range that an access touched through the walker: the hart and address space, the address and bytes, and whether
it writes. -/
structure Walked where
  hart : Nat
  asid : Nat
  va : Nat
  n : Nat
  write : Bool
deriving DecidableEq, Repr

/-- Why the body of a meaning ends without its effect. -/
inductive Stop where
  /-- A precise fault: cause and TVAL (R384). -/
  | trap (cause tval : Nat)
  /-- A precise fault that data read raise: the walker has set A in the leaves of the pages read (R132, R235). -/
  | trapSeen (r : Walked) (cause tval : Nat)
  /-- A precise fault whose TVAL no rule states: a free value (log 4). -/
  | trapFree (cause : Nat)
  /-- A fault delivered at the marker (R33, R319). -/
  | late (cause tval : Nat)
  /-- Such a fault of data read. -/
  | lateSeen (r : Walked) (cause tval : Nat)
  /-- A precise fault that its unit has already recorded (R153, R386). -/
  | trapRecorded (cause tval : Nat)
  /-- A precise fault with a progress word (R391). -/
  | trapAt (cause tval progress : Nat)
  /-- The word waits at issue (R14). -/
  | wait
  /-- The word waits at issue, and what it waits for has begun in the state. -/
  | waitIn (s : State)
  /-- The word waits at issue for a walker with 64 walks in flight: the request that queues there (R234). -/
  | waitWalk (die asid page : Nat)
  /-- A suspension point waits for a free record slot (R40). -/
  | waitSlot
  | fault (f : Fault)
  | refuse (r : Refusal)
deriving DecidableEq, Repr

/-- The body of a meaning: its effect, or why it has none. -/
abbrev Act := Except Stop

/-- All ones in 64 bits: an untimed timestamp (R35). -/
def allOnes64 : Nat := 18446744073709551615

/-! ### Units -/

namespace State

/-- The hart of a number. -/
def hartAt (s : State) (k : Nat) : Hart := Store.get {} s.harts k

/-- A hart replaced. -/
def setHart (s : State) (k : Nat) (h : Hart) : State := { s with harts := Store.set {} s.harts k h }

/-- The hart that issues. -/
def me (s : State) : Hart := s.hartAt s.hart

/-- The issuing hart replaced. -/
def setMe (s : State) (h : Hart) : State := s.setHart s.hart h

/-- The core of the issuing hart. -/
def coreNo (s : State) : Nat := s.hart / 8

/-- The strand index of the issuing hart in its core. -/
def strandNo (s : State) : Nat := s.hart % 8

/-- The issuing hart is a drover program (R122). -/
def isDrover (s : State) : Bool := s.hart % 8 == 4

/-- The core of a number. -/
def coreAt (s : State) (c : Nat) : Core := Store.get {} s.cores c

/-- A core replaced. -/
def setCore (s : State) (c : Nat) (x : Core) : State := { s with cores := Store.set {} s.cores c x }

/-- The issuing hart's core. -/
def myCore (s : State) : Core := s.coreAt s.coreNo

/-- The cluster of a number. -/
def clusterAt (s : State) (c : Nat) : Cluster := Store.get {} s.clusters c

/-- A cluster replaced. -/
def setCluster (s : State) (c : Nat) (x : Cluster) : State := { s with clusters := Store.set {} s.clusters c x }

/-- The launch of a slot. -/
def launchAt (s : State) (k : Nat) : Option Launch := Store.get none s.hub.launches k

/-- A launch slot replaced. -/
def setLaunch (s : State) (k : Nat) (l : Option Launch) : State :=
  { s with hub := { s.hub with launches := Store.set none s.hub.launches k l } }

/-- The launch a hart belongs to. -/
def launchOf (s : State) (k : Nat) : Option Launch :=
  match (s.hartAt k).slot with
  | some n => s.launchAt n
  | none => none

/-- The flock of a hart. -/
def flockOf (s : State) (k : Nat) : Option Flock :=
  match s.launchOf k with
  | some l => l.flocks.find? (fun f => f.num == (s.hartAt k).flock)
  | none => none

/-- A queue descriptor (R362). -/
def queueAt (s : State) (q : Nat) : Queue := Store.get {} s.hub.queues q

/-- A queue descriptor replaced. -/
def setQueue (s : State) (q : Nat) (x : Queue) : State :=
  { s with hub := { s.hub with queues := Store.set {} s.hub.queues q x } }

/-- A fresh free value (log 4): the value, and the state that counts it. -/
def freeValue (s : State) : Word × State := (Config.freeWord s.fresh, { s with fresh := s.fresh + 1 })

end State

/-- The cluster of a core (R1: 16 cores). -/
def clusterOf (c : Nat) : Nat := c / 16
/-- The die of a core (R1: 24 clusters of 16 cores). -/
def dieOf (c : Nat) : Nat := c / 384

/-! ### Registers (R21, R22) -/

/-- A scalar register as a word of this bundle reads it: s0 is zero, and a pair bundle reads what stood before it. -/
def Hart.readS (h : Hart) (n : Nat) : Word :=
  if n = 0 then 0
  else match h.snap with
    | some p => Store.get 0 p.s n
    | none => Store.get 0 h.s n

/-- Every register is dirty: the hardware has set them all (R37, R122, R399). -/
def allDirty : Nat := 2 ^ 104 - 1

/-- A short result (R29): writes to s0 are discarded, and the register is dirty (R399). -/
def Hart.writeS (h : Hart) (n : Nat) (x : Word) : Hart :=
  if n = 0 then h else { h with s := Store.set 0 h.s n x, dirty := h.dirty ||| 2 ^ n }

/-- An f register. -/
def Hart.readF (h : Hart) (n : Nat) : Word := Store.get 0 h.f n
/-- A vector register. -/
def Hart.readV (h : Hart) (n : Nat) : VReg := Store.get 0 h.v n
/-- A mask register: m0 reads all ones. -/
def Hart.readM (h : Hart) (n : Nat) : MReg := if n = 0 then BitVec.allOnes 128 else Store.get 0 h.m n

/-- A register write of a long result: writes to s0 and m0 are discarded (R21). -/
def Hart.applyWrite (h : Hart) : RegWrite → Hart
  | .s d x => h.writeS d x
  | .f d x => { h with f := Store.set 0 h.f d x, dirty := h.dirty ||| 2 ^ (32 + d) }
  | .v d x => { h with v := Store.set 0 h.v d x, dirty := h.dirty ||| 2 ^ (64 + d) }
  | .m d x => if d = 0 then h else { h with m := Store.set 0 h.m d x, dirty := h.dirty ||| 2 ^ (96 + d) }

namespace State

/-- s[n] of the issuing hart, as a number. -/
def rs (s : State) (n : Nat) : Nat := (s.me.readS n).toNat
/-- f[n], as a number. -/
def rf (s : State) (n : Nat) : Nat := (s.me.readF n).toNat
/-- v[n]. -/
def rv (s : State) (n : Nat) : VReg := s.me.readV n
/-- m[n], as a number. -/
def rm (s : State) (n : Nat) : Nat := (s.me.readM n).toNat

/-- A short result of the issuing hart. -/
def shortS (s : State) (d : Nat) (x : Nat) : State := s.setMe (s.me.writeS d (BitVec.ofNat 64 x))

/-- The address of the issuing word (R383). -/
def wordAddr (s : State) : Nat := s.me.pc + 4 * s.me.word

/-- The address a precise fault of this word names and resumes at (R384): the bundle of a pair, else the word. -/
def faultAddr (s : State) : Nat := if s.me.snap.isSome then s.me.pc else s.wordAddr

/-- A long result enters the return buffer (R30, R32). In a pair bundle the class C word's entry stands before its
partner's, whose effects are made first. -/
def pushLong (s : State) (r : LongRes) : State :=
  let h := s.me
  let r := { r with id := h.nextLong, waddr := s.wordAddr }
  let longs := match h.snap with
    | some p => h.longs.take p.longs ++ r :: h.longs.drop p.longs
    | none => h.longs ++ [r]
  s.setMe { h with longs := longs, nextLong := h.nextLong + 1 }

/-- A long result that is known at issue. -/
def long (s : State) (writes : List RegWrite) (flags : Nat := 0) : State :=
  s.pushLong { id := 0, waddr := 0, writes := writes, flags := flags }

/-- A long result that comes from memory: the addresses it was read at. -/
def longFrom (s : State) (src : List Nat) (writes : List RegWrite) : State :=
  s.pushLong { id := 0, waddr := 0, writes := writes, src := src }

/-- A fault deferred to the marker (R33). -/
def deferFault (s : State) (cause tval : Nat) : State :=
  s.pushLong { id := 0, waddr := 0, fault := some (cause, tval) }

/-- A fault at the marker of a word that is no long instruction: it takes no entry of the sixteen (R32, R145). -/
def deferExtra (s : State) (cause tval : Nat) : State :=
  s.pushLong { id := 0, waddr := 0, extra := true, fault := some (cause, tval) }

/-- Long results that write an s register, an f register, vector registers or a mask register. -/
def longS (s : State) (d x : Nat) (flags : Nat := 0) : State := s.long [.s d (BitVec.ofNat 64 x)] flags
def longF (s : State) (d x : Nat) (flags : Nat := 0) : State := s.long [.f d (BitVec.ofNat 64 x)] flags
def longV (s : State) (d : Nat) (x : VReg) (flags : Nat := 0) : State := s.long [.v d x] flags
def longM (s : State) (d x : Nat) (flags : Nat := 0) : State := s.long [.m d (BitVec.ofNat 128 x)] flags

end State

/-! ### Memory by place (R105, R230) -/

/-- Place of a system physical address: package id and local address together (R229, R230). -/
def placeOf (pkg loc : Nat) : Nat := pkg * 2 ^ 45 + loc
/-- Place of a byte of a core's local memory. -/
def placeLocal (c off : Nat) : Nat := 0xF4 * 2 ^ 56 + c * 2 ^ 19 + off
/-- Place of a byte of a cluster scratchpad. -/
def placeCluster (c off : Nat) : Nat := 0xF5 * 2 ^ 56 + c * 2 ^ 23 + off
/-- Place of a byte of a die scratchpad. -/
def placeDie (d off : Nat) : Nat := 0xF6 * 2 ^ 56 + d * 2 ^ 27 + off
/-- The place lies in a scratchpad. -/
def isScratch (p : Nat) : Bool := decide (2 ^ 63 ≤ p)

/-! ### Ranges of local physical addresses (R230) -/

/-- The tier of a local physical address: 0 device, 1 HBM, 3 expansion, 4 CXL, 5 host; 7 where nothing lies. -/
def localTier (a : Nat) : Nat :=
  if a < 0x8000000000 then 1
  else if a < 0x10000000000 then 0
  else if a < 0x40000000000 then 7
  else if a < 0xA0000000000 then 3
  else if a < 0x100000000000 then 7
  else if a < 0x180000000000 then 4
  else if a < 0x200000000000 then 5
  else 7

/-- Package of a place. -/
def pkgOfPlace (p : Nat) : Nat := p / 2 ^ 45
/-- Local physical address of a place. -/
def localOfPlace (p : Nat) : Nat := p % 2 ^ 45

/-- What a byte that nothing has written reads as (log 1). -/
def unlistedByte : Byte := 0

/-- Memory is in its canonical form. -/
abbrev MemoryWf (m : List Host.Cell) : Prop := Store.wf unlistedByte m = true

namespace State

/-- One byte of memory at its home. -/
def byteAt (s : State) (p : Nat) : Nat := (Store.get unlistedByte s.mem p).toNat

/-- `n` bytes from a place, the lowest first. -/
def bytesAt (s : State) (p n : Nat) : List Nat := (upFrom p n).map s.byteAt

/-- `n` bytes from a place, little-endian. -/
def readAt (s : State) (p n : Nat) : Nat := ofBytes (s.bytesAt p n)

/-- One byte written at its home. -/
def setByte (s : State) (p x : Nat) : State := { s with mem := Store.set unlistedByte s.mem p (BitVec.ofNat 8 x) }

/-- Bytes written from a place up. -/
def writeBytes (s : State) (p : Nat) : List Nat → State
  | [] => s
  | x :: t => (s.setByte p x).writeBytes (p + 1) t

/-- Lines of 64 bytes that a write of `n` bytes touches. -/
def linesOf (p n : Nat) : List Nat := upFrom (p / 64) ((p % 64 + n + 63) / 64)

/-- The checkpoint-dirty bit of a page of this package (R413). -/
def markDirtyBit (s : State) (p : Nat) : State :=
  let c := s.hub.ckdctl.toNat
  if bit c 0 && pkgOfPlace p == s.hub.pkg then
    let loc := localOfPlace p
    let n := if localTier loc = 1 then some (loc / 65536)
      else if localTier loc = 3 then some (2 ^ 23 + (loc - 0x40000000000) / 65536) else none
    match n with
    | some n =>
      let at_ := placeOf s.hub.pkg (bits c 16 29 * 65536 + n / 8)
      s.setByte at_ (s.byteAt at_ ||| 2 ^ (n % 8))
    | none => s
  else s

/-- What the memory controller and the hub note of a write: the checkpoint-dirty bit (R413), the lines of a page whose
copy is under way (R246), and a lent page that becomes dirty (R250). -/
def noteWrite (s : State) (p n : Nat) : State :=
  let s := if s.hub.ckdctl = 0 then s else (s.markDirtyBit p).markDirtyBit (p + n - 1)
  let s := if s.hub.moves.isEmpty then s else
    { s with hub := { s.hub with moves := s.hub.moves.map (fun m =>
      if m.stage = 0 ∧ p / 65536 = m.src / 65536 then
        { m with logged := m.logged ++ (linesOf p n).filter (fun l => !m.logged.contains l) } else m) } }
  if s.hub.agist.isEmpty then s else
    { s with hub := { s.hub with agist := s.hub.agist.map (fun a =>
      let base := placeOf a.lender a.lbase
      if 5 ≤ a.state ∧ base ≤ p ∧ p < base + a.size then
        let i := (p - base) / 65536
        { a with dirtyPages := if a.dirtyPages.contains i then a.dirtyPages else a.dirtyPages ++ [i] }
      else a) } }

/-- A write to places that would make clean lent pages dirty beyond the quota waits in the fabric (R250). -/
def quotaHoldsAny (s : State) (l : List Nat) : Bool :=
  s.hub.agist.any (fun a =>
    let base := placeOf a.lender a.lbase
    let mine := l.filter (fun p => decide (5 ≤ a.state ∧ base ≤ p ∧ p < base + a.size))
    let fresh := ((mine.map (fun p => (p - base) / 65536)).filter (fun i => !a.dirtyPages.contains i)).eraseDups
    !fresh.isEmpty && decide (a.dquota <
      (a.dirtyPages.length + (a.cleaning.filter (fun i => !a.dirtyPages.contains i && !fresh.contains i)).length +
        fresh.length) * 65536))

/-- A write to one place waits at the quota. -/
def quotaHolds (s : State) (p : Nat) : Bool := s.quotaHoldsAny [p]

/-- A write performs at its home: a whole line is cleaned of poison (R132), and written scratchpad lines are noted for
the pre-emption image (R399). -/
def perform (s : State) (p : Nat) (data : List Nat) : State :=
  let whole := (linesOf p data.length).filter (fun l => decide (p ≤ 64 * l) && decide (64 * l + 64 ≤ p + data.length))
  let s := s.writeBytes p data
  let s := if isScratch p then s else s.noteWrite p data.length
  let s := if s.poison = [] then s else { s with poison := s.poison.filter (fun l => !whole.contains l) }
  if isScratch p then
    { s with written := s.written ++ (linesOf p data.length).filter (fun l => !s.written.contains l) }
  else s

/-- Some line of a range is poisoned (R132). -/
def poisoned (s : State) (p n : Nat) : Bool :=
  s.poison != [] && (linesOf p n).any (fun l => s.poison.contains l)

/-- A little-endian word written at its home. -/
def writeAt (s : State) (p n x : Nat) : State := s.perform p (bytesOf n x)

end State

/-- The bytes of a write that a mask leaves out are not written (R137): `skip` lists them. -/
def State.performMasked (s : State) (p : Nat) (data skip : List Nat) : State :=
  if skip.isEmpty then s.perform p data
  else (List.zip (upFrom 0 data.length) data).foldl (fun s e =>
    if skip.contains e.1 then s else s.perform (p + e.1) [e.2]) s

/-- Bytes of a write, some of which a mask leaves out, cut at lines of 64 bytes: place, bytes and the bytes left out. -/
def linePieces (p : Nat) (data : List (Option Nat)) : List (Nat × List Nat × List Nat) :=
  ((State.linesOf p data.length).map (fun l =>
    let lo := max p (64 * l)
    let d := (data.drop (lo - p)).take (64 * l + 64 - lo)
    (lo, d.map (fun x => x.getD 0), (upFrom 0 d.length).filter (fun i => (d.getD i none).isNone)))).filter
      (fun e => e.2.2.length < e.2.1.length)

/-- An access of this package to a place of another one goes by the fabric (R266). -/
def State.remote (s : State) (p : Nat) : Bool := !isScratch p && pkgOfPlace p != s.hub.pkg

/-- The package is in the paddock (R424, R425). -/
def State.inPaddock (s : State) (pkg : Nat) : Bool := decide (pkg < 2 ^ 14) && s.hub.paddock.toNat.testBit (pkg / 128)

/-- A port of the package. -/
def State.linkAt (s : State) (n : Nat) : Link := Store.get {} s.hub.links n

/-- The links of a plane that work: its working set (R424, R430). -/
def State.upLinks (s : State) (plane : Nat) : List Nat := (upFrom (4 * plane) 4).filter (fun i => (s.linkAt i).state == 0)

/-- The planes that lead to a package: they have a working link, and it has not left them (R430). -/
def State.planesTo (s : State) (pkg : Nat) : List Nat :=
  (upFrom 0 8).filter (fun n => !(s.upLinks n).isEmpty && !s.hub.awayPlanes.contains (pkg, n))

/-! ### Path planes (R266, R430) -/

/-- The plane of an access of this package to a line of another one: by the hash of the package and the line over the
planes that lead there; none where no plane does. -/
def State.planeOf (s : State) (p : Nat) : Option Nat :=
  let l := s.planesTo (pkgOfPlace p)
  if l.isEmpty then none else some (nth l (Config.pathHash 0 s.hub.pkg (p / 64) % l.length))

/-- Two places of other packages whose accesses go one path, which delivers them in the order they were sent. Packets are
sent in the order in which their accesses issue (log 76). -/
def State.samePath (s : State) (p q : Nat) : Bool :=
  s.remote p && s.remote q && pkgOfPlace p == pkgOfPlace q && s.planeOf p == s.planeOf q

/-- Something of this package goes ahead of an access to a place on its path (R266). -/
def State.placeBusy (s : State) (p : Nat) : Bool :=
  s.remote p && (s.stores.any (fun t => t.release.isNone && s.samePath t.place p) ||
    s.atomics.any (fun a => a.release.isNone && s.samePath a.place p))

/-! ### Homes that no access reaches (R396, R438) -/

/-- Word `i` of decoder `n` of a CXL port (R438). -/
def Hub.decoderWord (u : Hub) (port n i : Nat) : Nat := Store.get 0 u.cxl (64 * port + 8 * n + i)

/-- A committed decoder of a CXL port maps a local physical address: words 0 and 1 are its base, words 2 and 3 its size, and
bit 10 of word 4 says that it is committed (R438; log 100). -/
def Hub.decodes (u : Hub) (port n a : Nat) : Bool :=
  let base := u.decoderWord port n 0 + 2 ^ 32 * u.decoderWord port n 1
  let size := u.decoderWord port n 2 + 2 ^ 32 * u.decoderWord port n 3
  bit (u.decoderWord port n 4) 10 && decide (base ≤ a ∧ a < base + size)

/-- A local physical address in the CXL range that no decoder of its port maps (R438): port 0 has the lower 4 TiB. -/
def Hub.cxlHole (u : Hub) (a : Nat) : Bool :=
  localTier a == 4 && !(upFrom 0 8).any (fun n => u.decodes (if a < 0x140000000000 then 0 else 1) n a)

/-- A place whose home no access reaches: of a fenced package, of one outside the paddock (R4, R425), of one to which no plane
leads (R396), or in a hole of the CXL range (R438). -/
def State.homeLost (s : State) (p : Nat) : Bool :=
  !isScratch p && (s.hub.fenced.contains (pkgOfPlace p) || (s.remote p &&
      (!s.inPaddock (pkgOfPlace p) || (s.planesTo (pkgOfPlace p)).isEmpty)) ||
    (pkgOfPlace p == s.hub.pkg && s.hub.cxlHole (localOfPlace p)))

end Sys2Proof.Machine
end

