-- ==== Sys2Proof/Machine/Hub.lean ====
section
/-!
DEFINITION. The hub's device registers (R362 to R364, R373, R380, R397, R416, R424, R431, R434), the vectors and the
error log.
-/

namespace Sys2Proof.Machine

/-! ### Error-log kinds and package state -/

/-- Kinds of error-log entries (log 13). -/
def logEcc : Nat := 1
def logParity : Nat := 2
def logMatrix : Nat := 3
def logLink : Nat := 4
def logHost : Nat := 5
def logPower : Nat := 6
def logPackage : Nat := 7
def logFirmware : Nat := 8

/-- A doubleword of the MSI-X table: four for each vector, the last of them its control word, which masks the vector from
reset on (R436; log 99). -/
def Hub.msixWord (u : Hub) (i : Nat) : Nat := Store.get (if i % 4 = 3 then 1 else 0) u.msix i

namespace State

/-- The core cycle count of a die since its reset (R407). -/
def cycleOf (s : State) (die : Nat) : Nat := s.cycle - Store.get 0 s.hub.cycles die

/-- An interrupt vector raised (R436). -/
def raiseVector (s : State) (v : Nat) : State :=
  { s with hub := { s.hub with
    vectors := s.hub.vectors ++ [v],
    pendingBits := if bit (s.hub.msixWord (4 * v + 3)) 0 then s.hub.pendingBits ||| 2 ^ v else s.hub.pendingBits } }

/-- An entry of the error log: the newest 4,096 stay (R440). -/
def logError (s : State) (kind location cause : Nat) (transient : Bool) : State :=
  let e : LogEntry := { time := s.cycle, kind := kind, location := location, cause := cause, transient := transient }
  let log := s.hub.errorLog ++ [e]
  let s := { s with hub := { s.hub with errorLog := log.drop (log.length - 4096) } }
  if transient then s else s.raiseVector 2

/-- A transient error counted for a launch and in the error log (R395). -/
def countTransient (s : State) (slot : Option Nat) (kind location cause : Nat) : State :=
  let s := match slot with
    | some n => (match s.launchAt n with
      | some l => s.setLaunch n (some { l with transient := l.transient + 1 })
      | none => s)
    | none => s
  s.logError kind location cause true

/-- A queue enters ERROR with its first error record (R359). -/
def queueError (s : State) (q idx cause addr : Nat) : State :=
  let x := s.queueAt q
  if x.error then s
  else (s.setQueue q { x with error := true, errIndex := idx, errCause := cause, errAddr := addr }).raiseVector 1

/-- A doorbell write (R352, R363). -/
def doorbell (s : State) (q v : Nat) : State :=
  let x := s.queueAt q
  if v < x.dbval then s
  else if x.ridx + 2 ^ x.logn < v then s.queueError q x.ridx 0x43 v
  else s.setQueue q { x with dbval := v }

/-- The word at 0x08 of a queue descriptor (R362). -/
def queueWord (x : Queue) : Nat :=
  bool1 x.error * 2 ^ 30 + x.asid * 2 ^ 16 + bool1 x.en * 2 ^ 11 + x.prio * 2 ^ 8 + x.logn

/-- A write of that word: RESET, EN and PRIO always act; ASID and LOGN while the queue is disabled (R362, R364). -/
def writeQueueWord (x : Queue) (v : Nat) : Queue :=
  let l := bits v 0 5
  let y := if x.en then x else
    { x with asid := bits v 16 12, logn := if 1 ≤ l ∧ l ≤ 16 then l else x.logn }
  let y := if bit v 63 then
    { y with error := false, errIndex := 0, errCause := 0, errAddr := 0, ridx := y.dbval } else y
  { y with en := bit v 11, prio := bits v 8 3 }

/-- LINKSTAT (R431). -/
def linkstat (s : State) (n : Nat) : Nat :=
  let l := s.linkAt n
  l.retired * 2 ^ 32 + min l.replays 0xFFFF * 2 ^ 16 + (n / 4) * 8 + l.state

/-- The flock of a slot rewritten. -/
def updateFlock (s : State) (slot num : Nat) (g : Flock → Flock) : State :=
  match s.launchAt slot with
  | none => s
  | some l => s.setLaunch slot (some { l with flocks := l.flocks.map (fun f => if f.num = num then g f else f) })

/-- A flock that is resident (R401). -/
def residentFlock (s : State) (slot num : Nat) : Bool :=
  match s.launchAt slot with
  | none => false
  | some l => l.flocks.any (fun f => f.num == num && f.status == 1)

/-- An entry of the launch-unit event ring (R373), and vector 0. Without a ring, with a full one, or where the write
fails, the entry is dropped. -/
def postEvent (s : State) (queue index reason addr : Nat) : State :=
  let u := s.hub
  let base := u.evbase.toNat
  let tier := localTier (localOfPlace base)
  let ok := base != 0 && pkgOfPlace base == u.pkg && (tier == 1 || tier == 3 || tier == 5) &&
    (u.widx + 256 - u.evridx) % 256 != 128
  if ok then
    let data := [queue % 2 ^ 10 + index % 2 ^ 48 * 2 ^ 16, reason, addr, s.cycleOf 0 % 2 ^ 64].flatMap (bytesOf 8)
    let t := s.perform (base + 32 * (u.widx % 128)) data
    ({ t with hub := { t.hub with widx := (u.widx + 1) % 256 } } : State).raiseVector 0
  else { s with hub := { u with evdrop := true } }

/-- A strand released from its `herd` (R20, R398). -/
def leaveHerd (s : State) (k : Nat) : State :=
  let h := s.hartAt k
  if h.herd.isSome then s.setHart k { h with herd := none, herdPassed := true } else s

/-- The image of a flock fits in the image region (R413). No rule states an image's size: a region of size 0 holds none,
and for others the answer is a free value (log 4). -/
def imageFits (s : State) : Bool × State :=
  (bits s.hub.imgbase.toNat 0 16 != 0 && bit s.freeValue.1.toNat 0, s.freeValue.2)

/-- The pre-emption of a resident flock begins (R398, R401): it drains, its strands released from `herd`; where its image
does not fit, it stays resident and an event is posted (R413). Whether it began. -/
def startDrain (s : State) (slot num : Nat) (ckpt : Bool) : State × Bool :=
  match s.launchAt slot with
  | none => (s, false)
  | some l =>
    let (fits, s) := s.imageFits
    if fits then
      let strands := ((l.flocks.find? (fun f => f.num == num)).map (·.strands)).getD []
      (strands.foldl leaveHerd (s.updateFlock slot num (fun f => { f with status := 2, ckpt := ckpt })), true)
    else (s.postEvent l.queue l.index 4 s.hub.imgbase.toNat, false)

/-- A request of PREQ is in progress (R397). -/
def startJob (s : State) (slot num : Nat) : State := { s with hub := { s.hub with preqJob := some (slot, num) } }

/-- PREQ as it is read: its fields, and BUSY (R397). -/
def readPreq (s : State) : Nat := s.hub.preq.toNat + bool1 s.hub.preqJob.isSome * 2 ^ 62

/-- The FLOCK number that asks for the launch's state (R404). -/
def noFlock : Nat := 0xFFFFFFFF

/-- A write of PREQ (R397): a request for a resident flock begins its drain; one with CKPT and no flock is for the
launch's state (R404). A write that starts no request leaves the one in progress. -/
def writePreq (s : State) (v : Nat) : State :=
  if s.hub.preqJob.isSome && bit v 63 then s
  else
    let slot := bits v 32 12
    let num := bits v 0 32
    let s : State := { s with hub := { s.hub with
      preq := BitVec.ofNat 64 (bits v 0 44 + bool1 (bit v 61) * 2 ^ 61) } }
    if bit v 63 && s.residentFlock slot num then
      let (s, began) := s.startDrain slot num (bit v 61)
      if began then s.startJob slot num else s
    else if bit v 63 && bit v 61 && num == noFlock && (s.launchAt slot).isSome then s.startJob slot noFlock
    else s

/-- The request in progress is over. -/
def clearBusy (s : State) (slot num : Nat) : State :=
  if s.hub.preqJob = some (slot, num) then { s with hub := { s.hub with preqJob := none } } else s

/-- PARTCTL (R380): turning on sets the classes, turning off ends every drain. -/
def writePartctl (s : State) (v : Nat) : State :=
  let en := bit v 0
  let was := s.hub.parten
  let s := { s with hub := { s.hub with pmin := min (bits v 8 5) 12, parten := en } }
  if en && !was then
    (upFrom 0 96).foldl (fun s c =>
      let k := if c % 24 < 12 then 0 else 1
      s.setCluster c { s.clusterAt c with cls := k, target := k, draining := false, drainAt := 0, drainDue := false }) s
  else if !en && was then
    (upFrom 0 96).foldl (fun s c =>
      s.setCluster c { s.clusterAt c with cls := 2, target := 2, draining := false, drainAt := 0, drainDue := false }) s
  else s

/-- EVBASE (R373). -/
def writeEvbase (s : State) (v : Nat) : State :=
  { s with hub := { s.hub with evbase := BitVec.ofNat 64 (bits v 12 48 * 2 ^ 12), widx := 0, evridx := 0, evdrop := false } }

/-- STATE written into the hub's own copy of a lease record, as a store at .pk (R420). -/
def writeLeaseState (s : State) (p state : Nat) : State :=
  s.writeAt (p + 0x38) 8 (setBits (s.readAt (p + 0x38) 8) 8 3 state)

/-- Leases lent to packages that have left the paddock are mustered, so that their windows run (R253, R426). -/
def cutLent (s : State) : State :=
  let cut := fun (a : AgistLease) => a.state == 2 && !s.inPaddock a.borrower
  let places := (s.hub.agist.filter cut).map (·.recPlace)
  let s := { s with hub := { s.hub with agist := s.hub.agist.map (fun a =>
    if cut a then { a with state := 3, since := s.cycle } else a) } }
  places.foldl (fun s p => s.writeLeaseState p 3) s

/-- PADDOCK (R424): the low or the high half. The lender's part of a cut begins at once (R426); the borrower's are steps of
their own (R254). -/
def writePaddock (s : State) (high : Bool) (v : Nat) : State :=
  let p := s.hub.paddock.toNat
  let n := if high then p % 2 ^ 64 + (v % 2 ^ 64) * 2 ^ 64 else (p / 2 ^ 64) * 2 ^ 64 + v % 2 ^ 64
  ({ s with hub := { s.hub with paddock := BitVec.ofNat 128 n } } : State).cutLent

/-- The first of the two words of the CXL ports' decoders at a device address (R438): decoder `n` of a port stands at offset
0x1210 + 32 · n of its register space. Its layout is CXL's; where it stands is the model's choice (log 100). -/
def cxlWord (a : Nat) : Option Nat :=
  let o := (a - 0x8000060000) % 0x10000
  if 0x8000060000 ≤ a ∧ a < 0x8000080000 ∧ 0x1210 ≤ o ∧ o < 0x1310 then
    some (64 * ((a - 0x8000060000) / 0x10000) + (o - 0x1210) / 4)
  else none

/-- A decoder's word written (R438): base and size have a granule of 256 MiB, and a decoder that is asked to commit, bit 9 of
its control word, is committed, bit 10. -/
def writeDecoder (s : State) (i v : Nat) : State :=
  let x := v % 2 ^ 32
  let x := if i % 8 = 0 ∨ i % 8 = 2 then x / 2 ^ 28 * 2 ^ 28 else if i % 8 = 4 then setBits x 10 1 (x / 2 ^ 9 % 2) else x
  { s with hub := { s.hub with cxl := Store.set 0 s.hub.cxl i x } }

/-- A doubleword of the device range, or none where no rule names a register. -/
def readReg (s : State) (a : Nat) : Option Nat :=
  if 0x8000010000 ≤ a ∧ a < 0x8000020000 then
    let x := s.queueAt ((a - 0x8000010000) / 64)
    let o := (a - 0x8000010000) % 64
    some (if o = 0 then x.rbase else if o = 8 then queueWord x else if o = 16 then x.ridx else if o = 24 then x.dbval
      else if o = 32 then x.errIndex else if o = 40 then x.errCause else if o = 48 then x.errAddr else 0)
  else if 0x8000020000 ≤ a ∧ a < 0x8000022000 then some (s.queueAt ((a - 0x8000020000) / 8)).dbval
  else if a = 0x8000030000 then some s.hub.evbase.toNat
  else if a = 0x8000030008 then some (s.hub.evridx * 2 ^ 16 + s.hub.widx * 2 ^ 8 + bool1 s.hub.evdrop)
  else if a = 0x8000030010 then some (s.hub.pmin * 2 ^ 8 + bool1 s.hub.parten)
  else if a = 0x8000030018 then some s.readPreq
  else if a = 0x8000030020 then some s.hub.hostwin.toNat
  else if 0x8000040000 ≤ a ∧ a < 0x8000040800 then
    let o := (a - 0x8000040000) % 0x200
    if o < 192 then
      let d := (a - 0x8000040000) / 0x200
      some (joinLanes 16 ((upFrom (96 * d + o / 2) 4).map (Store.get 0 s.hub.grains)))
    else none
  else if 0x8000050000 ≤ a ∧ a < 0x8000050100 then some (s.linkstat ((a - 0x8000050000) / 8))
  else if a = 0x8000050100 then some (s.hub.paddock.toNat % 2 ^ 64)
  else if a = 0x8000050108 then some (s.hub.paddock.toNat / 2 ^ 64)
  else (cxlWord a).map (fun i => Store.get 0 s.hub.cxl i + 2 ^ 32 * Store.get 0 s.hub.cxl (i + 1))

/-- A doubleword written to the device range; `sup` says that the access is a supervisor's (R433). A user's write of a field
that is supervisor only has no effect (log 74), and bits 11 to 0 of a value written to RBASE are dropped (R362; log 110). -/
def writeReg (s : State) (sup : Bool) (a v : Nat) : Option State :=
  if 0x8000010000 ≤ a ∧ a < 0x8000020000 then
    let q := (a - 0x8000010000) / 64
    let x := s.queueAt q
    let o := (a - 0x8000010000) % 64
    some (if o = 0 then (if x.en then s else s.setQueue q { x with rbase := bits v 12 52 * 2 ^ 12 })
      else if o = 8 then s.setQueue q (writeQueueWord x v)
      else if o = 16 then (if x.en || !sup then s else s.setQueue q { x with ridx := v })
      else if o = 24 then (if x.en || !sup then s else s.setQueue q { x with dbval := v })
      else s)
  else if 0x8000020000 ≤ a ∧ a < 0x8000022000 then some (s.doorbell ((a - 0x8000020000) / 8) v)
  else if a = 0x8000030000 then some (if sup then s.writeEvbase v else s)
  else if a = 0x8000030008 then
    some { s with hub := { s.hub with evridx := if sup then bits v 16 8 else s.hub.evridx, evdrop := s.hub.evdrop && !bit v 0 } }
  else if a = 0x8000030010 then some (s.writePartctl v)
  else if a = 0x8000030018 then some (s.writePreq v)
  else if a = 0x8000030020 then
    some (if sup then { s with hub := { s.hub with hostwin := BitVec.ofNat 64 (bits v 0 12 + bits v 40 15 * 2 ^ 40) } } else s)
  else if 0x8000040000 ≤ a ∧ a < 0x8000040800 then
    let o := (a - 0x8000040000) % 0x200
    if o < 192 then
      let g := 96 * ((a - 0x8000040000) / 0x200) + o / 2
      some { s with hub := { s.hub with grains := (upFrom 0 4).foldl (fun t i =>
        Store.set 0 t (g + i) (bits v (16 * i) 12 + bool1 (bit v (16 * i + 15)) * 2 ^ 15)) s.hub.grains } }
    else none
  else if 0x8000050000 ≤ a ∧ a < 0x8000050100 then
    let n := (a - 0x8000050000) / 8
    let l := Store.get {} s.hub.links n
    some (if sup && bit v 63 && l.state != 0 then
      { s with hub := { s.hub with links := Store.set {} s.hub.links n { l with state := 3 } } } else s)
  else if a = 0x8000050100 then some (if sup then s.writePaddock false v else s)
  else if a = 0x8000050108 then some (if sup then s.writePaddock true v else s)
  else (cxlWord a).map (fun i => (s.writeDecoder i v).writeDecoder (i + 1) (v / 2 ^ 32))

/-- A write of a register keeps, in the bytes it does not reach, what has no effect: DROP is cleared by a 1 only. -/
def keepValue (s : State) (a : Nat) : Nat :=
  if a = 0x8000030008 then s.hub.evridx * 2 ^ 16 else (s.readReg a).getD 0

/-- `n` bytes read at a local physical address of the device range. -/
def readDevice (s : State) (a n : Nat) : Act Nat :=
  match s.readReg (a - a % 8) with
  | some x => .ok (bits x (8 * (a % 8)) (8 * n))
  | none => .error (.refuse .deviceUnspecified)

/-- `n` bytes written at a local physical address of the device range (R131: once, in program order). -/
def writeDevice (s : State) (sup : Bool) (a n v : Nat) : Act State :=
  let b := a - a % 8
  match s.writeReg sup b (setBits (s.keepValue b) (8 * (a % 8)) (8 * n) v) with
  | some t => .ok t
  | none => .error (.refuse .deviceUnspecified)

end State

end Sys2Proof.Machine
end

