-- ==== Sys2Proof/Machine/Access.lean ====
section
/-!
DEFINITION. The checks of every access (R127): apertures (R105, R106), user rights (R107, R109, R115, R276), leases
(R241), translation (R227 to R236), page types (R131) and poison (R132).
-/

namespace Sys2Proof.Machine

/-! ### Who makes an access, and what kind of access it is -/

/-- On whose behalf an access is made (R255). -/
structure Who where
  /-- The hart whose core, cluster, die and stack slice the own apertures name. -/
  hart : Nat
  asid : Nat
  /-- The rights of a user strand of the flock apply (R107). -/
  user : Bool
  slot : Option Nat
  flock : Nat
  /-- The ranges the access must lie in (R241); none where no lease check is made. -/
  leases : Option (List Lease)
  /-- The agent may use the scratchpad apertures. -/
  scratch : Bool := true
  /-- The access is the hart's own, and comes after its earlier ones to the same bytes (R133). -/
  own : Bool := false
deriving DecidableEq, Repr

/-- The kinds of access that page types (R131) and lease access (R241) tell apart. -/
inductive Form where
  /-- `ld`, `ldaq`, `fld` of n bytes, and the sign-extending `ld`. -/
  | load (n : Nat)
  | loadSigned (n : Nat)
  /-- `vld`. -/
  | vload
  /-- Every other read: strided, transposed, streams, descriptors, lists. -/
  | read
  | gather
  /-- `st`, `fst`, `strl`. -/
  | store
  /-- Every other store. -/
  | vstore
  | scatter
  /-- `amo`, `cas.w`, `cas.d`. -/
  | amo
  | cas2
  | red
  /-- A near-memory operation's read and write, and one of its reads. -/
  | near
  | nearRead
  | moveRead
  | moveWrite
  | pageIn
  | fetch
  /-- A read and write of a block: descriptors of agents and of leases. -/
  | block
deriving DecidableEq, Repr

/-- The form reads its target. -/
def Form.reads : Form → Bool
  | .store => false
  | .vstore => false
  | .scatter => false
  | .red => false
  | .moveWrite => false
  | .fetch => false
  | _ => true

/-- The form writes its target (R235). -/
def Form.writes : Form → Bool
  | .store => true
  | .vstore => true
  | .scatter => true
  | .amo => true
  | .cas2 => true
  | .red => true
  | .near => true
  | .moveWrite => true
  | .block => true
  | _ => false

/-- The kinds of access that the form needs a lease for (R241): near-memory operations need r and w for each. -/
def Form.leaseWrites : Form → Bool
  | .nearRead => true
  | f => f.writes

/-- The form is an atomic executed at its target (R141). -/
def Form.atomic : Form → Bool
  | .amo => true
  | .cas2 => true
  | .red => true
  | .near => true
  | .nearRead => true
  | _ => false

/-- The page type accepts the form (R131, R269): 0 normal, 1 multicast, 2 device. -/
def Form.accepted (f : Form) (type : Nat) : Bool :=
  if type = 0 then true
  else if type = 1 then
    match f with
    | .load _ => true
    | .loadSigned _ => true
    | .vload => true
    | .store => true
    | .vstore => true
    | .moveWrite => true
    | _ => false
  else
    match f with
    | .load _ => true
    | .loadSigned _ => true
    | .store => true
    | .amo => true
    | _ => false

/-- A piece of an access that lies in one home. -/
structure Chunk where
  place : Nat
  n : Nat
  /-- The leaf that maps it; 0 for a scratchpad. -/
  leaf : Nat := 0
deriving DecidableEq, Repr

/-- The page type of a chunk. -/
def Chunk.type (c : Chunk) : Nat := bits c.leaf 9 2
/-- The tier of a chunk; 0 also for a scratchpad. -/
def Chunk.tier (c : Chunk) : Nat := bits c.leaf 6 3
/-- The multicast group of a chunk (R229). -/
def Chunk.group (c : Chunk) : Nat := bits c.leaf 48 12

/-! ### Apertures (R105, R106) -/

/-- Where an address points before translation: a scratchpad place and the bytes left in its range, or a virtual
address. -/
inductive Target where
  | scratch (place : Nat) (left : Nat)
  | virtual_ (va : Nat)
deriving DecidableEq, Repr

/-- Bytes of a strand's stack slice: 0 without a launch, and for a drover program (log 12). -/
def State.stackBytes (s : State) (k : Nat) : Nat :=
  if k % 8 = 4 then 0
  else match s.launchOf k with
    | some l => l.stackBytes
    | none => 0

/-- The aperture of an address resolved for a hart; none where R106 refuses it. -/
def State.resolve (s : State) (k a : Nat) : Option Target :=
  let sel := bits a 56 8
  let low := bits a 0 56
  let core := k / 8
  if sel = 0 then (if low < 2 ^ 55 then some (.virtual_ low) else none)
  else if sel = 0xF0 then (if low < 2 ^ 19 then some (.scratch (placeLocal core low) (2 ^ 19 - low)) else none)
  else if sel = 0xF1 then
    (if low < 2 ^ 23 then some (.scratch (placeCluster (clusterOf core) low) (2 ^ 23 - low)) else none)
  else if sel = 0xF2 then
    (if low < 0x6000000 then some (.scratch (placeDie (dieOf core) low) (0x6000000 - low)) else none)
  else if sel = 0xF3 then
    let n := s.stackBytes k
    (if low < n then some (.scratch (placeLocal core (0x80000 - (k % 8 + 1) * n + low)) (n - low)) else none)
  else if sel = 0xF4 then
    let c := bits low 19 11
    (if low < 2 ^ 30 ∧ c < 1536 then
      some (.scratch (placeLocal c (low % 2 ^ 19)) (2 ^ 19 - low % 2 ^ 19)) else none)
  else if sel = 0xF5 then
    let c := bits low 23 7
    (if low < 2 ^ 30 ∧ c < 96 then
      some (.scratch (placeCluster c (low % 2 ^ 23)) (2 ^ 23 - low % 2 ^ 23)) else none)
  else if sel = 0xF6 then
    (if low < 2 ^ 29 ∧ low % 2 ^ 27 < 0x6000000 then
      some (.scratch (placeDie (bits low 27 2) (low % 2 ^ 27)) (0x6000000 - low % 2 ^ 27)) else none)
  else none

/-! ### User rights in the scratchpads -/

/-- The flock of an agent. -/
def State.whoFlock (s : State) (w : Who) : Option (Launch × Flock) :=
  match w.slot with
  | none => none
  | some n =>
    match s.launchAt n with
    | none => none
    | some l =>
      match l.flocks.find? (fun f => f.num == w.flock) with
      | none => none
      | some f => some (l, f)

/-- A user strand may touch byte `x` of a core's local memory (R28, R107, R109). Through 0xF4, the constant windows of
another core are read where the own flock holds a strand there, a handler table on any core, and a handler table is written
by a launch that marks it user-writable and holds it: no rule says so for other cores (log 98). -/
def State.localRight (s : State) (w : Who) (write : Bool) (c x : Nat) : Bool :=
  match s.whoFlock w with
  | none => false
  | some (l, f) =>
    let holds := f.strands.any (fun k => k / 8 == c)
    if x < 0x2000 then (if write then f.strands.contains (8 * c + x / 0x800) else holds)
    else if x < 0x6000 then false
    else if x < 0x7000 then !write || (l.htw && (s.coreAt c).tableOwner == w.slot)
    else if x < 0xA000 then false
    else
      (holds && decide (x < 0xA000 + l.localBytes)) ||
      (w.hart / 8 == c && decide (w.hart % 8 < 4) &&
        decide (0x80000 - (w.hart % 8 + 1) * l.stackBytes ≤ x ∧ x < 0x80000 - (w.hart % 8) * l.stackBytes))

/-- A user strand may touch a byte of a scratchpad (R107, R115, R276, R416). -/
def State.scratchRight (s : State) (w : Who) (write : Bool) (p : Nat) : Bool :=
  let sel := p / 2 ^ 56
  let o := p % 2 ^ 56
  if sel = 0xF4 then s.localRight w write (o / 2 ^ 19) (o % 2 ^ 19)
  else if sel = 0xF5 then
    match s.whoFlock w with
    | none => false
    | some (l, f) => f.cluster == o / 2 ^ 23 && decide (o % 2 ^ 23 < l.clusterBytes)
  else
    let g := Store.get 0 s.hub.grains (96 * (o / 2 ^ 27) + (o % 2 ^ 27) / 2 ^ 20)
    bit g 15 && w.slot == some (g % 2 ^ 12)

/-- A user strand may touch every byte of a range of a scratchpad: rights change only at 64-byte bounds. -/
def State.rangeRight (s : State) (w : Who) (write : Bool) (p n : Nat) : Bool :=
  s.scratchRight w write p && s.scratchRight w write (p + n - 1) &&
    (linesOf p n).all (fun l => decide (64 * l ≤ p) || s.scratchRight w write (64 * l))

/-! ### Leases (R239, R241) -/

/-- Byte `a` lies in a range that grants the kinds asked for. -/
def leaseByte (l : List Lease) (r w x : Bool) (a : Nat) : Bool :=
  l.any (fun e => decide (e.base ≤ a ∧ a < e.base + e.size) && (!r || e.r) && (!w || e.w) && (!x || e.x))

/-- Every byte of a range lies in granting ranges: ranges begin and end at pages. -/
def leaseCovers (l : List Lease) (r w x : Bool) (a n : Nat) : Bool :=
  leaseByte l r w x a && leaseByte l r w x (a + n - 1) &&
    (upFrom (a / 65536 + 1) ((a + n - 1) / 65536 - a / 65536)).all (fun p => leaseByte l r w x (65536 * p))

/-- The ranges of a launch, its arena last (R304). -/
def Launch.ranges (l : Launch) : List Lease :=
  if l.arenaSize = 0 then l.leases
  else l.leases ++ [{ base := l.arenaBase, size := l.arenaSize * 65536, maxTier := 3, r := true, w := true, x := false }]

/-! ### Translation (R227 to R236) -/

/-- The page of an entry: the system physical address of its frame (R229). -/
def entryPage (e : Nat) : Nat := bits e 16 44 * 65536

/-- A frame that may hold a table: tier 1 or 3 of a package of the paddock (R228). -/
def State.tablePageOk (s : State) (e : Nat) : Bool :=
  let p := entryPage e
  s.inPaddock (pkgOfPlace p) && (localTier (localOfPlace p) == 1 || localTier (localOfPlace p) == 3)

/-- A table pointer (R228). -/
def State.isPointer (s : State) (e : Nat) : Bool := bit e 0 && bits e 1 15 == 0 && s.tablePageOk e

/-- The members of a multicast group as installed, when it accepts accesses (R270, R415). -/
def State.groupAt (s : State) (g : Nat) : Group := Store.get {} s.hub.groups g

/-- A leaf is well-formed for this package (R231, R425). -/
def State.leafOk (s : State) (e : Nat) (large : Bool) : Bool :=
  let p := entryPage e
  let pkg := pkgOfPlace p
  let loc := localOfPlace p
  let own := pkg == s.hub.pkg
  let type := bits e 9 2
  let tier := bits e 6 3
  bit e 0 && bits e 1 3 != 0 && bits e 13 3 == 0 && (!large || (bits e 16 13 == 0 && !bit e 12)) &&
  (if tier = 0 then type == 2 && own && localTier loc == 0
   else if tier = 1 then
     (type == 0 && own && localTier loc == 1) ||
     (type == 1 && bits e 45 3 == 0 && localTier loc == 1 &&
       (s.groupAt (bits e 48 12)).members.all (fun m => s.inPaddock m))
   else if tier = 2 then
     type == 0 && !own && localTier loc == 1 && s.inPaddock pkg &&
       s.hub.agist.any (fun a => decide (5 ≤ a.state) && a.lender == pkg &&
         decide (a.lbase ≤ loc ∧ loc + (if large then 2 ^ 29 else 65536) ≤ a.lbase + a.size))
   else if tier ≤ 5 then type == 0 && own && localTier loc == tier
   else false)

/-- A TLB entry matches an address (R232, R233): its own page, or a page of its group. -/
def Tlb.covers (t : Tlb) (asid va : Nat) : Bool :=
  t.asid == asid && (if t.large then t.page / 8192 == va / 2 ^ 29
    else if t.group then t.page / 32 == va / 2 ^ 21 else t.page == va / 65536)

/-- The entry by which a group translates a page (R232): the frame with the page's own position in the group. -/
def groupEntry (e page : Nat) : Nat := setBits e 16 5 (page % 32)

/-- Every package that a leaf leads to is in the paddock (R425). -/
def State.leafReaches (s : State) (e : Nat) : Bool :=
  if bits e 9 2 = 1 then (s.groupAt (bits e 48 12)).members.all (fun m => s.inPaddock m)
  else s.inPaddock (pkgOfPlace (entryPage e))

/-- Entries each TLB holds: micro, cluster, walk cache (R233; log 11). -/
def tlbSize (kind : Nat) : Nat := nth [32, 2048, 64] kind

/-- A translation enters a TLB; the entry held longest leaves a full one (log 11). -/
def tlbInsert (l : List Tlb) (t : Tlb) : List Tlb :=
  let same := fun x : Tlb => x.kind == t.kind && x.unit == t.unit
  let l := l.filter (fun x => !(same x && x.asid == t.asid && x.page == t.page && x.level == t.level &&
    x.group == t.group))
  let l := if (l.filter same).length < tlbSize t.kind then l
    else match l.find? same with
      | some old => l.erase old
      | none => l
  l ++ [t]

/-- A table entry read as a load at .sy, after what goes ahead of it on its path (R228, R264, R266); a table outside memory
is no memory at all. -/
def State.physWord (s : State) (p : Nat) : Act Nat :=
  if localTier (localOfPlace p) = 1 ∨ localTier (localOfPlace p) = 3 then
    (if s.placeBusy p then .error .wait else .ok (s.readAt p 8))
  else .error (.fault .noSuchPhysical)

/-- The pointer of a level for an address: from the die's walk cache, else read and kept (R233). A cached pointer to a table
outside the paddock is read again (R4, R228). -/
def State.walkPointer (s : State) (die asid va level table index : Nat) : Act (State × Option Nat) := do
  let key := va / 2 ^ (if level = 3 then 42 else 29)
  match s.tlbs.find? (fun t => t.kind == 2 && t.unit == die && t.asid == asid && t.level == level && t.page == key &&
      s.tablePageOk t.entry) with
  | some t => .ok (s, some t.entry)
  | none => do
    let e ← s.physWord (table + 8 * index)
    if s.isPointer e then
      let t : Tlb :=
        { kind := 2, unit := die, asid := asid, page := key, large := false, entry := e, level := level }
      .ok ({ s with tlbs := tlbInsert s.tlbs t }, some e)
    else .ok (s, none)

/-- The walk of R228: the leaf, its address and whether it is large; a translation fault is none. -/
def State.walk (s : State) (die asid va : Nat) : Act (State × Option (Nat × Nat × Bool)) := do
  let root ← s.physWord (placeOf s.hub.pkg (bits s.hub.asidtab.toNat 16 29 * 65536 + 8 * asid))
  if !(bit root 0) || !s.tablePageOk root then .ok (s, none)
  else do
    let (s, e3) ← s.walkPointer die asid va 3 (entryPage root) (bits va 42 13)
    match e3 with
    | none => .ok (s, none)
    | some e3 => do
      let at2 := entryPage e3 + 8 * bits va 29 13
      let w2 ← s.physWord at2
      if s.leafOk w2 true then .ok (s, some (w2, at2, true))
      else do
        let (s, e2) ← s.walkPointer die asid va 2 (entryPage e3) (bits va 29 13)
        match e2 with
        | none => .ok (s, none)
        | some e2 => do
          let at1 := entryPage e2 + 8 * bits va 16 13
          let w1 ← s.physWord at1
          if s.leafOk w1 false then .ok (s, some (w1, at1, false)) else .ok (s, none)

/-- The base page or the large page of an address, as the TLBs name it. -/
def tlbPage (large : Bool) (va : Nat) : Nat := if large then va / 2 ^ 29 * 8192 else va / 65536

/-- A leaf with A, and with D for a write (R235). -/
def usedLeaf (e : Nat) (write : Bool) : Nat := e ||| 0x10 ||| (if write then 0x20 else 0)

/-- No page of an aligned group of 32 is a page of a lease, or moves: the hub maps such pages one by one (R226, R246). -/
def State.groupStands (s : State) (asid va : Nat) : Bool :=
  s.hub.agist.all (fun a => a.placed.all (fun p => p.2.1 != asid || p.2.2 / 2 ^ 21 != va / 2 ^ 21)) &&
    s.hub.moves.all (fun m => m.asid != asid || m.va / 2 ^ 21 != va / 2 ^ 21)

/-- A leaf enters the cluster's TLB and the core's micro-TLB. Where C is set, the cluster's may hold the group of the page
as one entry: whether it does is a free value (R232; log 4). -/
def State.holdLeaf (s : State) (core asid va e : Nat) (large : Bool) : State :=
  let t : Tlb := { kind := 0, unit := core, asid := asid, page := tlbPage large va, large := large, entry := e }
  let (group, s) := if !large && bit e 12 && s.groupStands asid va then (bit s.freeValue.1.toNat 0, s.freeValue.2) else (false, s)
  let tlbs := tlbInsert s.tlbs { t with kind := 1, unit := clusterOf core, group := group }
  { s with tlbs := tlbInsert tlbs t }

/-- A walk with the update of A and D (R235), its result held by the cluster TLB and the core's micro-TLB. -/
def State.walkFor (s : State) (core asid va : Nat) (write : Bool) : Act (State × Option (Nat × Bool)) := do
  let (s, r) ← s.walk (dieOf core) asid va
  match r with
  | none => .ok (s, none)
  | some (e, at_, large) =>
    let e' := usedLeaf e write
    let s := if e' = e then s else s.writeAt at_ 8 e'
    .ok (s.holdLeaf core asid va e' large, some (e', large))

/-- A request joins a walk in flight (R234): it receives the walk's result, a fault included. The update of A and D by
`cas.d` fails where the entry has changed since the walk read it, and the walk is made again (R235, R236), as it is where the
leaf leads outside the paddock by now (R425). -/
def State.joinWalk (s : State) (w : Walk) (core asid va : Nat) (write : Bool) : Act (State × Option (Nat × Bool)) :=
  match w.leaf with
  | none => .ok (s, none)
  | some (e, at_, large) =>
    let e' := usedLeaf e write
    if !s.leafReaches e then s.walkFor core asid va write
    else if e' = e then .ok (s.holdLeaf core asid va e' large, some (e', large))
    else do
      let x ← s.physWord at_
      if x = e then .ok ((s.writeAt at_ 8 e').holdLeaf core asid va e' large, some (e', large))
      else s.walkFor core asid va write

/-- Walks that a die's walker has in flight (R233). -/
def State.walksOf (s : State) (die : Nat) : Nat := (s.walks.filter (fun w => w.die == die)).length

/-- A request to the walker (R234): it joins a walk of its page; else it walks, when fewer than 64 walks are in flight and
no older request waits; else it queues, and its instruction waits. -/
def State.requestWalk (s : State) (core asid va : Nat) (write : Bool) : Act (State × Option (Nat × Bool)) :=
  let die := dieOf core
  let page := va / 65536
  match s.walks.find? (fun w => w.die == die && w.asid == asid && w.page == page) with
  | some w => s.joinWalk w core asid va write
  | none =>
    let mine := (die, asid, page)
    let older := (s.walkQueue.filter (fun q => q.1 == die)).head?
    if s.walksOf die < 64 ∧ (older = none ∨ older = some mine) then
      ({ s with walkQueue := s.walkQueue.erase mine } : State).walkFor core asid va write
    else .error (.waitWalk die asid page)

/-- A hit of the cluster TLB: the entry moves to the core's micro-TLB. Another page of a group is translated by the
group's entry, and the walker sets A and D in its own leaf where they are clear; the micro-TLB holds the page with its own
D (R232, R235). -/
def State.clusterHit (s : State) (t : Tlb) (core asid va : Nat) (write : Bool) : Act (State × Option (Nat × Bool)) :=
  let keep := fun (s : State) (e : Nat) =>
    let m : Tlb := { t with kind := 0, unit := core, page := tlbPage t.large va, entry := e, group := false }
    ({ s with tlbs := tlbInsert s.tlbs m }, some (e, t.large))
  if t.group && t.page != va / 65536 then do
    let (s, r) ← s.walk (dieOf core) asid va
    let s := match r with
      | some (e, at_, _) => if usedLeaf e write = e then s else s.writeAt at_ 8 (usedLeaf e write)
      | none => s
    let own := match r with
      | some (e, _, _) => bits e 5 1
      | none => 0
    .ok (keep s (usedLeaf (setBits (groupEntry t.entry (va / 65536)) 5 1 own) write))
  else .ok (keep s t.entry)

/-- A translation (R233): the micro-TLB, the cluster TLB, then a walk. A write through a cached entry with D clear
walks (R235), and so does an access whose cached entry leads outside the paddock (R425). -/
def State.translate (s : State) (core asid va : Nat) (write : Bool) : Act (State × Option (Nat × Bool)) :=
  let hit := fun kind unit => s.tlbs.find? (fun t =>
    t.kind == kind && t.unit == unit && t.covers asid va && (!write || bit t.entry 5) && s.leafReaches t.entry)
  match hit 0 core with
  | some t => .ok (s, some (t.entry, t.large))
  | none =>
    match hit 1 (clusterOf core) with
    | some t => s.clusterHit t core asid va write
    | none => s.requestWalk core asid va write

/-- The place of a virtual address under a leaf: a multicast place is the local address in every member. -/
def leafPlace (e va : Nat) (large : Bool) : Nat :=
  let p := if bits e 9 2 = 1 then localOfPlace (entryPage e) else entryPage e
  if large then p + va % 2 ^ 29 else p + va % 65536

/-! ### The checks in order -/

/-- The page is being switched by a move: accesses wait, by its old leaf or by its new one, until the move resumes (R246). -/
def State.pageWaits (s : State) (p : Nat) : Bool :=
  s.hub.moves.any (fun m => (m.stage == 1 || m.stage == 2) &&
    (m.src / 65536 == p / 65536 || (m.stage == 2 && m.dst / 65536 == p / 65536)))

/-- Check 4 of R127 for every page of a range: the leaf that maps each piece. -/
def State.translateAll (s : State) (w : Who) (write : Bool) (tval : Nat) : List (Nat × Nat) → Act (State × List Chunk)
  | [] => .ok (s, [])
  | (va, n) :: t => do
    let (s, r) ← s.translate (w.hart / 8) w.asid va write
    match r with
    | none => .error (.trap 0x06 tval)
    | some (e, large) => do
      let (s, rest) ← s.translateAll w write tval t
      .ok (s, ⟨leafPlace e va large, n, e⟩ :: rest)

/-- A range cut at pages. -/
def pagePieces (va n : Nat) : List (Nat × Nat) :=
  (upFrom (va / 65536) ((va % 65536 + n + 65535) / 65536)).map (fun p =>
    let lo := max va (65536 * p)
    (lo, min (va + n) (65536 * p + 65536) - lo))

/-- The pages of an access translated, whatever comes of it: what the walker did stays (R235). -/
def State.touch (s : State) (r : Walked) : State :=
  match s.translateAll { hart := r.hart, asid := r.asid, user := false, slot := none, flock := 0, leases := none }
      r.write 0 (pagePieces r.va r.n) with
  | .ok (t, _) => t
  | .error _ => s

/-- A request joins the walker's queue (R234). -/
def State.queueWalk (s : State) (die asid page : Nat) : State :=
  if s.walkQueue.contains (die, asid, page) then s else { s with walkQueue := s.walkQueue ++ [(die, asid, page)] }

/-- The precise fault of a stop: the state it is taken in, cause and TVAL. -/
def Stop.trapped (s : State) : Stop → Option (State × Nat × Nat)
  | .trap c v => some (s, c, v)
  | .trapSeen r c v => some (s.touch r, c, v)
  | _ => none

/-- The launch has reserved a proxy core, which atomics to tiers 4 and 5 need (R141). -/
def State.hasProxy (s : State) (w : Who) : Bool :=
  match w.slot with
  | some k => (match s.launchAt k with
    | some l => l.proxy
    | none => false)
  | none => false

/-- Check 5 of R127 for a piece: the R, W and X bits of its leaf, its type (R131), its group, and the proxy core. -/
def State.chunkAllowed (s : State) (w : Who) (f : Form) (c : Chunk) : Bool :=
  (!f.reads || bit c.leaf 1) && (!f.writes || bit c.leaf 2) && (f != .fetch || bit c.leaf 3) && f.accepted c.type &&
    (c.type != 1 || (s.groupAt c.group).valid) && (!(f.atomic && decide (4 ≤ c.tier)) || s.hasProxy w)

/-- The pieces of a range of virtual addresses, one for each page (R127 checks 4 and 5): every translation is checked
before any permission. A page that a move switches is waited for (R246). -/
def State.chunks (s : State) (w : Who) (f : Form) (tval : Nat) (l : List (Nat × Nat)) : Act (State × List Chunk) := do
  let (s, cs) ← s.translateAll w f.writes tval l
  if !cs.all (s.chunkAllowed w f) then .error (.trap 0x07 tval)
  else if cs.any (fun c => decide (c.type ≠ 1) && s.pageWaits c.place) then .error .wait
  else .ok (s, cs)

/-- The reduce-load of a multicast page takes the form (R269). -/
def reduceForm (op : Nat) : Form → Bool
  | .load n => if op = 1 then n == 4 else n == 8
  | .vload => true
  | _ => false

/-- Checks 1 to 5 of R127 for `n` bytes at `a`: the pieces the access touches. -/
def State.check (s : State) (w : Who) (f : Form) (a n align : Nat) : Act (State × List Chunk) :=
  if a % align ≠ 0 then .error (.trap 0x04 a)
  else if n = 0 then .ok (s, [])
  else
    match s.resolve w.hart a with
    | none => .error (.trap 0x03 a)
    | some (.scratch p left) =>
      if left < n ∨ !w.scratch then .error (.trap 0x03 a)
      else if w.user && !s.rangeRight w f.writes p n then .error (.trap 0x07 a)
      else .ok (s, [⟨p, n, 0⟩])
    | some (.virtual_ va) =>
      if 2 ^ 55 < va + n then .error (.trap 0x03 a)
      else
        let x := f == .fetch
        if (match w.leases with
            | some l => !leaseCovers l f.reads f.leaseWrites x va n
            | none => false) then .error (.trap 0x05 a)
        else s.chunks w f a (pagePieces va n)

/-- The places of a chunk's bytes: its own, or one in each member of its group (R268). -/
def State.replicas (s : State) (c : Chunk) : List Nat :=
  if c.type = 1 ∧ c.leaf ≠ 0 then (s.groupAt c.group).members.map (fun m => placeOf m c.place) else [c.place]

/-- A chunk's home is lost, or a line of it is poisoned (R132, R396, R438): a read of it is uncorrectable. -/
def State.chunkBad (s : State) (c : Chunk) : Bool :=
  (s.replicas c).any (fun p => s.poisoned p c.n || s.homeLost p)

end Sys2Proof.Machine
end

