-- ==== Sys2Proof/Machine/Engines.lean ====
section
/-!
DEFINITION. What other units do on a hart's behalf: stores on their way home (R256, R258), atomics (R141 to R144),
near-memory operations (R146), matrix products (R215), the records of failures (R390, R394) and ready queues (R443).
-/

namespace Sys2Proof.Machine

/-- What fails asynchronously: the hart that issued the operation, whose it is, its launch, flock and bundle, when it
issued, and its own address and PROGRESS word. -/
structure Async where
  hart : Nat
  owner : Owner
  slot : Option Nat
  flock : Nat
  pc : Nat
  since : Nat
  addr : Nat
  progress : Nat

/-! ### Agents -/

namespace State

/-- A hart as the maker of an access. Every access of a hart lies in its launch's ranges (R241). -/
def whoHart (s : State) (k : Nat) : Who :=
  let h := s.hartAt k
  { hart := k, asid := h.asid, user := !h.sup, slot := h.slot, flock := h.flock, own := true,
    leases := some (match s.launchOf k with
      | some l => l.ranges
      | none => []) }

/-- The issuing hart as the maker of an access. -/
def whoMe (s : State) : Who := s.whoHart s.hart

/-- A number that is no hart's: of the hub, the launch unit and the host port, which are agents of their own (R255, R358,
R435), with translations of their own; its accesses to the same bytes perform in their order (log 75). -/
def hubAgent : Nat := 8 * 1536

/-- The hub and the launch unit: global accesses in an address space, without a lease check (R365, R434). -/
def whoHub (_ : State) (asid : Nat) : Who :=
  { hart := hubAgent, asid := asid, user := false, slot := none, flock := 0, leases := none, scratch := false, own := true }

/-- A launch as the maker of an access on a hart's core, in the launch's ASID (R443). -/
def whoLaunch (s : State) (k slot : Nat) : Who :=
  match s.launchAt slot with
  | none => { hart := k, asid := 0, user := false, slot := some slot, flock := 0, leases := some [] }
  | some l => { hart := k, asid := l.asid, user := false, slot := some slot, flock := 0, leases := some l.ranges }

/-! ### Checks of memory that fail (R114, R132, R395) -/

/-- The places of an address as a hart's accesses in an address space find it: one in every member of a multicast group. -/
def placesOf (s : State) (k asid a : Nat) : List Nat :=
  match s.resolve k a with
  | none => []
  | some (.scratch p _) => [p]
  | some (.virtual_ va) =>
    match s.translate (k / 8) asid va false with
    | .ok (_, some (e, large)) => s.replicas ⟨leafPlace e va large, 1, e⟩
    | _ => []

/-- The places of an address as a hart's accesses find it. -/
def accessPlaces (s : State) (k a : Nat) : List Nat := s.placesOf k (s.hartAt k).asid a

/-- What the ECC of a word says as an agent of a launch reads it (R395): 1 uncorrectable, but its re-read succeeds; 2
uncorrectable again: its line is poisoned; 3 correctable. -/
def eccOf (s : State) (slot : Option Nat) (place outcome : Nat) : State :=
  if outcome = 1 then s.countTransient slot logEcc place 0x0E
  else if outcome = 2 then
    ({ s with poison := if s.poison.contains (place / 64) then s.poison else s.poison ++ [place / 64] } : State).logError
      logEcc place 0x0E false
  else if outcome = 3 then { s with hub := { s.hub with corrected := s.hub.corrected + 1 } }
  else s

/-- What the ECC of a word says as a hart reads it. -/
def eccEvent (s : State) (k place outcome : Nat) : State := s.eccOf (s.hartAt k).slot place outcome

/-- The check that the step's event names, of a word among `n` bytes at a place that the step reads (R395). -/
def eccPlace (s : State) (slot : Option Nat) (p n : Nat) : State := s.eccOf slot (p + s.ev.off % max n 1) s.ev.ecc

/-- The check that the step's event names, of a word among `n` bytes at an address that the step reads (R395). -/
def eccAddr (s : State) (slot : Option Nat) (k asid a n : Nat) : State :=
  if s.ev.ecc = 0 then s
  else match s.placesOf k asid ((a + s.ev.off % max n 1) % 2 ^ 64) with
    | p :: _ => s.eccOf slot p s.ev.ecc
    | [] => s

/-! ### Writes at their home -/

/-- A place lies in the device range of a package. -/
def isDevicePlace (p : Nat) : Bool := !isScratch p && localTier (localOfPlace p) == 0

/-- Bytes written at their home, through every replica; `user` says that a device register is written in user mode. -/
def performChunk (s : State) (user : Bool) (c : Chunk) (data : List Nat) : Act State :=
  if c.leaf ≠ 0 ∧ c.type = 2 then s.writeDevice (!user) (localOfPlace c.place) c.n (ofBytes data)
  else .ok ((s.replicas c).foldl (fun s p => s.perform p data) s)

/-- The pieces of a write performed at once. -/
def performChunks (s : State) (user : Bool) : List Chunk → List Nat → Act State
  | [], _ => .ok s
  | c :: t, data => do
    let s ← s.performChunk user c (data.take c.n)
    s.performChunks user t (data.drop c.n)


end State

/-- The fault enters the launch's record: the count, and the first-fault fields once (R390). -/
def Launch.record (l : Launch) (f : FaultRec) : Launch :=
  { l with fcount := min (l.fcount + 1) allOnes64, first := match l.first with
      | some g => some g
      | none => some f }

/-- The doublewords 0x08 to 0x30 of a completion record (R390). -/
def Launch.faultWords (l : Launch) : List Nat :=
  match l.first with
  | none => [l.fcount, 0, 0, 0, 0, 0]
  | some f =>
    [l.fcount, f.cause + 2 ^ 8 * bool1 f.async + 2 ^ 9 * bool1 f.defer + 2 ^ 10 * bool1 f.abort, f.pc, f.addr,
      f.progress, f.core + 2 ^ 11 * f.strand + 2 ^ 13 * bool1 f.drover + 2 ^ 32 * f.flock]

/-- Doublewords as bytes. -/
def wordBytes (l : List Nat) : List Nat := l.flatMap (bytesOf 8)

/-! ### Paths of the fabric (R266, R427, R428, R430) -/

/-- The kinds of traffic of a fabric link (R427). -/
inductive Traffic where
  /-- Loads, stores, atomics, `red`, near-memory operations, tile-move and copy traffic. -/
  | request
  | response
  /-- Messages and anti-messages. -/
  | message
  /-- Flush markers and their acknowledgements. -/
  | flush
  /-- Multicast replicas. -/
  | replica
  /-- Lease handshakes, muster notices, floor reports, keepalives. -/
  | control
deriving DecidableEq, Repr

/-- The virtual channel of a kind of traffic (R427): channels share no buffer but the shared ones of R428. -/
def Traffic.vc : Traffic → Nat
  | .request => 0
  | .response => 1
  | .message => 2
  | .flush => 3
  | .replica => 4
  | .control => 5

/-- Every kind of traffic, by channel. -/
def allTraffic : List Traffic := [.request, .response, .message, .flush, .replica, .control]

/-- Payload bytes of a flit (R427), and the flit buffers reserved to each channel of a link (R428). -/
def flitBytes : Nat := 64
def vcReserve : Nat := 4

namespace State

/-- The link of a plane that the pair of packages uses: by the hash of the pair over the plane's working links (R430). -/
def linkOf (s : State) (pkg plane : Nat) : Option Nat :=
  let l := s.upLinks plane
  if l.isEmpty then none else some (nth l (Config.pathHash 1 s.hub.pkg pkg % l.length))

/-- The plane of the flow of messages, handshakes and acknowledgements between this package and another one: by a hash of the
pair over the planes that lead there (log 26). -/
def flowPlane (s : State) (pkg : Nat) : Option Nat :=
  let l := s.planesTo pkg
  if l.isEmpty then none else some (nth l (Config.pathHash 2 s.hub.pkg pkg % l.length))

/-- The package that a take in progress asks (R419). -/
def takeLender (t : Take) : Nat := bits (nth t.words 0) 32 15

/-- Places of other packages whose answers have not come back to a hart (R30, R31). -/
def awaited (s : State) : List Nat :=
  s.harts.flatMap (fun e => ((e.2.longs.filter (fun r => !r.returned)).flatMap (fun r => r.src)).flatMap (fun a =>
    (s.accessPlaces e.1 a).filter s.remote))

/-- Flits of a kind of traffic that stand in the receiver's buffers of a link (R427, R428). Requests: stores and atomics that
have not performed, and near-memory operations that have not executed; a release is sent when it performs. Responses: what
loads wait for. -/
def flitsOn (s : State) (link : Nat) (t : Traffic) : Nat :=
  let on := fun (p : Nat) => match s.planeOf p with
    | some n => s.linkOf (pkgOfPlace p) n == some link
    | none => false
  let toward := fun (pkg : Nat) => pkg != s.hub.pkg && (s.flowPlane pkg).bind (s.linkOf pkg) == some link
  let sent := s.stores.filter (fun u => u.release.isNone && s.remote u.place && on u.place)
  match t with
  | .request => (sent.filter (fun u => !u.replica)).length +
      (s.atomics.filter (fun u => u.release.isNone && s.remote u.place && on u.place)).length +
      (s.nears.filter (fun u => (s.accessPlaces u.hart u.addr).any (fun p => s.remote p && on p))).length
  | .response => (s.awaited.filter on).length
  | .message => ((s.cores.flatMap (fun e => e.2.netWait)).filter (fun m => toward (m.dest / 2 ^ 11))).length
  | .flush => (s.hub.flushMarks.filter (fun m => s.linkOf m.dest m.plane == some link)).length +
      (s.hub.flushAcks.filter (fun m => toward m.2)).length
  | .replica => (sent.filter (fun u => u.replica)).length
  | .control => (s.hub.takes.filter (fun t => toward (takeLender t))).length

/-- A link's sender holds a credit for a flit of a kind of traffic: a free buffer of its channel's reserve, or a shared one
(R428). -/
def linkCredit (s : State) (l : Nat) (t : Traffic) : Bool :=
  let shared := (allTraffic.map (fun u => s.flitsOn l u - vcReserve)).foldl (· + ·) 0
  decide (s.flitsOn l t < vcReserve) || decide (shared + 6 * vcReserve + (s.linkAt l).retired < 96)

/-- A sender holds a credit for a flit of a kind of traffic on the pair's link of a plane. Without a link, the packet is lost
and needs none. -/
def hasCredit (s : State) (pkg : Nat) (plane : Option Nat) (t : Traffic) : Bool :=
  match plane.bind (s.linkOf pkg) with
  | none => true
  | some l => s.linkCredit l t

/-- A request, or a replica, to a place needs a credit that its sender does not hold (R428). -/
def noCredit (s : State) (t : Traffic) (p : Nat) : Bool := s.remote p && !s.hasCredit (pkgOfPlace p) (s.planeOf p) t

/-- The kind of traffic that a write of a piece is. -/
def writeTraffic (c : Chunk) : Traffic := if c.type = 1 then .replica else .request

/-- A message or a handshake to a package needs a credit that its sender does not hold (R428). -/
def flowHeld (s : State) (t : Traffic) (pkg : Nat) : Bool := pkg != s.hub.pkg && !s.hasCredit pkg (s.flowPlane pkg) t

/-- Something of this package goes ahead of an access on its path (R266). -/
def pathBusy (s : State) (cs : List Chunk) : Bool := cs.any (fun c => (s.replicas c).any s.placeBusy)

/-! ### Writes of the hub -/

/-- A write of the hub waits in the fabric: for a credit of its link (R428), at the dirty quota of its page (R250), behind an
earlier one to the same bytes, or behind what goes ahead of it on its path (R266). -/
def hubHeld (s : State) (c : Chunk) : Bool :=
  s.pathBusy [c] || (s.replicas c).any (fun p =>
    s.quotaHolds p || s.noCredit (writeTraffic c) p || s.stores.any (fun t => t.hart == hubAgent && decide (t.place < p + c.n ∧ p < t.place + t.data.length)))

/-- A piece of a write by the hub: performed at its home, or on its way there; a lost home fails it (R396, R438). -/
def hubPerform (s : State) (va : Nat) (c : Chunk) (data : List Nat) : Act State :=
  if (s.replicas c).any s.homeLost then .error (.trap 0x0E va)
  else if s.hubHeld c then
    if (s.replicas c).any (s.noCredit (writeTraffic c)) then .error .wait
    else .ok { s with stores := s.stores ++ (s.replicas c).map (fun p =>
      { hart := hubAgent, place := p, data := data, va := va, pkg := pkgOfPlace p, replica := c.type == 1,
        since := s.cycle, user := false }) }
  else s.performChunk false c data

/-- The pieces of a write by the hub. -/
def hubPerformAll (s : State) (va : Nat) : List Chunk → List Nat → Act State
  | [], _ => .ok s
  | c :: t, data => do
    let s ← s.hubPerform va c (data.take c.n)
    s.hubPerformAll va t (data.drop c.n)

/-- A write by the hub or the launch unit, as stores at .sy. -/
def hubWrite (s : State) (asid a : Nat) (data : List Nat) : Act State := do
  let (s, cs) ← s.check (s.whoHub asid) .store a data.length 8
  s.hubPerformAll a cs data

/-! ### The completion record (R390) -/

/-- The fault fields written into the completion record's memory: a write that must wait stays due, and one that fails is kept
as the launch's own error (R390). -/
def writeFaults (s : State) (n : Nat) (l : Launch) : State :=
  match s.hubWrite l.asid (l.complete + 8) (wordBytes l.faultWords) with
  | .ok t => if l.recordDue then t.setLaunch n (some { l with recordDue := false }) else t
  | .error (.trap c v) =>
    s.setLaunch n (some { l with recordDue := false, recFault := match l.recFault with
      | some e => some e
      | none => some (c, v) })
  | .error _ => s.setLaunch n (some { l with recordDue := true })

/-- A fault recorded for a launch slot: in the unit and in the record's memory (R390). -/
def recordIn (s : State) (slot : Option Nat) (f : FaultRec) : State :=
  match slot with
  | none => s
  | some n =>
    match s.launchAt n with
    | none => s
    | some l =>
      let l := l.record f
      let s := s.setLaunch n (some l)
      if l.complete = 0 then s else s.writeFaults n l

/-! ### Poisoned strands (R274, R389) -/

/-- The narrowest scope of a hart that includes the home of a place (R257). -/
def targetScope (s : State) (k p : Nat) : Nat :=
  let core := k / 8
  if isScratch p then
    let sel := p / 2 ^ 56
    let o := p % 2 ^ 56
    if sel = 0xF4 then
      let n := s.stackBytes k
      let x := o % 2 ^ 19
      if o / 2 ^ 19 = core then
        (if 0x80000 - (k % 8 + 1) * n ≤ x ∧ x < 0x80000 - (k % 8) * n then 0 else 1)
      else if clusterOf (o / 2 ^ 19) = clusterOf core then 2
      else if dieOf (o / 2 ^ 19) = dieOf core then 3 else 4
    else if sel = 0xF5 then
      (if o / 2 ^ 23 = clusterOf core then 2 else if o / 2 ^ 23 / 24 = dieOf core then 3 else 4)
    else (if o / 2 ^ 27 = dieOf core then 3 else 4)
  else
    let loc := localOfPlace p
    let pkg := pkgOfPlace p
    if 4 ≤ localTier loc then 7
    else if pkg = s.hub.pkg then (if localTier loc = 1 ∧ loc / 0x1000000000 / 2 = dieOf core then 3 else 4)
    else if pkg / 128 = s.hub.pkg / 128 then 5 else 6

/-- The narrowest scope of a hart that includes the homes of an address under a leaf: on a multicast page, of every
member's copy. -/
def leafScope (s : State) (k e va : Nat) (large : Bool) : Nat :=
  let p := leafPlace e va large
  if bits e 9 2 = 1 then
    ((s.groupAt (bits e 48 12)).members.map (fun m => s.targetScope k (placeOf m p))).foldl max 0
  else s.targetScope k p

/-- The scope of a generic address of a hart: of its home, where it has one; else the narrowest (R274; log 81). -/
def scopeOf (s : State) (w : Who) (a : Nat) : Nat :=
  match s.resolve w.hart a with
  | some (.scratch p _) => s.targetScope w.hart p
  | some (.virtual_ va) =>
    (match s.walk (dieOf (w.hart / 8)) w.asid va with
     | .ok (_, some (e, _, large)) => s.leafScope w.hart e va large
     | _ => 0)
  | none => 0

/-- A strand poisoned at a scope: at the narrowest of several (R274). -/
def poisonStrand (s : State) (k scope : Nat) : State :=
  let h := s.hartAt k
  let sc := if bit h.tstatus 4 then min scope (bits h.tstatus 5 3) else scope
  s.setHart k { h with tstatus := h.tstatus % 16 + 16 + 32 * sc }

/-- A poisoned release of a hart (R145, R274): 0x0F at its next marker, in the place of the release's word in program
order. -/
def poisonRelease (s : State) (k : Nat) (r : Release) (addr : Nat) : State :=
  let h := s.hartAt k
  let e : LongRes := { id := r.id, waddr := r.waddr, extra := true, fault := some (0x0F, addr), returned := true }
  s.setHart k { h with longs := insertBy (fun a b => decide (a.id ≤ b.id)) e h.longs }

/-- Releases on their way that a failure poisons: those of its owner that come later than the failed operation, at its
scope or a wider one (R274). None of them performs. -/
def poisonLater (s : State) (k since scope : Nat) : State :=
  let hit := fun (o : Owner) (t : Nat) (r : Option Release) => o == .hart k && decide (since < t) && (match r with
    | some r => decide (scope ≤ r.scope)
    | none => false)
  let gone := (s.stores.filter (fun t => hit t.owner t.since t.release)).map (fun t => (t.release, t.va)) ++
    (s.atomics.filter (fun t => hit t.owner t.since t.release)).map (fun t => (t.release, t.va))
  let s : State := { s with
    stores := s.stores.filter (fun t => !hit t.owner t.since t.release),
    atomics := s.atomics.filter (fun t => !hit t.owner t.since t.release) }
  gone.foldl (fun s e => match e.1 with
    | some r => s.poisonRelease k r e.2
    | none => s) s

/-- An asynchronous failure: recorded for the launch, and it poisons the strand that runs the continuation whose operation
it was (R128, R274, R390, R394). -/
def asyncFail (s : State) (x : Async) (cause scope : Nat) : State :=
  let f : FaultRec :=
    { cause := cause, async := true, defer := false, abort := false, pc := x.pc, addr := x.addr, progress := x.progress,
      core := x.hart / 8, strand := x.hart % 8 % 4, drover := x.hart % 8 == 4, flock := x.flock }
  let s := s.recordIn x.slot f
  match x.owner with
  | .hart k => (s.poisonStrand k scope).poisonLater k x.since scope
  | _ => s

/-! ### Stores on their way home -/

/-- A package enters the hart's destination set (R267). -/
def addDest (s : State) (k pkg : Nat) : State :=
  let h := s.hartAt k
  if h.dests.contains pkg then s
  else if h.dests.length < 64 then s.setHart k { h with dests := h.dests ++ [pkg] }
  else s.setHart k { h with destOverflow := true }

/-- Another package that an access is sent to enters the hart's destination set. -/
def noteDest (s : State) (k pkg : Nat) : State := if pkg = s.hub.pkg then s else s.addDest k pkg

end State

/-- What fails when a store is lost. -/
def PendingStore.async (t : PendingStore) : Async :=
  { hart := t.hart, owner := t.owner, slot := t.slot, flock := t.flock, pc := t.pc, since := t.since, addr := t.va,
    progress := t.progress }

/-- What fails when a reduction is lost. -/
def PendingAtomic.async (t : PendingAtomic) : Async :=
  { hart := t.hart, owner := t.owner, slot := t.slot, flock := t.flock, pc := t.pc, since := t.since, addr := t.va,
    progress := t.progress }

/-- Two stores touch a byte in common. -/
def PendingStore.meets (a b : PendingStore) : Bool :=
  decide (a.place < b.place + b.data.length ∧ b.place < a.place + a.data.length)

namespace State

/-- A store that has issued before another comes before it: of the same hart to a byte in common (R133), or to device pages
both (R131), on one path (R266), or as a replica of the same hart's in one member (R268). A release is sent when it performs. -/
def storeBefore (s : State) (u t : PendingStore) : Bool :=
  (u.hart == t.hart && (u.meets t || (isDevicePlace u.place && isDevicePlace t.place))) || (u.release.isNone && s.samePath u.place t.place) ||
    (u.replica && t.replica && u.hart == t.hart && u.pkg == t.pkg)

/-- An access that has issued has performed at a scope, as far as the scope asks (R258): a write on its way to another
package has, for a scope of its package or a narrower one, since it has entered its path. -/
def entered (s : State) (scope place : Nat) : Bool := decide (scope ≤ 4) && s.remote place

/-- A message of a hart on its way, older than `since` (R265): one to another package has entered its path once it has
departed (R258). -/
def sendsPending (s : State) (k scope since : Nat) : Bool :=
  let mine := fun (m : Msg) => m.hart == some k && decide (m.since < since)
  s.cores.any (fun e => e.2.outbound.any mine ||
    e.2.netWait.any (fun m => mine m && !(decide (scope ≤ 4) && m.dest / 2 ^ 11 != s.hub.pkg)))

/-- A flush of a hart is under way. -/
def flushingOf (s : State) (k : Nat) : Bool :=
  s.hub.flushMarks.any (fun m => m.hart == k) || s.hub.flushAcks.any (fun m => m.1 == k)

/-- What a release at a scope, issued at `since`, still waits for besides a flush: earlier stores of its hart (those
before it in `older`), atomics, near-memory operations, moves and messages (R145). -/
def releaseWaits (s : State) (k scope since : Nat) (older : List PendingStore) : Bool :=
  older.any (fun u => u.hart == k && !(u.release.isNone && s.entered scope u.place)) ||
    s.atomics.any (fun a => a.hart == k && decide (a.since < since) &&
      !(a.long.isNone && a.release.isNone && s.entered scope a.place)) ||
    s.nears.any (fun a => a.hart == k && decide (a.since < since)) ||
    s.cores.any (fun e => e.2.moves.any (fun m => m.hart == k && decide (m.since < since))) ||
    s.sendsPending k scope since

/-- The release of a hart still has packages to flush (R267). -/
def mustFlush (s : State) (k scope : Nat) : Bool :=
  decide (5 ≤ scope) && (!(s.hartAt k).dests.isEmpty || (s.hartAt k).destOverflow)

/-- A store that is a release performs at its scope: at .fo or wider the destination set empties, else the package it is
sent to enters the set (R267). -/
def releaseSent (s : State) (k place : Nat) (r : Option Release) : State :=
  match r with
  | none => s
  | some r =>
    if 5 ≤ r.scope then s.setHart k { s.hartAt k with dests := [], destOverflow := false }
    else if isScratch place then s else s.noteDest k (pkgOfPlace place)

/-- A store performs at its home, or fails when the home is lost, or no plane leads to it (R256, R396). -/
def performStore (s : State) (t : PendingStore) : Act State :=
  let s := s.releaseSent t.hart t.place t.release
  if s.homeLost t.place then
    .ok (s.asyncFail t.async 0x0E (s.targetScope t.hart t.place))
  else if isDevicePlace t.place then s.writeDevice (!t.user) (localOfPlace t.place) t.data.length (ofBytes t.data)
  else .ok (s.performMasked t.place t.data t.skip)

/-- A store waits: for stores that issued before it (`older`), for atomics ahead of it on its path, for what a release
must follow and the credit that it is sent by (R428), for the dirty quota of its page (R250). -/
def storeWaits (s : State) (older : List PendingStore) (t : PendingStore) : Bool :=
  older.any (fun u => s.storeBefore u t) || (t.release.isSome && s.noCredit (if t.replica then .replica else .request) t.place) ||
    s.atomics.any (fun a => decide (a.since < t.since) && a.release.isNone && s.samePath a.place t.place) ||
    s.quotaHolds t.place ||
    (match t.release with
     | some r => s.releaseWaits t.hart r.scope t.since older || s.mustFlush t.hart r.scope
     | none => false)

/-- A store on its way performs, unless it must wait. -/
def tryStore (s : State) (t : PendingStore) : Act State :=
  if s.storeWaits (s.stores.takeWhile (fun u => u != t)) t then .error .wait
  else ({ s with stores := s.stores.erase t } : State).performStore t

/-- Every store of a list that `mine` names performs, in order; it waits for one that may not perform yet. A release that
an earlier failure has poisoned is on its way no more. -/
def drainList (s : State) (mine : PendingStore → Bool) : List PendingStore → Act State
  | [] => .ok s
  | t :: r =>
    if mine t && s.stores.contains t then do
      let s ← s.tryStore t
      s.drainList mine r
    else s.drainList mine r

/-- Every store that `mine` names performs. -/
def drainWhere (s : State) (mine : PendingStore → Bool) : Act State := s.drainList mine s.stores

/-- A hart issued the store. -/
def ofHart (k : Nat) (t : PendingStore) : Bool := t.hart == k

/-- Every store of a hart performs. -/
def drainStores (s : State) (k : Nat) : Act State := s.drainWhere (ofHart k)

/-- An access of the hart follows a store of its own that has not performed: to a byte in common (R133), or to device pages
both (R131). -/
def follows (s : State) (cs : List Chunk) (t : PendingStore) : Bool :=
  cs.any (fun c => (s.replicas c).any (fun p =>
    decide (t.place < p + c.n ∧ p < t.place + t.data.length) || (isDevicePlace p && isDevicePlace t.place)))

/-- The hart's stores that an access follows come before it, and what goes one path with the access does (R131, R133,
R266): the first perform at once, and the access waits for the others. -/
def ownFirst (s : State) (k : Nat) (cs : List Chunk) : Act State := do
  let s ← s.drainWhere (fun t => ofHart k t && s.follows cs t)
  if s.pathBusy cs then .error .wait else .ok s

end State

/-! ### Reading (R127, R132, R269) -/

/-- Check 6 of R127. -/
def State.checkData (s : State) (cs : List Chunk) (tval : Nat) : Act Unit :=
  if cs.any s.chunkBad then .error (.trap 0x0E tval) else .ok ()

/-- The sum tree over the members of a group (R269). -/
def fpTree : Nat → List Nat → Nat
  | 0, l => nth l 0
  | k + 1, l =>
    match l with
    | _ :: _ :: _ => fpTree k (pairUp (fpAdd Fmt.f32 .rne) l).1
    | l => nth l 0

/-- The reduction of one element over the members of a group (R269). -/
def reduceElem (op : Nat) (l : List Nat) : Nat :=
  if op = 0 then l.foldl (fun a b => (a + b) % 2 ^ 64) 0
  else if op = 1 then
    (match l with
     | [x] => x
     | l => fpTree 5 l)
  else if op = 2 then wrap 64 ((l.map (toSigned 64)).foldl min (2 ^ 63 - 1))
  else wrap 64 ((l.map (toSigned 64)).foldl max (-(2 ^ 63)))

/-- The bytes of a chunk at their homes (R256): device registers, the members' reduction, or memory. -/
def State.readChunk (s : State) (c : Chunk) : Act (List Nat) :=
  if c.leaf ≠ 0 ∧ c.type = 2 then do
    let x ← s.readDevice (localOfPlace c.place) c.n
    .ok (bytesOf c.n x)
  else if c.leaf ≠ 0 ∧ c.type = 1 then
    let g := s.groupAt c.group
    let w := if g.op = 1 then 4 else 8
    .ok ((upFrom 0 (c.n / w)).flatMap (fun i =>
      bytesOf w (reduceElem g.op ((s.replicas c).map (fun p =>
        s.readAt (p + w * i) w)))))
  else .ok (s.bytesAt c.place c.n)

/-- The bytes of a checked access. -/
def State.readChunks (s : State) : List Chunk → Act (List Nat)
  | [] => .ok []
  | c :: t => do
    let x ← s.readChunk c
    let r ← s.readChunks t
    .ok (x ++ r)

/-- A request for a piece may not leave yet: something goes ahead of it on its path (R266), or it has no credit (R428). -/
def State.readHeld (s : State) (cs : List Chunk) : Bool :=
  s.pathBusy cs || cs.any (fun c => (s.replicas c).any (s.noCredit .request))

/-- The checks of a read (R127): its pieces, and the state in which translations are held. A hart's own read comes after
its earlier stores to the same bytes (R133), and every read after what goes ahead of it on its path (R266); what the walker
did stays where poison is met (R235). -/
def State.openRead (s : State) (w : Who) (f : Form) (a n align : Nat) : Act (State × List Chunk) := do
  let (s, cs) ← s.check w f a n align
  if cs.any (fun c => decide (c.leaf ≠ 0 ∧ c.type = 1) && !reduceForm (s.groupAt c.group).op f) then
    .error (.trap 0x07 a)
  else do
    let s ← if w.own then s.ownFirst w.hart cs else .ok s
    if s.readHeld cs then .error .wait
    else if cs.any s.chunkBad then
      .error (if a < 2 ^ 55 then .trapSeen ⟨w.hart, w.asid, a, n, f.writes⟩ 0x0E a else .trap 0x0E a)
    else .ok (s, cs)

/-- A read with all its checks: its bytes. -/
def State.readBytes (s : State) (w : Who) (f : Form) (a n align : Nat) : Act (State × List Nat) := do
  let (s, cs) ← s.openRead w f a n align
  let l ← s.readChunks cs
  .ok (s, l)

namespace State

/-- A read by the hub or the launch unit. -/
def hubRead (s : State) (asid a n align : Nat) : Act (State × List Nat) :=
  s.readBytes (s.whoHub asid) .read a n align

end State

/-! ### Atomics -/

/-- The new value of an atomic operation on `n` bytes (R142). -/
def atomicNew (op n old x : Nat) : Nat :=
  let w := 8 * n
  let x := x % 2 ^ w
  if op = 0 then (old + x) % 2 ^ w
  else if op = 1 then old &&& x
  else if op = 2 then old ||| x
  else if op = 3 then old ^^^ x
  else if op = 4 then (if toSigned w x < toSigned w old then x else old)
  else if op = 5 then (if toSigned w old < toSigned w x then x else old)
  else if op = 6 then min old x
  else if op = 7 then max old x
  else if op = 8 then x
  else (fpAdd Fmt.f32 .rne old x).1

/-- A return-buffer entry of a hart rewritten. -/
def Hart.fill (h : Hart) (id : Nat) (g : LongRes → LongRes) : Hart :=
  { h with longs := h.longs.map (fun r => if r.id = id then g r else r) }

namespace State

/-- A return-buffer entry filled: its value has come (R30). -/
def fillLong (s : State) (k : Nat) (id : Option Nat) (writes : List RegWrite) : State :=
  match id with
  | none => s
  | some i => s.setHart k ((s.hartAt k).fill i (fun r => { r with writes := writes, queued := false }))

/-- A return-buffer entry whose execution faults (R33). -/
def faultLong (s : State) (k : Nat) (id : Option Nat) (cause tval : Nat) : State :=
  match id with
  | none => s
  | some i => s.setHart k ((s.hartAt k).fill i (fun r => { r with fault := some (cause, tval), queued := false }))

/-- A record slot in the pool region of a cluster (R375): the cluster. -/
def poolCluster (addr : Nat) : Option Nat :=
  let o := addr % 2 ^ 23
  if addr / 2 ^ 56 = 0xF5 ∧ 0x7F8000 ≤ o ∧ o < 0x7FC000 then some (bits addr 23 7) else none

/-- The cluster of the flock whose record pool holds a record address (R327, R375); none outside every pool. -/
def poolHolder (s : State) (addr : Nat) : Option Nat :=
  match poolCluster addr with
  | some c => if (s.clusterAt c).pool.any (fun e => e.1 == (addr % 2 ^ 23 - 0x7F8000) / 64) then some c else none
  | none => none

/-- A record address placed on a ready queue (R293, R443): that of the cluster whose flock's pool holds it, else of the
issuing core (R327). -/
def placeReady (s : State) (addr slot core : Nat) : State :=
  let c := (s.poolHolder addr).getD (clusterOf core)
  let x := s.clusterAt c
  s.setCluster c { x with ready := x.ready ++ [(addr, slot)] }

/-- An address through an own-unit aperture named by its any-unit aperture (R105), so that one record has one name: for a word
that a `depdec` finds, by the units of its strand (R160; log 102). -/
def canonAddr (s : State) (k a : Nat) : Nat :=
  let core := k / 8
  let sel := a / 2 ^ 56
  let low := a % 2 ^ 56
  if sel = 0xF0 then 0xF4 * 2 ^ 56 + core * 2 ^ 19 + low
  else if sel = 0xF1 then 0xF5 * 2 ^ 56 + clusterOf core * 2 ^ 23 + low
  else if sel = 0xF2 then 0xF6 * 2 ^ 56 + dieOf core * 2 ^ 27 + low
  else if sel = 0xF3 then
    0xF4 * 2 ^ 56 + core * 2 ^ 19 + (0x80000 - (k % 8 + 1) * s.stackBytes k + low)
  else a

/-- A continuation of a launch made ready by its record address: known ones become READY, others are records that a
program built (R327). -/
def makeReady (s : State) (addr slot core : Nat) : State :=
  let s := s.placeReady addr slot core
  { s with hub := { s.hub with conts := s.hub.conts.map (fun c =>
    if c.recAddr = addr ∧ c.slot = slot then { c with state := .ready, waits := none } else c) } }

/-- Pieces of a write that performs at once: a lost home fails it (R396, R438); it waits at the dirty quota (R250), behind
what goes ahead of it on its path (R266), and for a credit (R428). -/
def writeNow (s : State) (user : Bool) (a : Nat) (cs : List Chunk) (data : List Nat) : Act State :=
  let places := cs.flatMap s.replicas
  if places.any s.homeLost then .error (.trap 0x0E a)
  else if s.quotaHoldsAny places || s.pathBusy cs || cs.any (fun c => (s.replicas c).any (s.noCredit (writeTraffic c))) then
    .error .wait
  else s.performChunks user cs data

/-- The packages that a write goes to enter the destination set of the hart whose it is (R267): for a replica, its own
package too. -/
def noteDests (s : State) (k : Nat) (cs : List Chunk) : State :=
  cs.foldl (fun s c => (s.replicas c).foldl (fun s p =>
    if isScratch p then s else if c.type = 1 then s.addDest k (pkgOfPlace p) else s.noteDest k (pkgOfPlace p)) s) s

/-- A write that a hart makes at once, as a store of its own. -/
def writeOwn (s : State) (k : Nat) (user : Bool) (a : Nat) (cs : List Chunk) (data : List Nat) : Act State := do
  let s ← s.writeNow user a cs data
  .ok (s.noteDests k cs)

/-- Offset of a register in a continuation record (R35, R42). -/
def recordOffset (d : Nat) : Nat := if d = 31 then 0x10 else 0x10 + 8 * d

/-- A value of the mailbox given to the join that has waited longest (R155): written into the record for its
destination; the continuation becomes ready. A record that its launch can no longer write keeps its value; where the write
must wait, so does the join. -/
def serveJoin (s : State) (core : Nat) : State :=
  let c := s.coreAt core
  match c.mailbox, c.joins with
  | some x, (r, d, slot) :: t =>
    let u := s.setCore core { c with mailbox := none, joins := t }
    let a := r + recordOffset d
    match (u.check (u.whoLaunch (8 * core) slot) .store a 8 8).bind (fun e => e.1.writeNow false a e.2 (bytesOf 8 x.toNat)) with
    | .ok v => v.makeReady r slot core
    | .error e => match e.trapped u with
      | some _ => u.makeReady r slot core
      | none => s
  | _, _ => s

/-- The near-memory engine of this package counts an atomic that it executes, for its page and requester (R244). Atomics
to lent pages are the lender's engine's (R141). -/
def countAtomic (s : State) (p pkg asid va : Nat) : State :=
  if isScratch p || pkgOfPlace p != s.hub.pkg then s
  else
    let t := localTier (localOfPlace p)
    if t = 1 ∨ t = 3 then
      let page := p / 65536
      let bump := fun (l : List (Nat × Nat)) =>
        if l.any (fun e => e.1 == pkg) then l.map (fun e => if e.1 = pkg then (e.1, min (e.2 + 1) 0xFFFF) else e)
        else if l.length < 4 then l ++ [(pkg, 1)] else l
      let rest := s.hub.counted.filter (fun c => c.page ≠ page)
      let counts := match s.hub.counted.find? (fun c => c.page == page) with
        | some c => bump c.counts
        | none => [(pkg, 1)]
      let rest := if rest.length < 4096 then rest else rest.tail
      { s with hub := { s.hub with counted := rest ++ [{ page := page, counts := counts, stamp := s.cycle, asid := asid, va := va }] } }
    else s

/-- One 8- or 4-byte word at its home: memory, or a device register. -/
def homeWord (s : State) (p n : Nat) : Act Nat :=
  if isDevicePlace p then s.readDevice (localOfPlace p) n else .ok (s.readAt p n)

/-- One word written at its home. -/
def setHomeWord (s : State) (user : Bool) (p n x : Nat) : Act State :=
  if isDevicePlace p then s.writeDevice (!user) (localOfPlace p) n x else .ok (s.writeAt p n x)

/-- An atomic that is lost or meets poison: a returning one faults at its marker, a reduction asynchronously (R128, R132,
R396). -/
def loseAtomic (s : State) (t : PendingAtomic) : State :=
  match t.long with
  | some _ => s.faultLong t.hart t.long 0x0E t.va
  | none => s.asyncFail t.async 0x0E (s.targetScope t.hart t.place)

/-- An atomic waits: for earlier ones of its hart, for stores and atomics ahead of it on its path, for the dirty quota of
its page (R250), and, as a release, for what it must follow (R145). -/
def atomicWaits (s : State) (older : List PendingAtomic) (t : PendingAtomic) : Bool :=
  older.any (fun u => u.hart == t.hart || (u.release.isNone && s.samePath u.place t.place)) ||
    s.stores.any (fun u => decide (u.since < t.since) && ((u.release.isNone && s.samePath u.place t.place) ||
      (u.hart == t.hart && s.follows [⟨t.place, t.size, 0⟩] u))) ||
    s.quotaHolds t.place || (t.release.isSome && s.noCredit .request t.place) ||
    (match t.release with
     | some r => s.releaseWaits t.hart r.scope t.since (s.stores.filter (fun u => decide (u.since < t.since))) ||
         s.mustFlush t.hart r.scope
     | none => false)

/-- An atomic that package `req` asked for, in an address space, executes at its unit, in one step (R141 to R144, R160,
R244). -/
def runAtomicOf (s : State) (req asid : Nat) (t : PendingAtomic) : Act State :=
  let s := s.eccPlace t.slot t.place t.size
  if s.poisoned t.place t.size || s.homeLost t.place then .ok (s.loseAtomic t)
  else do
    let s := s.releaseSent t.hart t.place t.release
    let s := s.countAtomic t.place req asid t.va
    if t.kind = 0 then do
      let old ← s.homeWord t.place t.size
      let s ← s.setHomeWord t.user t.place t.size (atomicNew t.op t.size old (nth t.operands 0))
      .ok (s.fillLong t.hart t.long [.s t.d (BitVec.ofNat 64 old)])
    else if t.kind = 1 then do
      let old ← s.homeWord t.place t.size
      let s ← if old = nth t.operands 0 then s.setHomeWord t.user t.place t.size (nth t.operands 1) else .ok s
      .ok (s.fillLong t.hart t.long [.s t.d (BitVec.ofNat 64 old)])
    else if t.kind = 2 then
      let o0 := s.readAt t.place 8
      let o1 := s.readAt (t.place + 8) 8
      let s := if o0 = nth t.operands 0 ∧ o1 = nth t.operands 1 then
        (s.writeAt t.place 8 (nth t.operands 2)).writeAt (t.place + 8) 8 (nth t.operands 3) else s
      .ok (s.fillLong t.hart t.long [.s t.d (BitVec.ofNat 64 o0), .s (t.d + 1) (BitVec.ofNat 64 o1)])
    else
      let n := s.readAt t.place 8
      let w := s.readAt (t.place + 8) 8
      if n = 0 then .ok s
      else
        let s := s.writeAt t.place 8 (n - 1)
        if n = 1 ∧ w ≠ 0 then
          match t.slot with
          | some slot => .ok (s.makeReady (s.canonAddr t.hart (w / 64 * 64)) slot (t.hart / 8))
          | none => .ok s
        else .ok s

/-- An atomic of a hart executes at its unit. -/
def runAtomic (s : State) (t : PendingAtomic) : Act State := s.runAtomicOf s.hub.pkg (s.hartAt t.hart).asid t

/-! ### Near-memory operations (R146) -/

/-- A near-memory operation as the maker of its accesses. -/
def whoNear (s : State) (t : PendingNear) : Who :=
  { hart := t.hart, asid := t.asid, user := t.user, slot := t.slot, flock := t.flock, scratch := false,
    leases := some (match t.slot with
      | some n => match s.launchAt n with
        | some l => l.ranges
        | none => []
      | none => []) }

/-- A lent region takes the borrower's accesses alone (R251), and memory those of the paddock (R4). -/
def takesFrom (s : State) (p req : Nat) : Bool :=
  s.inPaddock req && req != s.hub.pkg && s.hub.agist.all (fun a =>
    let base := placeOf a.lender a.lbase
    !(a.lender == s.hub.pkg && decide (2 ≤ a.state ∧ base ≤ p ∧ p < base + a.size)) ||
      (a.borrower == req && decide (a.state ≤ 3)))

/-- This package's memory that an access of another package reaches: tier 1 or 3, the region its own or lent to it, and no
move of the page under way (R141, R246, R251). -/
def foreignOk (s : State) (p req : Nat) : Bool :=
  pkgOfPlace p == s.hub.pkg && (localTier (localOfPlace p) == 1 || localTier (localOfPlace p) == 3) && s.takesFrom p req &&
    !s.pageWaits p

/-- The L1 entry of an address in the tables, which all packages share (R228): 0 where no path leads to one. -/
def leafWord (s : State) (asid a : Nat) : Act Nat := do
  let root ← s.physWord (placeOf s.hub.pkg (bits s.hub.asidtab.toNat 16 29 * 65536 + 8 * asid))
  let e3 ← if bit root 0 && s.tablePageOk root then s.physWord (entryPage root + 8 * bits a 42 13) else .ok 0
  let e2 ← if s.isPointer e3 then s.physWord (entryPage e3 + 8 * bits a 29 13) else .ok 0
  if s.isPointer e2 then s.physWord (entryPage e2 + 8 * bits a 16 13) else .ok 0

/-- A leaf of another package of the paddock: its own HBM or expansion memory, as that package's walker reads it (R231). -/
def leafElsewhere (s : State) (e : Nat) : Bool :=
  let pkg := pkgOfPlace (entryPage e)
  let tier := bits e 6 3
  bit e 0 && bits e 1 3 != 0 && bits e 13 3 == 0 && bits e 9 2 == 0 && (tier == 1 || tier == 3) &&
    localTier (localOfPlace (entryPage e)) == tier && pkg != s.hub.pkg && s.inPaddock pkg

/-- The place that the tables give an address of another package's access: its leaf names a page of this package. -/
def foreignPlace (s : State) (req asid a : Nat) : Act Nat := do
  let e1 ← s.leafWord asid a
  let p := entryPage e1 + a % 65536
  if bit e1 0 && bits e1 9 2 == 0 && s.foreignOk p req then .ok p else .error .wait

/-- The pieces of a near-memory operation's access: those of another package's lie in this one's memory. -/
def nearChunks (s : State) (t : PendingNear) (f : Form) (a n : Nat) : Act (State × List Chunk) :=
  match t.from_ with
  | none => s.check (s.whoNear t) f a n n
  | some req => if a % n ≠ 0 then .error (.trap 0x04 a)
    else (s.foreignPlace req t.asid a).map (fun p => (s, [⟨p, n, 0⟩]))

/-- A read of a near-memory operation. -/
def nearRead (s : State) (t : PendingNear) (a n : Nat) : Act (State × Nat) :=
  if t.from_.isSome then do
    let (s, cs) ← s.nearChunks t .nearRead a n
    s.checkData cs a
    let l ← s.readChunks cs
    .ok (s, ofBytes l)
  else do
    let (s, l) ← s.readBytes (s.whoNear t) .nearRead a n n
    .ok (s, ofBytes l)

/-- A write of a near-memory operation, checked and performed. -/
def nearWrite (s : State) (t : PendingNear) (a n x : Nat) : Act State := do
  let (s, cs) ← s.nearChunks t .near a n
  s.writeNow false a cs (bytesOf n x)

/-- What a near-memory operation writes back to its argument block (R146); another package's block lies there. -/
def nearBack (s : State) (t : PendingNear) (o n x : Nat) : State :=
  if t.from_.isSome then s else s.writeAt (t.argPlace + o) n x

/-- `nmcas4` (R146): the old value. -/
def runCas4 (s : State) (t : PendingNear) : Act (State × Nat) := do
  let (s, _) ← s.nearChunks t .near t.addr 32
  let (s, old) ← s.nearRead t t.addr 32
  let s ← if old = joinLanes 64 (t.arg.take 4)
    then s.nearWrite t t.addr 32 (joinLanes 64 ((t.arg.drop 4).take 4)) else .ok s
  .ok (s.nearBack t 0 32 old, bool1 (old == joinLanes 64 (t.arg.take 4)))

/-- `nmenq` (R146): the old tail. Everything is checked, and the tail read, before the first write: a fault leaves memory
unchanged. An unaligned link offset is reported at the link field; the TVAL of a node of 0, no rule states (log 4). -/
def runEnq (s : State) (t : PendingNear) : Act (State × Nat) := do
  let node := nth t.arg 0
  let lo := nth t.arg 1
  if node = 0 then .error (.trapFree 0x04)
  else if lo % 8 ≠ 0 then .error (.trap 0x04 ((node + lo) % 2 ^ 64))
  else do
    let (s, _) ← s.nearChunks t .near ((node + lo) % 2 ^ 64) 8
    let (s, _) ← s.nearChunks t .near t.addr 16
    let s ← s.nearWrite t ((node + lo) % 2 ^ 64) 8 0
    let (s, tail) ← s.nearRead t (t.addr + 8) 8
    let s ← if tail = 0 then s.nearWrite t t.addr 8 node else s.nearWrite t ((tail + lo) % 2 ^ 64) 8 node
    let s ← s.nearWrite t (t.addr + 8) 8 node
    .ok (s, tail)

/-- The hops of `nmchase`: the pointer, the hops made, and the fault that stopped it. -/
def chase (s : State) (t : PendingNear) : Nat → Nat → Nat → State × Nat × Nat × Option Stop
  | 0, p, h => (s, p, h, none)
  | n + 1, p, h =>
    if p = 0 then (s, p, h, none)
    else
      let found : Act (State × Bool) :=
        if bit (nth t.arg 4) 0 then do
          let (s, x) ← s.nearRead t ((p + nth t.arg 2) % 2 ^ 64) 8
          .ok (s, x == nth t.arg 3)
        else .ok (s, false)
      match found with
      | .error e => (s, p, h, some e)
      | .ok (s, true) => (s, p, h, none)
      | .ok (s, false) =>
        match s.nearRead t ((p + nth t.arg 1) % 2 ^ 64) 8 with
        | .error e => (s, p, h, some e)
        | .ok (s, q) => s.chase t n q (h + 1)

/-- `nmchase` (R146). Word 5 of the block is written also on a fault; the TVAL of a count above 4,096, no rule states
(log 4). -/
def runChase (s : State) (t : PendingNear) : State × Nat × Option Stop :=
  if 4096 < nth t.arg 0 then (s.nearBack t 40 8 0, 0, some (.trapFree 0x08))
  else
    let (s, p, h, e) := s.chase t (nth t.arg 0) t.addr 0
    (s.nearBack t 40 8 h, p, e)

/-- The page of a near-memory operation's address is counted for the package whose it is (R244). -/
def countNear (s : State) (t : PendingNear) : State :=
  match s.nearChunks t .nearRead t.addr 8 with
  | .ok (_, c :: _) => s.countAtomic c.place (t.from_.getD s.hub.pkg) t.asid t.addr
  | _ => s

/-- A near-memory operation executes (R146); its fault is delivered at the marker and leaves memory unchanged but for
the hop count. -/
def runNear (s : State) (t : PendingNear) : Act State :=
  let s := (s.eccAddr t.slot t.hart t.asid t.addr (if t.op = 0 then 32 else 16)).countNear t
  let deliver := fun (s : State) (r : Act (State × Nat)) => match r with
    | .ok (u, x) => Except.ok (u.fillLong t.hart (some t.long) [.s t.d (BitVec.ofNat 64 x)])
    | .error (.trap c v) => Except.ok (s.faultLong t.hart (some t.long) c v)
    | .error (.trapSeen r c v) => Except.ok ((s.touch r).faultLong t.hart (some t.long) c v)
    | .error (.trapFree c) => Except.ok (s.freeValue.2.faultLong t.hart (some t.long) c s.freeValue.1.toNat)
    | .error e => Except.error e
  if t.op = 0 then deliver s (s.runCas4 t)
  else if t.op = 1 then deliver s (s.runEnq t)
  else
    match s.runChase t with
    | (u, x, none) => deliver u (.ok (u, x))
    | (u, _, some e) => deliver u (.error e)

/-! ### Matrix products (R171 to R176, R215) -/

/-- The segments of a plane tile in the core's local memory, as the matrix port reads them. -/
def readTile (s : State) (core f a : Nat) : List Segment :=
  (upFrom 0 64).map (fun i => readSegment f (s.bytesAt (placeLocal core (a % 2 ^ 19 + segSize f * i)) (segSize f)))

/-- The lowest poisoned 8-byte word of a tile, as an offset (R176). -/
def poisonedWord (s : State) (core f a : Nat) : Option Nat :=
  if s.poison.isEmpty then none
  else ((upFrom 0 (8 * segSize f)).map (fun i => a % 2 ^ 19 + 8 * i)).find?
    (fun o => s.poisoned (placeLocal core o) 8)

/-- The operand tiles of a product: format and address. -/
def productTiles (p : Product) : List (Nat × Nat) :=
  if p.dual then [(p.fa, p.a), (p.fb, p.b), (p.fb, p.b + 64 * segSize p.fb)] else [(p.fa, p.a), (p.fb, p.b)]

/-- Stores that the strand of a product made before it to its operands perform before it reads them (R216). -/
def productFirst (s : State) (c : Nat) (p : Product) : Act State :=
  s.drainWhere (fun t => ofHart p.hart t && decide (t.since < p.since) && (productTiles p).any (fun e =>
    decide (t.place < placeLocal c (e.2 % 2 ^ 19) + 64 * segSize e.1 ∧ placeLocal c (e.2 % 2 ^ 19) < t.place + t.data.length)))

/-- Words of the operands that the event names and that stay uncorrectable after their re-read: their lines are poisoned (R176,
R395). -/
def failedWords (s : State) (c : Nat) (p : Product) (l : List Nat) : List Nat :=
  (l.map (fun o => o % 2 ^ 19 / 8 * 8)).filter (fun o => (productTiles p).any (fun e =>
    decide (e.2 % 2 ^ 19 ≤ o ∧ o < e.2 % 2 ^ 19 + 64 * segSize e.1)) && !s.poisoned (placeLocal c o) 8)

/-- A product reads its operands and its checks are decided (R176, R215): `mode` 0 match, 1 match after a rerun, 2 a
second mismatch. Words that stay uncorrectable decide first, where both happen (log 101). -/
def consumeProduct (s : State) (c : Nat) (p : Product) (mode : Nat) (words : List Nat) : State :=
  let core := s.coreAt c
  let bad := (words ++ (productTiles p).filterMap (fun t => s.poisonedWord c t.1 t.2)).min?
  let rows := s.readTile c p.fa p.a
  let one := fun tile b => TileOp.product tile p.fa p.fb p.k rows (s.readTile c p.fb b)
  let ops := if p.dual then [one 0 p.b, one 1 (p.b + 64 * segSize p.fb)] else [one p.tile p.b]
  let h := s.hartAt p.hart
  let h := match bad with
    | some o => h.fill p.long (fun r => { r with fault := some (0x0E, 0xF0 * 2 ^ 56 + o) })
    | none =>
      if mode = 2 then h.fill p.long (fun r => { r with fault := some (0x0D, s.freeValue.1.toNat) })
      else h.fill p.long (fun r => { r with tiles := ops })
  let h := if mode = 1 then
    { h with mstatus := if h.mstatus % 2 ^ 16 < 0xFFFF then h.mstatus + 1 else h.mstatus } else h
  let s := (if mode = 2 then s.freeValue.2 else s).setHart p.hart h
  s.setCore c { core with
    consumed := (core.consumed + 1) % 2 ^ 64,
    products := core.products.map (fun q => if q.hart = p.hart ∧ q.long = p.long then { q with consumed := true } else q) }

/-- A product is finished: its queue entry frees and its result is ready for the marker (R224). -/
def finishProduct (s : State) (c : Nat) (p : Product) : State :=
  let s := s.setHart p.hart ((s.hartAt p.hart).fill p.long (fun r => { r with queued := false }))
  let core := s.coreAt c
  s.setCore c { core with products := core.products.filter (fun q => !(q.hart == p.hart && q.long == p.long)) }

/-- Products of a core consumed and finished, in issue order. -/
def settleProductList (s : State) (c : Nat) : List Product → Act State
  | [] => .ok s
  | p :: t => do
    let s ← if p.consumed then .ok s else (s.productFirst c p).map (fun u => u.consumeProduct c p 0 [])
    (s.finishProduct c p).settleProductList c t

/-- Every product queued on a core consumed and finished, in issue order. -/
def settleProducts (s : State) (c : Nat) : Act State := s.settleProductList c (s.coreAt c).products

/-! ### Everything a hart has under way -/

/-- An atomic on its way executes, unless it must wait. -/
def tryAtomic (s : State) (t : PendingAtomic) : Act State :=
  if s.atomicWaits (s.atomics.takeWhile (fun u => u != t)) t then .error .wait
  else ({ s with atomics := s.atomics.erase t } : State).runAtomic t

/-- The atomics of a list that `mine` names executed in order; they wait for one that may not execute yet. -/
def settleAtomicList (s : State) (mine : PendingAtomic → Bool) : List PendingAtomic → Act State
  | [] => .ok s
  | t :: r =>
    if mine t && s.atomics.contains t then do
      let s ← s.tryAtomic t
      s.settleAtomicList mine r
    else s.settleAtomicList mine r

/-- Every atomic that `mine` names executed. -/
def settleAtomicsWhere (s : State) (mine : PendingAtomic → Bool) : Act State := s.settleAtomicList mine s.atomics

/-- Every atomic of a hart executed. -/
def settleAtomics (s : State) (k : Nat) : Act State := s.settleAtomicsWhere (fun t => t.hart == k)

/-- The hart's near-memory operations of a list executed in order. -/
def settleNearList (s : State) (k : Nat) : List PendingNear → Act (State × List PendingNear)
  | [] => .ok (s, [])
  | t :: r =>
    if t.hart = k then do
      let s ← s.runNear t
      s.settleNearList k r
    else do
      let (s, r) ← s.settleNearList k r
      .ok (s, t :: r)

/-- Every near-memory operation of a hart executed, after its stores. -/
def settleNears (s : State) (k : Nat) : Act State :=
  if s.nears.any (fun t => t.hart == k) then do
    let s ← s.drainStores k
    let (s, r) ← s.settleNearList k s.nears
    .ok { s with nears := r }
  else .ok s

/-- Every access of a hart performed, and every result it waits for come back: the stores at their homes, atomics and
near-memory operations executed. This is one allowed timing of the units. -/
def settleAccesses (s : State) (k : Nat) : Act State := do
  let s ← s.drainStores k
  let s ← s.settleAtomics k
  s.settleNears k

/-- Every long result of a hart comes back (R31): what forced markers wait for. -/
def settle (s : State) (k : Nat) : Act State := do
  let s ← if s.atomics.isEmpty && s.nears.isEmpty then .ok s else s.settleAccesses k
  if (s.coreAt (k / 8)).products.isEmpty then .ok s else s.settleProducts (k / 8)

/-- Accesses of one hart to one byte perform in program order (R133): atomics and near-memory operations that the hart
has under way perform before its next access, and its stores to poisoned lines, which they may clean (R132). -/
def inOrder (s : State) (k : Nat) : Act State :=
  if s.atomics.any (fun t => t.hart == k) || s.nears.any (fun t => t.hart == k) then s.settleAccesses k
  else s.drainWhere (fun t => ofHart k t && s.poisoned t.place t.data.length)

/-- No later send of a hart leaves before its acquires have performed (R142, R145). -/
def acquiresFirst (s : State) (k : Nat) : Act State :=
  if s.atomics.any (fun t => t.hart == k && t.acq) then s.settleAtomics k else .ok s

/-- A line's part of a store leaves for its home; to another package it needs a credit of its link (R428). -/
def issuePiece (s : State) (k va progress : Nat) (release : Option Release) (replica : Bool)
    (e : Nat × List Nat × List Nat) : Act State :=
  let h := s.hartAt k
  let pkg := pkgOfPlace e.1
  if release.isNone && s.noCredit (if replica then .replica else .request) e.1 then .error .wait
  else
    let t : PendingStore :=
      { hart := k, place := e.1, data := e.2.1, skip := e.2.2, va := va, pkg := pkg, replica := replica,
        slot := h.slot, flock := h.flock, pc := h.pc, progress := progress, owner := .hart k, since := s.cycle,
        release := release, user := !h.sup }
    let s : State := { s with stores := s.stores ++ [t] }
    .ok (if release.isSome || isScratch e.1 then s else if replica then s.addDest k pkg else s.noteDest k pkg)

/-- The parts of a store leave in order. -/
def issueAll (s : State) (k va progress : Nat) (release : Option Release) (replica : Bool) :
    List (Nat × List Nat × List Nat) → Act State
  | [] => .ok s
  | e :: t => do
    let s ← s.issuePiece k va progress release replica e
    s.issueAll k va progress release replica t

/-- The pieces of a hart's store issue, with the bytes that a mask leaves out as none: scratchpads and device pages perform
at once, after the hart's earlier stores to the same bytes (R133); others, and releases, leave for their homes line by
line, through every replica (R268). -/
def issueBytes (s : State) (k va progress : Nat) (release : Option Release) : List Chunk → List (Option Nat) → Act State
  | [], _ => .ok s
  | c :: t, data => do
    let d := data.take c.n
    let s ←
      if release.isNone && (c.leaf == 0 || c.type == 2) then do
        let s ← s.ownFirst k [c]
        if c.leaf = 0 then .ok ((linePieces c.place d).foldl (fun s e => s.performMasked e.1 e.2.1 e.2.2) s)
        else s.performChunk (!(s.hartAt k).sup) c (d.map (fun x => x.getD 0))
      else s.issueAll k va progress release (c.type == 1) ((s.replicas c).flatMap (fun p => linePieces p d))
    s.issueBytes k va progress release t (data.drop c.n)

/-- The pieces of a hart's store issue. -/
def issueChunks (s : State) (k va : Nat) (cs : List Chunk) (data : List Nat) : Act State :=
  s.issueBytes k va 0 none cs (data.map some)

end State

end Sys2Proof.Machine
end

