-- ==== Sys2Proof/Machine/Ops.lean ====
section
/-!
DEFINITION. The marker, the fault record, taking an exception and returning from one, and the outcome of a meaning from
its body.
-/

namespace Sys2Proof.Machine

/-! ### Taking an exception (R382 to R388) -/

/-- A cause is recorded in the completion record when its trap is taken (R386). -/
def isRecorded (cause : Nat) : Bool := cause != 0x09 && cause != 0x0A && cause != 0x13

/-- TSTATUS with the fields of a trap set; PSN and PSCOPE keep their values (R382, R410). -/
def trapStatus (old : Nat) (sup defer dmore : Bool) : Nat :=
  1 + 2 * bool1 sup + 4 * bool1 defer + 8 * bool1 dmore + 16 * (old / 16)

/-- A tile after one change (R171, R218, R220). -/
def Tile.apply (t : Tile) : TileOp → Tile
  | .zero _ f => ⟨[], f⟩
  | .product _ _ _ k rows cols =>
    let old := (upFrom 0 4096).map (fun i => Store.get {} t.els i)
    let new := productInto rows cols k t.anchor old
    { t with els := (List.zip (upFrom 0 4096) new).filter (fun e => e.2 ≠ ({} : Elem)) }
  | .put _ row q l =>
    { t with els := (List.zip (upFrom 0 16) l).foldl (fun e (k, x) =>
        Store.set {} e (64 * row + 16 * q + k)
          { a := BitVec.ofNat 56 x, nan := bit x 57, ov := bit x 56 }) t.els }

/-- The tile a change names. -/
def TileOp.tile : TileOp → Nat
  | .zero t _ => t
  | .product t _ _ _ _ _ => t
  | .put t _ _ _ => t

/-- A change applied to the core's tile. -/
def Core.applyTile (c : Core) (o : TileOp) : Core :=
  if o.tile = 0 then { c with za0 := c.za0.apply o, zaDirty := c.zaDirty ||| 1 }
  else { c with za1 := c.za1.apply o, zaDirty := c.zaDirty ||| 2 }

/-- The results of a return buffer written in program order (R31, R82, R385): a faulting instruction writes nothing. -/
def Hart.writeLongs (h : Hart) : List LongRes → Hart
  | [] => h
  | r :: t =>
    if r.fault.isSome then h.writeLongs t
    else
      let h := r.writes.foldl Hart.applyWrite h
      ({ h with fflags := h.fflags ||| r.flags, mstatus := h.mstatus ||| r.mstatus }).writeLongs t

/-- The tile changes of a return buffer applied in program order (R172). -/
def Core.writeTiles (c : Core) : List LongRes → Core
  | [] => c
  | r :: t => (if r.fault.isSome then c else r.tiles.foldl Core.applyTile c).writeTiles t

/-- The oldest deferred fault of a return buffer, with its word, and whether a later one is discarded (R385). -/
def oldestFault (l : List LongRes) : Option (Nat × Nat × Nat × Bool) :=
  match l.filter (fun r => r.fault.isSome) with
  | [] => none
  | r :: t =>
    match r.fault with
    | some (c, v) => some (r.waddr, c, v, !t.isEmpty)
    | none => none

namespace State

/-- Every result of the issuing hart written (R31). -/
def writeBack (s : State) : State :=
  let h := s.me
  let s := if h.longs.all (fun r => r.tiles.isEmpty) then s else s.setCore s.coreNo (s.myCore.writeTiles h.longs)
  s.setMe { (h.writeLongs h.longs) with longs := [], parked := false, releaseHeld := 0 }

/-- The fault record of a trap of the issuing hart. -/
def faultRec (s : State) (cause tepc tval progress : Nat) (async defer abort : Bool) : FaultRec :=
  { cause := cause, async := async, defer := defer, abort := abort, pc := tepc, addr := tval, progress := progress,
    core := s.coreNo, strand := s.strandNo % 4, drover := s.isDrover, flock := s.me.flock }

/-- A strand freed: idle, with nothing of the continuation left (R39, R393). The aged counters and the strand's place
in its flock stay. -/
def idleHart (h : Hart) : Hart :=
  { h with
    occ := false, halted := false, parked := false, longs := [], herd := none, herdPassed := false, latch := none,
    heldAnti := none, handlerTag := none, record := none, fetch := [], q := [], age := 0, word := 0,
    resumed1 := false, flow := .gone, tstatus := h.tstatus % 16, waitSlot := false, spawnWait := false, susp := none, releaseHeld := 0, ectx := 0,
    vt := BitVec.allOnes 64, snap := none, late := [], kept := false, reread := 0, taken := [] }

/-- A table of units kept canonical after every unit is rewritten. -/
def mapUnits {α : Type} [DecidableEq α] (d : α) (l : Store α) (g : Nat → α → α) : Store α :=
  (l.map (fun e => (e.1, g e.1 e.2))).filter (fun e => e.2 ≠ d)

/-- Accesses under way given to other owners: stores, atomics and moves. -/
def mapOwner (s : State) (g : Owner → Owner) : State :=
  { s with
    stores := s.stores.map (fun t => { t with owner := g t.owner }),
    atomics := s.atomics.map (fun t => { t with owner := g t.owner }),
    cores := mapUnits {} s.cores (fun _ c =>
      if c.moves.isEmpty then c else { c with moves := c.moves.map (fun m => { m with owner := g m.owner }) }) }

/-- Takes of a hart that are on their way go on, and nothing waits for them (R419). -/
def orphanTakes (s : State) (k : Nat) : State :=
  { s with hub := { s.hub with takes := s.hub.takes.map (fun t => if t.hart = k then { t with orphan := true } else t) } }

/-- What a hart still has under way when its continuation ends poisons no strand (R389). -/
def disown (s : State) (k : Nat) : State := (s.mapOwner (fun o => if o = .hart k then .nobody else o)).orphanTakes k

/-- What a continuation has under way when it suspends stays its own (R274). -/
def park (s : State) (k addr slot : Nat) : State := s.mapOwner (fun o => if o = .hart k then .record addr slot else o)

/-- A continuation picked up runs on a strand, which a failure of its accesses poisons (R274). -/
def adopt (s : State) (k addr slot : Nat) : State := s.mapOwner (fun o => if o = .record addr slot then .hart k else o)

/-- A hart's continuation ends and the strand becomes idle (R39). -/
def freeHart (s : State) (k : Nat) : State := (s.setHart k (idleHart (s.hartAt k))).disown k

/-- A launch aborted (R388, R393): it places no further flock, its strands and drover programs stop and are freed, its
moves stop at a row boundary, and its messages are discarded. -/
def abortLaunch (s : State) (slot : Nat) : State :=
  match s.launchAt slot with
  | none => s
  | some l =>
    let l := { l with aborted := true, flocks := l.flocks.map (fun f =>
      if f.status = 2 ∨ f.status = 3 then { f with images := [], status := if f.status = 2 then 1 else 4 }
      else if f.status = 0 then { f with status := 4 } else f) }
    let s := s.setLaunch slot (some l)
    let mine := (s.harts.filter (fun e => e.2.slot == some slot && e.2.occ)).map (·.1)
    let s := mine.foldl (fun s k => s.freeHart k) s
    let cores := mapUnits {} s.cores (fun _ c =>
      { c with
        moves := c.moves.filter (fun m => m.launch ≠ some slot),
        products := c.products.filter (fun p => !mine.contains p.hart),
        mailWait := if (c.droverOwner.map (·.1)) = some slot then none else c.mailWait,
        droverOwner := if (c.droverOwner.map (·.1)) = some slot then none else c.droverOwner,
        inbox := if c.tableOwner = some slot then [] else c.inbox,
        joins := c.joins.filter (fun j => j.2.2 ≠ slot) })
    let clusters := mapUnits {} s.clusters (fun _ c =>
      { c with
        ready := c.ready.filter (fun e => e.2 ≠ slot),
        poolBusy := c.poolBusy.filter (fun i => !c.pool.any (fun e => e.1 == i && e.2.1 == slot)) })
    let s := match s.hub.preqJob with
      | some (n, num) => if n = slot ∧ num ≠ noFlock then s.clearBusy slot num else s
      | none => s
    { s with cores := cores, clusters := clusters,
             hub := { s.hub with conts := s.hub.conts.filter (fun c => c.slot ≠ slot) } }

/-- A drover program has stopped, and its accesses have performed: the value is in its mailbox (R124). -/
def endProgram (s : State) (value : Word) : State :=
  let s := s.freeHart s.hart
  (s.setCore s.coreNo { s.myCore with mailbox := some value, mailWait := none, droverOwner := none }).serveJoin s.coreNo

/-- A drover program stops: its mailbox is written as a store-release at .co, after every earlier access of the program,
its moves among them (R124, R260). Until then the program has not ended. -/
def stopDrover (s : State) (value : Word) : State :=
  if s.releaseWaits s.hart 1 (s.cycle + 1) s.stores then
    (s.setMe { s.me with halted := true, flow := .gone, parked := false, longs := [], fetch := [] }).setCore s.coreNo
      { s.myCore with mailWait := some value }
  else s.endProgram value

/-- Trap entry (R382), or the abort that a nested trap or an unusable vector makes (R388). A fault of a drover program
traps no strand: it is recorded, and the program stops with the bundle of the faulting word in its mailbox (R124; log 73). -/
def enterTrap (s : State) (cause tepc tval tresume progress : Nat) (defer dmore recd : Bool) : State :=
  let h := s.me
  if s.isDrover then
    let s := if recd && isRecorded cause then
      s.recordIn h.slot (s.faultRec cause tepc tval progress false defer false) else s
    s.stopDrover (BitVec.ofNat 64 (2 ^ 63 + cause % 256 * 2 ^ 32 + tepc / 8 * 8 % 2 ^ 32))
  else if h.tstatus % 2 = 1 ∨ h.tvec = 0 ∨ 2 ^ 55 ≤ h.tvec then
    let s := s.recordIn h.slot (s.faultRec cause tepc tval progress false defer true)
    match h.slot with
    | some n => s.abortLaunch n
    | none => s.freeHart s.hart
  else
    let s := if recd && isRecorded cause then
      s.recordIn h.slot (s.faultRec cause tepc tval progress false defer false) else s
    s.setMe { s.me with
      tcause := cause % 256, tepc := tepc, tval := BitVec.ofNat 64 tval, tresume := tresume,
      tstatus := trapStatus h.tstatus h.sup defer dmore, sup := true, pc := h.tvec, npc := h.tvec, word := 0,
      resumed1 := false, flow := .trap, fetch := [], snap := none, herd := none, herdPassed := false }

/-- A precise fault of the issuing word (R384): the outstanding long results are written first, and a deferred fault
among them is taken instead. -/
def takeTrapAs (s : State) (cause tval tepc tresume progress : Nat) (recd : Bool) : Act State := do
  let s ← s.settle s.hart
  let longs := s.me.longs
  let s := s.writeBack
  match oldestFault longs with
  | some (w, c, v, more) => .ok (s.enterTrap c w v s.faultAddr 0 true more true)
  | none => .ok (s.enterTrap cause tepc tval tresume progress false false recd)

/-- A precise fault that resumes at the faulting word. -/
def takeTrap (s : State) (cause tval : Nat) : Act State :=
  s.takeTrapAs cause tval s.faultAddr s.faultAddr 0 true

/-- The marker at the issuing hart (R31, R385): the results, all come back, are written, and the oldest deferred fault
is delivered, resuming at `next`. -/
def marker (s : State) (next : Nat) : State :=
  let longs := s.me.longs
  let s := s.writeBack
  match oldestFault longs with
  | some (w, c, v, more) => s.enterTrap c w v next 0 true more true
  | none => s

/-- A marker inside an instruction (R39, R101, R104): it waits until every result has come back; this is taken to happen
at once, one allowed timing (log 8). Whether the trap of a deferred fault was taken. -/
def innerMarker (s : State) (next : Nat) : Act (State × Bool) := do
  let s ← s.settle s.hart
  let hit := (oldestFault s.me.longs).isSome
  .ok (s.marker next, hit)

/-- The strand waits at issue (R14). -/
def hold (s : State) : State := s.setMe { s.me with flow := .wait }

end State

/-- The outcome of trap entry: a trap that must wait for results holds the word. -/
def trapOutcome (s : State) (r : Act State) : Host.Outcome State Fault Refusal :=
  match r with
  | .ok t => .next t
  | .error (.fault f) => .fault f
  | .error (.refuse r) => .refused r
  | .error (.waitIn u) => .next u.hold
  | .error _ => .next s.hold

/-- The outcome of a meaning from its body: a precise fault is taken from the state before the word (R384), and a late
one is delivered at the marker (R33). -/
def finish (s : State) (r : Act State) : Host.Outcome State Fault Refusal :=
  match r with
  | .ok t => .next t
  | .error (.trap c v) => trapOutcome s (s.takeTrap c v)
  | .error (.trapSeen r c v) => trapOutcome s ((s.touch r).takeTrap c v)
  | .error (.trapFree c) => trapOutcome s (s.freeValue.2.takeTrap c s.freeValue.1.toNat)
  | .error (.trapRecorded c v) => trapOutcome s (s.takeTrapAs c v s.faultAddr s.faultAddr 0 false)
  | .error (.trapAt c v p) => trapOutcome s (s.takeTrapAs c v s.faultAddr s.faultAddr p true)
  | .error (.late c v) => .next (s.deferFault c v)
  | .error (.lateSeen r c v) => .next ((s.touch r).deferFault c v)
  | .error .wait => .next s.hold
  | .error (.waitIn u) => .next u.hold
  | .error (.waitWalk d a p) => .next (s.queueWalk d a p).hold
  | .error .waitSlot => .next s.hold
  | .error (.fault f) => .fault f
  | .error (.refuse r) => .refused r

/-- A fault of a long instruction's checks is delivered at the marker (R33, R128). -/
def deferring {α : Type} (r : Act α) : Act α :=
  match r with
  | .error (.trap c v) => .error (.late c v)
  | .error (.trapSeen r c v) => .error (.lateSeen r c v)
  | r => r

/-- The outcome of a step of another agent: one that is not enabled changes nothing (log 7). -/
def finishEvent (s : State) (r : Act State) : Host.Outcome State Fault Refusal :=
  match r with
  | .ok t => .next t
  | .error (.fault f) => .fault f
  | .error (.refuse r) => .refused r
  | .error (.waitWalk d a p) => .next (s.queueWalk d a p)
  | .error _ => .next s

/-- A step of a unit on behalf of a hart that does not hold the issue slot. -/
def State.onHart (s : State) (k : Nat) (g : State → State) : State := { g { s with hart := k } with hart := s.hart }

end Sys2Proof.Machine
end

