-- ==== Sys2Proof/Machine/Operands.lean ====
section
/-!
DEFINITION. The operand forms: constant-window words (R25), base and offset addresses (R134), transfer targets (R90,
R91), ranges of lanes and mask bits (R23).
-/

namespace Sys2Proof.Machine

/-- The place of word kN of the issuing strand's constant window, and the word (R25). -/
def State.kPlace (s : State) (k : Nat) : Nat := placeLocal s.coreNo (0x800 * s.strandNo + 8 * k)
def State.kWord (s : State) (k : Nat) : Nat := s.readAt (s.kPlace k) 8

/-- An instruction with a constant-window operand: the word is read after every earlier access of the strand to it, which the
instruction waits for at issue (R25, R133). -/
def State.withK (s : State) (k : Nat) (g : State → Nat → State) : Host.Outcome State Fault Refusal :=
  let mine := fun (p n : Nat) => decide (p < s.kPlace k + 8 ∧ s.kPlace k < p + n)
  finish s (do
    let s ← s.ownFirst s.hart [⟨s.kPlace k, 8, 0⟩]
    let s ← s.settleAtomicsWhere (fun t => t.hart == s.hart && mine t.place t.size)
    let s ← if s.nears.any (fun t => t.hart == s.hart && mine t.argPlace 64) then s.settleNears s.hart else .ok s
    .ok (g s (s.kWord k)))

/-- A scaled signed offset added to a base address (R134). -/
def baseOffset (base : Nat) (o : Int) (scale : Nat) : Nat := wrap 64 ((base : Int) + o * scale)

/-- The target of a transfer: an offset in bundles from the issuing bundle (R47, R90). -/
def State.target (s : State) (o : Int) : Nat := wrap 64 ((s.me.pc : Int) + 8 * o)

/-- The address of the bundle after the issuing one (R48). -/
def State.nextBundle (s : State) : Nat := s.me.pc + 8

/-- The bits of a mask register for `n` lanes (R23). -/
def State.maskBits (s : State) (m n : Nat) : List Bool := (upFrom 0 n).map (fun i => bit (s.rm m) i)

/-- 64 lanes of 32 bits of a register pair: lanes 0 to 31 in the even register (R23). -/
def State.pair32 (s : State) (a : Nat) : List Nat := lanes 32 (s.rv a) ++ lanes 32 (s.rv (a + 1))

/-- The writes of 64 lanes of 32 bits to a register pair (R23). -/
def writePair32 (d : Nat) (l : List Nat) : List RegWrite :=
  [.v d (ofLanes 32 (l.take 32)), .v (d + 1) (ofLanes 32 (l.drop 32))]

end Sys2Proof.Machine
end

