-- ==== Sys2Proof/Machine/Lists.lean ====
section
/-!
DEFINITION. Effect lists in the launch's arena (R303 to R310, R343): handles, blocks, entries, frames, recording and
read-own-write. The lists are bytes of global memory, and their reads and writes are accesses of the issuing hart.
-/

namespace Sys2Proof.Machine

/-! ### Words of list memory (R319) -/

namespace State

/-- A word of list memory; a failing access is delivered at the marker (R319). -/
def lread (s : State) (a n : Nat) : Act (State × Nat) := deferring do
  let (s, l) ← s.readBytes s.whoMe .read a n 1
  .ok (s, ofBytes l)

/-- A write of list memory, performed at its home after the hart's earlier stores to the same bytes (R133, R319). -/
def lwrite (s : State) (a n x : Nat) : Act State := deferring do
  let (s, cs) ← s.check s.whoMe .vstore a n 1
  let s ← s.ownFirst s.hart cs
  s.writeOwn s.hart (!s.me.sup) a cs (bytesOf n x)

/-- List memory in collecting mode: a strand whose ECTX is not zero, outside a trap handler (R300, R388). -/
def collecting (s : State) : Bool := !s.isDrover && s.me.ectx != 0 && s.me.tstatus % 2 == 0

end State

/-! ### Handles and headers (R303, R305) -/

/-- The header address of a handle. -/
def handleAddr (h : Nat) : Nat := h / 64 * 64
/-- The generation of a handle. -/
def handleGen (h : Nat) : Nat := h % 64

/-- A header's fields (R305, R335). -/
structure ListHead where
  addr : Nat
  count : Nat
  gen : Nat
  used : Nat
  cap : Nat
  last : Nat
  progress : Nat
  ts : Nat
  base : Nat
  outer : Nat
  kind : Nat
  opened : Bool
  hd : Nat
  ret : Nat
  next : Nat
deriving DecidableEq, Repr

namespace State

/-- The arena of the issuing strand's launch: its base and bytes; none without one (R304). -/
def arena (s : State) : Option (Nat × Nat) :=
  match s.launchOf s.hart with
  | none => none
  | some l => if l.arenaSize = 0 then none else some (l.arenaBase, l.arenaSize * 65536)

/-- A header read. -/
def readHead (s : State) (a : Nat) : Act (State × ListHead) := do
  let (s, x) ← s.lread a 128
  let w := fun i => bits x (64 * i) 64
  .ok (s, { addr := a, count := bits (w 0) 0 32, gen := bits (w 0) 32 6, used := w 1, cap := w 2, last := w 4,
            progress := w 5, ts := w 6, base := w 7, outer := w 8, kind := bits (w 9) 0 2, opened := bit (w 9) 2,
            hd := bits (w 10) 0 5, ret := w 11, next := w 12 })

/-- A header's changing fields written back. -/
def writeHead (s : State) (h : ListHead) : Act State := do
  let words := [h.count + h.gen * 2 ^ 32, h.used, h.cap, h.addr, h.last, h.progress, h.ts, h.base, h.outer,
    h.kind + 4 * bool1 h.opened, h.hd, h.ret, h.next, 0, 0, 0]
  s.lwrite h.addr 128 (joinLanes 64 words)

/-- The list of a handle when its generation is the header's (R303). A handle that names no place of the arena fails as
a stale one does. -/
def openHandle (s : State) (h : Nat) : Act (State × ListHead) :=
  match s.arena with
  | none => .error (.trap 0x08 h)
  | some (b, n) =>
    if handleAddr h < b ∨ b + n < handleAddr h + 2048 then .error (.trap 0x08 h)
    else do
      let (s, x) ← s.readHead (handleAddr h)
      if x.gen = handleGen h then .ok (s, x) else .error (.trap 0x08 h)

/-- A closed list named by an operand (R337). -/
def closedList (s : State) (h : Nat) : Act (State × ListHead) := do
  let (s, x) ← s.openHandle h
  if x.opened then .error (.trap 0x08 h) else .ok (s, x)

/-! ### Blocks (R304, R305, R343) -/

/-- A block taken from the head of the free list: its address and kept generation. -/
def takeBlock (s : State) : Act (State × Nat × Nat) :=
  match s.arena with
  | none => .error (.trap 0x09 (2 ^ 63))
  | some (b, _) => do
    let (s, head) ← s.lread b 8
    if head = 0 then .error (.trap 0x09 (2 ^ 63))
    else do
      let (s, n) ← s.lread (b + 8) 8
      let (s, w0) ← s.lread head 8
      let (s, next) ← s.lread (head + 8) 8
      let s ← s.lwrite b 8 next
      let s ← s.lwrite (b + 8) 8 (n + 2 ^ 64 - 1)
      .ok (s, head, bits w0 32 6)

/-- A block returned to the head of the free list with its kept generation. -/
def giveBlock (s : State) (a gen : Nat) : Act State :=
  match s.arena with
  | none => .ok s
  | some (b, _) => do
    let (s, head) ← s.lread b 8
    let (s, n) ← s.lread (b + 8) 8
    let s ← s.lwrite a 8 (gen * 2 ^ 32)
    let s ← s.lwrite (a + 8) 8 head
    let s ← s.lwrite b 8 a
    s.lwrite (b + 8) 8 (n + 1)

/-- The further blocks of a list, from the second on. -/
def chainBlocks (s : State) : Nat → Nat → Act (State × List Nat)
  | 0, _ => .ok (s, [])
  | n + 1, a =>
    if a = 0 then .ok (s, [])
    else do
      let (s, next) ← s.lread a 8
      let (s, r) ← s.chainBlocks n next
      .ok (s, a :: r)

/-- Further blocks that a number of granules needs. -/
def furtherBlocks (granules : Nat) : Nat := if granules ≤ 56 then 0 else ceilDiv (granules - 56) 127

/-- Every further block of a list. -/
def blocksOf (s : State) (h : ListHead) : Act (State × List Nat) := s.chainBlocks (furtherBlocks h.used) h.next

/-- Blocks returned, each with its kept generation; in chain order (log 15). -/
def giveBlocks (s : State) : List Nat → Act State
  | [] => .ok s
  | a :: t => do
    let (s, w1) ← s.lread (a + 8) 8
    let s ← s.giveBlock a (bits w1 32 6)
    s.giveBlocks t

/-- A list freed: its generation advances and every block returns (R303, R342). The number of blocks freed. -/
def freeList (s : State) (h : ListHead) : Act State := do
  let (s, bs) ← s.blocksOf h
  let s ← s.giveBlock h.addr ((h.gen + 1) % 64)
  s.giveBlocks bs

/-! ### Granules and entries (R305, R306) -/

end State

/-- The address of granule `g` of a list with the given further blocks. -/
def granuleAddr (h : ListHead) (bs : List Nat) (g : Nat) : Nat :=
  if g < 56 then h.addr + 0x480 + 16 * g else nth bs ((g - 56) / 127) + 16 + 16 * ((g - 56) % 127)

/-- An entry: the two words of each of its granules, and where its first granule lies. -/
structure Entry where
  words : List Nat
  at_ : Nat := 0
deriving DecidableEq, Repr

namespace Entry

/-- Word 0. -/
def w0 (e : Entry) : Nat := nth e.words 0
/-- Word 1. -/
def w1 (e : Entry) : Nat := nth e.words 1
/-- The kind: 0 STORE, 1 LINE, 2 REDUCE, 3 SENT, 4 RECV. -/
def kind (e : Entry) : Nat := bits e.w0 56 4
/-- The effect address. -/
def addr (e : Entry) : Nat := bits e.w0 0 56
/-- log2 of a STORE's size, or a REDUCE's operation. -/
def sub (e : Entry) : Nat := bits e.w0 60 3
/-- Bytes of the target: of a STORE, of a line, of a REDUCE's word. -/
def size (e : Entry) : Nat :=
  if e.kind = 0 then 2 ^ e.sub else if e.kind = 1 then 64 else if e.sub = 1 then 4 else 8

/-- The bytes a STORE or LINE writes: effect address and value. -/
def written (e : Entry) : List (Nat × Nat) :=
  if e.kind = 0 then (upFrom 0 e.size).map (fun i => (e.addr + i, bits e.w1 (8 * i) 8))
  else if e.kind = 1 then
    ((upFrom 0 64).filter (fun i => bit e.w1 i)).map (fun i =>
      (e.addr + i, bits (nth e.words (2 + i / 8)) (8 * (i % 8)) 8))
  else []

end Entry

/-- Granules of an entry of a kind (R306). -/
def entryGranules (kind : Nat) : Nat := nth [1, 5, 1, 2, 5, 1, 1, 1, 1, 1, 1, 1, 1, 1, 1, 1] kind

/-- A STORE of `2 ^ k` bytes at an effect address. -/
def storeEntry (a k x : Nat) : Entry := { words := [a + k * 2 ^ 60, x % 2 ^ (8 * 2 ^ k)] }
/-- A LINE: the written bytes of a line, by their offset. -/
def lineEntry (line : Nat) (l : List (Nat × Nat)) : Entry :=
  let mask := l.foldl (fun m e => m ||| 2 ^ (e.1 - line)) 0
  let data := l.foldl (fun d e => setNth d (e.1 - line) e.2) (List.replicate 64 0)
  { words := [line + 2 ^ 56 + 6 * 2 ^ 60, mask] ++ splitLanes 64 8 (ofBytes data) }
/-- A REDUCE. -/
def reduceEntry (a op x : Nat) : Entry := { words := [a + 2 * 2 ^ 56 + op * 2 ^ 60, x] }
/-- A SENT (R346). -/
def sentEntry (route ts serial endpoint : Nat) : Entry :=
  { words := [route % 2 ^ 37 + 3 * 2 ^ 56, ts, serial + endpoint * 2 ^ 22, 0] }
/-- A RECV: a whole message. -/
def recvEntry (words : List Nat) : Entry := { words := [4 * 2 ^ 56, 0] ++ words }

/-! ### Effect addresses (R306) -/

/-- The effect address of a generic address; none for 0xF3 and for no aperture. -/
def effectAddr (a : Nat) : Option Nat :=
  let sel := a / 2 ^ 56
  let low := a % 2 ^ 56
  if sel = 0 then (if low < 2 ^ 55 then some low else none)
  else if 0xF0 ≤ sel ∧ sel ≤ 0xF6 ∧ sel ≠ 0xF3 then some (2 ^ 55 + (sel - 0xF0) * 2 ^ 52 + low % 2 ^ 52) else none

/-- The generic address of an effect address. -/
def genericAddr (e : Nat) : Nat := if bit e 55 then (0xF0 + bits e 52 3) * 2 ^ 56 + e % 2 ^ 52 else e

/-- The address is in a recorded aperture (R130): global memory, 0xF1, 0xF2, 0xF4 to 0xF6. -/
def recorded (a : Nat) : Bool :=
  let sel := a / 2 ^ 56
  sel == 0 || sel == 0xF1 || sel == 0xF2 || sel == 0xF4 || sel == 0xF5 || sel == 0xF6

/-- The filter index of the line at an effect address (R309). -/
def filterIndex (e : Nat) : Nat :=
  let l := bits e 6 50
  (l ^^^ (l / 2 ^ 12) ^^^ (l / 2 ^ 24) ^^^ (l / 2 ^ 36)) % 4096

/-- The lines that an entry writes, by filter index. -/
def entryLines (e : Entry) : List Nat :=
  if e.kind = 0 ∨ e.kind = 1 ∨ e.kind = 2 then [filterIndex e.addr] else []

namespace State

/-! ### Entries of a list -/

/-- The words of `n` granules from granule `g` on. -/
def readGranules (s : State) (h : ListHead) (bs : List Nat) : Nat → Nat → Act (State × List Nat)
  | 0, _ => .ok (s, [])
  | n + 1, g => do
    let (s, y) ← s.lread (granuleAddr h bs g) 16
    let (s, r) ← s.readGranules h bs n (g + 1)
    .ok (s, splitLanes 64 2 y ++ r)

/-- The entries of a list from granule `g` on. -/
def readEntriesFrom (s : State) (h : ListHead) (bs : List Nat) : Nat → Nat → Act (State × List Entry)
  | 0, _ => .ok (s, [])
  | n + 1, g => do
    let a := granuleAddr h bs g
    let (s, x) ← s.lread a 16
    let k := entryGranules (bits x 56 4)
    let (s, r) ← s.readGranules h bs (k - 1) (g + 1)
    let (s, t) ← s.readEntriesFrom h bs n (g + k)
    .ok (s, { words := splitLanes 64 2 x ++ r, at_ := a } :: t)

/-- The entries of a list, oldest first. -/
def entriesOf (s : State) (h : ListHead) : Act (State × List Entry) := do
  let (s, bs) ← s.blocksOf h
  s.readEntriesFrom h bs h.count 0

/-- Granules written in turn from granule `g` on. -/
def writeGranules (s : State) (h : ListHead) (bs : List Nat) : Nat → List Nat → Act State
  | g, a :: b :: t => do
    let s ← s.lwrite (granuleAddr h bs g) 16 (a + b * 2 ^ 64)
    s.writeGranules h bs (g + 1) t
  | _, _ => .ok s

/-- Further blocks chained to a list until it has `n` of them. -/
def growBlocks (s : State) (h : ListHead) : Nat → List Nat → Act (State × ListHead × List Nat)
  | 0, bs => .ok (s, h, bs)
  | n + 1, bs => do
    let (s, a, gen) ← s.takeBlock
    let s ← s.lwrite a 8 0
    let s ← s.lwrite (a + 8) 8 (gen * 2 ^ 32)
    let (s, h) ← match bs.getLast? with
      | none => Except.ok (s, { h with next := a, last := a })
      | some p => do
        let s ← s.lwrite p 8 a
        .ok (s, { h with last := a })
    s.growBlocks h n (bs ++ [a])

/-- Bits set in the own filter of a list (R305, R309). -/
def setFilter (s : State) (h : ListHead) : List Nat → Act State
  | [] => .ok s
  | i :: t => do
    let a := h.addr + 0x80 + i / 8
    let (s, x) ← s.lread a 1
    let s ← if bit x (i % 8) then .ok s else s.lwrite a 1 (x + 2 ^ (i % 8))
    s.setFilter h t

/-- Entries recorded at the end of a list, wholly or not at all (R307, R310). -/
def appendEntries (s : State) (h : ListHead) (es : List Entry) : Act (State × ListHead) := do
  let words := es.flatMap (·.words)
  let used := h.used + words.length / 2
  if h.cap < used then .error (.trap 0x09 h.cap)
  else do
    let (s, bs) ← s.blocksOf h
    let (s, h, bs) ← s.growBlocks h (furtherBlocks used - bs.length) bs
    let s ← s.writeGranules h bs h.used words
    let s ← s.setFilter h (es.flatMap entryLines)
    let h := { h with used := used, count := h.count + es.length }
    let s ← s.writeHead h
    .ok (s, h)

/-- The header of the current list of the issuing strand. -/
def currentList (s : State) : Act (State × ListHead) := s.openHandle s.me.ectx.toNat

/-- Where the strand's read-own-write filter stands: 512 bytes of its core's system area (R107, R309; log 86). -/
def filterPlace (s : State) : Nat := placeLocal s.coreNo (0x9000 + 512 * s.strandNo)

/-- The strand's filter. -/
def rowFilter (s : State) : Nat := s.readAt s.filterPlace 512

/-- The strand's filter written. -/
def setRowFilter (s : State) (f : Nat) : State := s.writeAt s.filterPlace 512 f

/-- Entries recorded into the current list; the strand's filter takes their lines (R309). -/
def recordEntries (s : State) (es : List Entry) : Act State := do
  let (s, h) ← s.currentList
  let (s, _) ← s.appendEntries h es
  .ok (s.setRowFilter ((es.flatMap entryLines).foldl (fun f i => f ||| (1 <<< i)) s.rowFilter))

/-! ### Frames (R300, R334, R345) -/

/-- The chain filter of a base list; zero for none. -/
def baseFilter (s : State) (base : Nat) : Act (State × Nat) :=
  if base = 0 then .ok (s, 0)
  else s.lread (handleAddr base + 0x280) 512

/-- A frame opened: a new list, which becomes current. -/
def openFrame (s : State) (cap base kind hd ret ts : Nat) : Act (State × Nat) := do
  let (s, a, gen) ← s.takeBlock
  let h : ListHead :=
    { addr := a, count := 0, gen := gen, used := 0, cap := cap, last := a, progress := 0, ts := ts, base := base,
      outer := s.me.ectx.toNat, kind := kind, opened := true, hd := hd, ret := ret, next := 0 }
  let s ← s.writeHead h
  let s ← s.lwrite (a + 0x80) 512 0
  let (s, f) ← s.baseFilter base
  .ok ((s.setRowFilter f).setMe { s.me with ectx := BitVec.ofNat 64 (a + gen) }, a + gen)

/-- The current frame, when it is of a kind (R300, R338): 0x01 otherwise. -/
def frameOfKind (s : State) (kind : Nat) : Act (State × ListHead) :=
  if s.me.ectx = 0 then .error (.trapFree 0x01)
  else do
    let (s, h) ← s.currentList
    if h.kind = kind then .ok (s, h) else .error (.trapFree 0x01)

/-- The filter of the frame that is current again: its base's chain filter and the lines it has written (R309). -/
def frameFilter (s : State) (ectx : Nat) : State :=
  if ectx = 0 then s
  else
    let r : Act (State × Nat) := do
      let (s, h) ← s.openHandle ectx
      let (s, own) ← s.lread (h.addr + 0x80) 512
      let (s, f) ← s.baseFilter h.base
      .ok (s, own ||| f)
    match r with
    | .ok (s, f) => s.setRowFilter f
    | .error _ => s

/-- A frame closed: OPEN clears and the chain filter is written; ECTX takes the value given (R300, R338). -/
def closeFrame (s : State) (h : ListHead) (ectx : Nat) : Act State := do
  let s ← s.writeHead { h with opened := false }
  let (s, own) ← s.lread (h.addr + 0x80) 512
  let (s, f) ← s.baseFilter h.base
  let s ← s.lwrite (h.addr + 0x280) 512 (own ||| f)
  .ok ((s.setMe { s.me with ectx := BitVec.ofNat 64 ectx }).frameFilter ectx)

/-- A new closed list outside any frame: of `ecat`, `efilt` and `efiltx` (R340). Its entries are taken whatever its
capacity: a STORE cut to a LINE may pass it, and the rule names no fault for that. -/
def newList (s : State) (cap base ts : Nat) (es : List Entry) : Act (State × Nat) := do
  let (s, a, gen) ← s.takeBlock
  let h : ListHead :=
    { addr := a, count := 0, gen := gen, used := 0, cap := 2 ^ 64 - 1, last := a, progress := 0, ts := ts, base := base,
      outer := 0, kind := 0, opened := false, hd := 0, ret := 0, next := 0 }
  let s ← s.writeHead h
  let s ← s.lwrite (a + 0x80) 512 0
  let (s, h) ← s.appendEntries h es
  let s ← s.writeHead { h with cap := cap }
  let (s, own) ← s.lread (h.addr + 0x80) 512
  let (s, f) ← s.baseFilter base
  let s ← s.lwrite (h.addr + 0x280) 512 (own ||| f)
  .ok (s, a + gen)

/-! ### Read-own-write (R308) -/

/-- The newest value that entries, newest first, give a byte. -/
def newestByte (e : Nat) : List Entry → Option Nat
  | [] => none
  | x :: t =>
    match x.written.find? (fun p => p.1 == e) with
    | some p => some p.2
    | none => newestByte e t

/-- The lists of a chain of bases from a handle on, each with its entries, newest first; a stale handle faults at the
marker (R337). -/
def chainEntries (s : State) : Nat → Nat → Act (State × List Entry)
  | 0, _ => .ok (s, [])
  | n + 1, h =>
    if h = 0 then .ok (s, [])
    else do
      let (s, x) ← deferring (s.openHandle h)
      let (s, es) ← s.entriesOf x
      let (s, r) ← s.chainEntries n x.base
      .ok (s, es.reverse ++ r)

/-- Blocks of the arena: no chain is longer. -/
def arenaBlocks (s : State) : Nat :=
  match s.arena with
  | some (_, n) => n / 2048
  | none => 0

/-- Bytes read at a generic address as a load in collecting mode sees them: `l` is what memory holds. -/
def overlayEntries (s : State) (a : Nat) (l : List Nat) : Act (State × List Nat) :=
  match effectAddr a with
  | none => .ok (s, l)
  | some e =>
    if s.collecting && recorded a then do
      let (s, es) ← s.chainEntries s.arenaBlocks s.me.ectx.toNat
      .ok (s, List.zipWith (fun i b => (newestByte (e + i) es).getD b) (upFrom 0 l.length) l)
    else .ok (s, l)

end State

end Sys2Proof.Machine
end

