-- ==== Sys2Proof/Machine/MemoryInstr.lean ====
section
/-!
DEFINITION. Loads and stores: scalar, vector, strided, masked, transposed, gathered and scattered (R134 to R140).
-/

namespace Sys2Proof.Machine

/-! ### Shared operations -/

namespace State

/-- The bytes of a load with its checks, as the issuing hart sees them (R127, R133, R308). -/
def loadBytes (s : State) (f : Form) (a n align : Nat) : Act (State × List Nat) := do
  let s ← s.inOrder s.hart
  let (s, l) ← s.readBytes s.whoMe f a n align
  s.overlayEntries a l

/-- The value of a load, little-endian. -/
def loadValue (s : State) (f : Form) (a n align : Nat) : Act (State × Nat) := do
  let (s, l) ← s.loadBytes f a n align
  .ok (s, ofBytes l)

/-- Loads that a poisoned `fence.ar` holds are not performed (R275): their destination keeps its value. -/
def loadsHeld (s : State) : Bool := s.me.releaseHeld == 2

/-- A long load: its fault is deferred; `g` gives what is written at the marker. -/
def longLoad (s : State) (f : Form) (a n align : Nat) (g : Nat → List RegWrite) : Act State :=
  if s.loadsHeld then .ok (s.long [])
  else deferring do
    let (s, x) ← s.loadValue f a n align
    .ok (s.longFrom [a] (g x))

/-- The values of lanes at given addresses, each checked alone; lanes without an address read zero. The fault of the
lowest faulting lane is the load's (R136, R140). -/
def loadLanes (s : State) (f : Form) (n : Nat) : List (Option Nat) → Act (State × List Nat)
  | [] => .ok (s, [])
  | none :: t => do
    let (s, r) ← s.loadLanes f n t
    .ok (s, 0 :: r)
  | some a :: t => do
    let (s, x) ← s.loadValue f a n n
    let (s, r) ← s.loadLanes f n t
    .ok (s, x :: r)

/-- The checks of every piece of a store, in order (R127, R136, R140). -/
def checkPieces (s : State) (f : Form) (align : Nat) : List (Nat × List Nat) → Act (State × List (List Chunk))
  | [] => .ok (s, [])
  | (a, d) :: t => do
    let (s, c) ← s.check s.whoMe f a d.length align
    let (s, r) ← s.checkPieces f align t
    .ok (s, c :: r)

/-- Checked pieces issued in order. -/
def issuePieces (s : State) : List ((Nat × List Nat) × List Chunk) → Act State
  | [] => .ok s
  | ((a, d), c) :: t => do
    let s ← s.issueChunks s.hart a c d
    s.issuePieces t

/-- Checked pieces issued, unless a poisoned release holds them: then they do not perform (R275). -/
def issueUnlessHeld (s : State) (l : List ((Nat × List Nat) × List Chunk)) : Act State :=
  if s.me.releaseHeld ≠ 0 then .ok s else s.issuePieces l

/-- A store: every check first, then each piece is recorded (in collecting mode, to a recorded aperture) or issued, in
ascending order (R130, R307). -/
def storePieces (s : State) (f : Form) (align : Nat) (l : List (Nat × List Nat))
    (entry : Nat × List Nat → List Entry) : Act State := do
  let s ← s.inOrder s.hart
  let (s, cs) ← s.checkPieces f align l
  let all := List.zip l cs
  if s.collecting then do
    let es := (l.filter (fun p => recorded p.1)).flatMap entry
    let s ← if es.isEmpty then .ok s else s.recordEntries es
    s.issueUnlessHeld (all.filter (fun p => !recorded p.1.1))
  else s.issueUnlessHeld all

end State

/-- The STORE entry of a scalar store or a lane (R307). -/
def scalarEntries (p : Nat × List Nat) : List Entry :=
  match effectAddr p.1 with
  | some e => [storeEntry e (Nat.log2 p.2.length) (ofBytes p.2)]
  | none => []

/-- The LINE entries of bytes written at effect addresses, one for each line (R307). -/
def lineEntries (l : List (Nat × Nat)) : List Entry :=
  match l with
  | [] => []
  | (e, _) :: _ =>
    let line := e / 64 * 64
    ((upFrom 0 4).map (fun i => l.filter (fun p => p.1 / 64 == line / 64 + i))).filterMap (fun p =>
      match p with
      | [] => none
      | (e, _) :: _ => some (lineEntry (e / 64 * 64) p))

/-- The LINE entries of a vector store. -/
def vectorEntries (p : Nat × List Nat) : List Entry :=
  match effectAddr p.1 with
  | some e => lineEntries (List.zip (upFrom e p.2.length) p.2)
  | none => []

/-! ### Scalar loads and stores (R134) -/

/-- `ld.z` (R134): zero-extended. -/
def execLd (d b z : Nat) (o : Int) (s : State) : Host.Outcome State Fault Refusal :=
  let n := 2 ^ z
  finish s (s.longLoad (.load n) (baseOffset (s.rs b) o n) n n (fun x => [.s d (BitVec.ofNat 64 x)]))

/-- `ld.zs` (R134): sign-extended. -/
def execLdSigned (d b z : Nat) (o : Int) (s : State) : Host.Outcome State Fault Refusal :=
  let n := 2 ^ z
  finish s (s.longLoad (.loadSigned n) (baseOffset (s.rs b) o n) n n (fun x => [.s d (BitVec.ofNat 64 (sext64 (8 * n) x))]))

/-- `st.z` (R134): the low bytes of the register. -/
def execSt (d b z : Nat) (o : Int) (s : State) : Host.Outcome State Fault Refusal :=
  let n := 2 ^ z
  finish s (s.storePieces .store n [(baseOffset (s.rs b) o n, bytesOf n (s.rs d))] scalarEntries)

/-- Bytes of an FP access: `.w` 4, `.d` 8 (R134). -/
def fpBytes (z : Nat) : Nat := if z = 0 then 4 else 8

/-- `fld.z` (R134, R22). -/
def execFld (d b z : Nat) (o : Int) (s : State) : Host.Outcome State Fault Refusal :=
  let n := fpBytes z
  finish s (s.longLoad (.load n) (baseOffset (s.rs b) o n) n n (fun x => [.f d (BitVec.ofNat 64 x)]))

/-- `fst.z` (R134). -/
def execFst (d b z : Nat) (o : Int) (s : State) : Host.Outcome State Fault Refusal :=
  let n := fpBytes z
  finish s (s.storePieces .store n [(baseOffset (s.rs b) o n, bytesOf n (s.rf d))] scalarEntries)

/-! ### Vector loads and stores (R134 to R138) -/

/-- `vld` (R134). -/
def execVld (d b : Nat) (o : Int) (s : State) : Host.Outcome State Fault Refusal :=
  finish s (s.longLoad .vload (baseOffset (s.rs b) o 128) 128 8 (fun x => [.v d (BitVec.ofNat 1024 x)]))

/-- `vst` (R134). -/
def execVst (d b : Nat) (o : Int) (s : State) : Host.Outcome State Fault Refusal :=
  finish s (s.storePieces .vstore 8 [(baseOffset (s.rs b) o 128, bytesOf 128 (s.rv d).toNat)] vectorEntries)

/-- The lane addresses of a strided access (R136): a signed stride, inactive lanes without an address. -/
def State.strideAddrs (s : State) (a b k : Nat) : List (Option Nat) :=
  (upFrom 0 32).map (fun (i : Nat) =>
    if bit (s.rm k) i then some (wrap 64 ((s.rs a : Int) + (i : Int) * toSigned 64 (s.rs b))) else none)

/-- `vlds` (R136). -/
def execVlds (d a b k : Nat) (s : State) : Host.Outcome State Fault Refusal :=
  finish s (if s.loadsHeld then .ok (s.long [])
    else deferring do
      let (s', l) ← s.loadLanes .read 4 (s.strideAddrs a b k)
      .ok (s'.longFrom ((s.strideAddrs a b k).filterMap id) [.v d (ofLanes 32 l)]))

/-- `vsts` (R136). -/
def execVsts (d a b k : Nat) (s : State) : Host.Outcome State Fault Refusal :=
  let data := lanes 32 (s.rv d)
  let l := (List.zip (s.strideAddrs a b k) data).filterMap (fun p =>
    match p.1 with
    | some a => some (a, bytesOf 4 p.2)
    | none => none)
  finish s (s.storePieces .vstore 4 l scalarEntries)

/-- The address of row `r` of a column pair of a swizzled tile (R9, R138). -/
def columnAddr (base c r : Nat) : Nat := base + 128 * r + 4 * ((c / 2) ^^^ (((r / 4) % 16) * 2))

/-- `tldx` (R138). -/
def execTldx (d a b k : Nat) (s : State) : Host.Outcome State Fault Refusal :=
  let base := s.rs a
  let c := s.rs b
  finish s (if s.loadsHeld then .ok (s.long [])
    else if base % 128 ≠ 0 then .error (.late 0x04 base)
    else if 62 < c ∨ c % 2 ≠ 0 then .error (.late 0x08 c)
    else deferring do
      let at_ := (upFrom 0 64).map (fun r => if bit (s.rm k) r then some ((columnAddr base c r) % 2 ^ 64) else none)
      let (s', l) ← s.loadLanes .read 4 at_
      .ok (s'.longFrom (at_.filterMap id) [.v d (ofLanes 16 (l.map (fun x => x % 2 ^ 16))), .v (d + 1) (ofLanes 16 (l.map (fun x => x / 2 ^ 16)))]))

/-- `vstm` (R137): the checks cover the whole range, whatever the mask; the bytes of a word perform together (R133). -/
def execVstm (d a k : Nat) (s : State) : Host.Outcome State Fault Refusal :=
  let addr := s.rs a
  let bytes := List.zip (s.maskBits k 128) (bytesOf 128 (s.rv d).toNat)
  finish s (do
    let s ← s.inOrder s.hart
    let (s, cs) ← s.check s.whoMe .vstore addr 128 8
    if s.collecting && recorded addr then
      match effectAddr addr with
      | some e =>
        let es := lineEntries ((List.zip (upFrom e 128) bytes).filterMap (fun p =>
          if p.2.1 then some (p.1, p.2.2) else none))
        if es.isEmpty then .ok s else s.recordEntries es
      | none => .ok s
    else if s.me.releaseHeld ≠ 0 then .ok s
    else s.issueBytes s.hart addr 0 none cs (bytes.map (fun p => if p.1 then some p.2 else none)))

/-! ### Gathers and scatters (R139, R140) -/

/-- The lanes whose index is at or above the bound (R139). -/
def outOfBounds (idx : List Nat) (bound : Nat) : List Bool := idx.map (fun i => decide (bound ≤ i))

/-- The TVAL of an index check: the index and the lowest lane that fails (R139). -/
def indexTval (idx : List Nat) (oob : List Bool) : Nat :=
  let j := oob.findIdx (fun b => b)
  (nth idx j % 2 ^ 32) * 2 ^ 32 + j

/-- The lane addresses of an indexed access: lanes out of bounds have none. -/
def indexAddrs (base e : Nat) (idx : List Nat) (oob : List Bool) : List (Option Nat) :=
  List.zipWith (fun i o => if o then none else some ((base + e * i) % 2 ^ 64)) idx oob

/-- A gather of elements of `e` bytes (R139, R140). -/
def State.gather (s : State) (d a b c chk e : Nat) : Act State :=
  let idx := lanes (8 * e) (s.rv b)
  let oob := outOfBounds idx (s.rs c)
  if s.loadsHeld then .ok (s.long [])
  else if chk = 1 ∧ oob.any (fun x => x) then .error (.late 0x08 (indexTval idx oob))
  else deferring do
    let (s', l) ← s.loadLanes .gather e (indexAddrs (s.rs a) e idx oob)
    .ok (s'.longFrom ((indexAddrs (s.rs a) e idx oob).filterMap id)
      (.v d (ofLanes (8 * e) l) :: (if chk = 0 then [.m 7 (BitVec.ofNat 128 (ofBools oob))] else [])))

/-- A scatter of elements of `e` bytes (R139, R140). -/
def State.scatter (s : State) (d a b c chk e : Nat) : Act State :=
  let idx := lanes (8 * e) (s.rv b)
  let oob := outOfBounds idx (s.rs c)
  if chk = 1 ∧ oob.any (fun x => x) then .error (.trap 0x08 (indexTval idx oob))
  else do
    let l := (List.zip (indexAddrs (s.rs a) e idx oob) (lanes (8 * e) (s.rv d))).filterMap (fun p =>
      match p.1 with
      | some a => some (a, bytesOf e p.2)
      | none => none)
    let t ← s.storePieces .scatter e l scalarEntries
    .ok (if chk = 0 then t.longM 7 (ofBools oob) else t)

/-- `vgather.w` (R139). -/
def execVgatherW (d a b c h : Nat) (s : State) : Host.Outcome State Fault Refusal := finish s (s.gather d a b c h 4)

/-- `vgather.d` (R139). -/
def execVgatherD (d a b c h : Nat) (s : State) : Host.Outcome State Fault Refusal := finish s (s.gather d a b c h 8)

/-- `vscatter.w` (R139). -/
def execVscatterW (d a b c h : Nat) (s : State) : Host.Outcome State Fault Refusal := finish s (s.scatter d a b c h 4)

/-- `vscatter.d` (R139). -/
def execVscatterD (d a b c h : Nat) (s : State) : Host.Outcome State Fault Refusal := finish s (s.scatter d a b c h 8)

end Sys2Proof.Machine
end

