-- ==== Sys2Proof/Machine/Atomic.lean ====
section
/-!
DEFINITION. Atomics, reductions, ordering instructions and near-memory operations (R141 to R146).
-/

namespace Sys2Proof.Machine

/-! ### Releases (R145, R260, R267, R274) -/

namespace State

/-- The strand is poisoned for a release at a scope (R274). -/
def releasePoisoned (s : State) (scope : Nat) : Bool :=
  let t := s.me.tstatus
  bit t 4 && decide (bits t 5 3 ≤ scope)

/-- The packages of the paddock other than this one (R424). -/
def paddockOthers (s : State) : List Nat :=
  (upFrom 0 16384).filter (fun p => p ≠ s.hub.pkg && s.inPaddock p)

/-- The packages a release of the issuing hart sends markers to: its destination set, or the whole paddock once the set
has overflowed (R267). -/
def flushTargets (s : State) : List Nat := if s.me.destOverflow then s.paddockOthers else s.me.dests

/-- Packages that a flush of the issuing hart reaches. -/
def flushHomes (s : State) : List Nat := s.flushTargets.filter (fun p => !(s.planesTo p).isEmpty)

/-- A marker of the flush needs a credit that its sender does not hold (R428). -/
def flushHeld (s : State) : Bool := s.flushHomes.any (fun p => (s.planesTo p).any (fun n => !s.hasCredit p (some n) .flush))

/-- A flush of the issuing hart begins: a marker on each plane that leads to each destination (R267, R430). A destination
that no plane leads to loses its packets (R396) and acknowledges nothing: it leaves the set. The markers wait for their
credits. -/
def startFlush (s : State) : State :=
  if s.flushHeld then s
  else
  let homes := s.flushHomes
  let marks : List FlushMark := homes.flatMap (fun p =>
    (s.planesTo p).map (fun n => { hart := s.hart, dest := p, plane := n, since := s.cycle }))
  let s : State := { s with hub := { s.hub with flushMarks := s.hub.flushMarks ++ marks } }
  s.setMe { s.me with dests := homes, destOverflow := false }

/-- The accesses of the issuing hart that a release at a scope follows, performed: stores and reductions on their way to
another package need not have arrived for a scope of this package (R258). -/
def settleFor (s : State) (scope : Nat) : Act State := do
  let s ← s.drainWhere (fun t => ofHart s.hart t && !(t.release.isNone && s.entered scope t.place))
  let s ← if s.atomics.any (fun a => a.hart == s.hart &&
      !(a.long.isNone && a.release.isNone && s.entered scope a.place)) then s.settleAtomics s.hart else .ok s
  s.settleNears s.hart

/-- What a release waits for: every earlier access of the hart performs at its scope, its moves and messages among them; a
release at .fo or wider flushes the planes and performs once every destination has acknowledged (R145, R267). -/
def releaseReady (s : State) (scope : Nat) : Act State := do
  let s ← s.settleFor scope
  if s.releaseWaits s.hart scope (s.cycle + 1) s.stores then .error .wait
  else if scope < 5 then .ok s
  else if s.flushingOf s.hart then .error .wait
  else if s.mustFlush s.hart scope then .error (.waitIn s.startFlush)
  else .ok s

/-- A release at a scope: every earlier access has performed, and whether the release performs, or is poisoned by a failure
among them (R145, R274). -/
def tryRelease (s : State) (scope : Nat) : Act (State × Bool) := do
  let u ← s.settleFor scope
  if u.releasePoisoned scope then .ok (u, false)
  else do
    let u ← s.releaseReady scope
    .ok (u, true)

/-- The release that a word carries, which its hart does not wait for: its place in the order of long results, where a
poisoning is reported, is taken at its issue (R145, R274). -/
def takeRelease (s : State) (scope : Nat) : State × Release :=
  let h := s.me
  (s.setMe { h with nextLong := h.nextLong + 1 }, { scope := scope, waddr := s.wordAddr, id := h.nextLong })

/-- Releases of the issuing hart are on their way: a suspension waits until they have performed (log 77). -/
def releasesPending (s : State) : Bool :=
  s.stores.any (fun t => t.hart == s.hart && t.release.isSome) ||
    s.atomics.any (fun t => t.hart == s.hart && t.release.isSome)

/-- An instruction that collecting mode refuses at a recorded aperture (R130). -/
def refuseRecorded (s : State) (a : Nat) : Act Unit :=
  if s.collecting && recorded a then .error (.trapFree 0x01) else .ok ()

/-- An instruction that collecting mode refuses whatever its addresses (R130, R301, R320). -/
def refuseCollecting (s : State) : Act Unit := if s.collecting then .error (.trapFree 0x01) else .ok ()

/-! ### Atomics on their way to their unit (R141) -/

/-- An atomic or a reduction leaves for its executing unit; to another package it needs a credit of its link (R428). -/
def sendAtomic (s : State) (t : PendingAtomic) : Act State :=
  let h := s.me
  let pkg := if isScratch t.place then s.hub.pkg else pkgOfPlace t.place
  if t.release.isNone && s.noCredit .request t.place then .error .wait
  else
    let t := { t with hart := s.hart, slot := h.slot, flock := h.flock, pc := h.pc, pkg := pkg, owner := .hart s.hart,
                      since := s.cycle, user := !h.sup }
    let s : State := { s with atomics := s.atomics ++ [t] }
    .ok (if t.release.isSome then s else s.noteDest s.hart pkg)

/-- A returning atomic: the entry it fills, and its way to the unit. -/
def longAtomic (s : State) (f : Form) (a n align : Nat) (t : PendingAtomic) : Act State := deferring do
  let s ← s.inOrder s.hart
  let (s, cs) ← s.check s.whoMe f a n align
  let s ← s.ownFirst s.hart cs
  match cs with
  | c :: _ =>
    let id := s.me.nextLong
    let s := s.pushLong { id := 0, waddr := 0, queued := true }
    s.sendAtomic { t with long := some id, place := c.place, va := a }
  | [] => .ok s

/-- The release that an instruction makes first: poisoned, `s` stays but for `poison`, which defers its 0x0F to the marker
(R145, R275); else `k` goes on once everything earlier has performed. -/
def releasing (s : State) (rel : Bool) (scope : Nat) (poison : State → State) (k : State → Act State) : Act State :=
  if !rel then k s
  else do
    let (s, ok) ← s.tryRelease scope
    if ok then k s else .ok (poison s)

end State

/-- The operands of an atomic before its unit is known. -/
def atomicArgs (kind op size d : Nat) (operands : List Nat) : PendingAtomic :=
  { hart := 0, long := none, op := op, size := size, place := 0, va := 0, operands := operands, kind := kind, d := d }

/-- `amo` (R142). -/
def execAmo (d a b o z sc r : Nat) (s : State) : Host.Outcome State Fault Refusal :=
  let n := if z = 0 then 4 else 8
  let addr := s.rs a
  finish s (do
    s.refuseRecorded addr
    if s.me.releaseHeld ≠ 0 ∧ r = 0 then .ok (s.long [])
    else
      let (_, _) ← deferring (s.check s.whoMe .amo addr n n)
      s.releasing (r == 1) sc (fun u => u.deferFault 0x0F addr) (fun u =>
        if u.me.releaseHeld ≠ 0 then .ok (u.long [])
        else u.longAtomic .amo addr n n { atomicArgs 0 o n d [s.rs b] with acq := r == 1 }))

/-- `cas.w` and `cas.d` (R143). -/
def State.casWord (s : State) (d a b n : Nat) : Act State := do
  let addr := s.rs a
  s.refuseRecorded addr
  if s.me.releaseHeld ≠ 0 then .ok (s.long [])
  else s.longAtomic .amo addr n n (atomicArgs 1 0 n d [s.rs d % 2 ^ (8 * n), s.rs b])

/-- `cas.w` (R143). -/
def execCasW (d a b _sc : Nat) (s : State) : Host.Outcome State Fault Refusal := finish s (s.casWord d a b 4)

/-- `cas.d` (R143). -/
def execCasD (d a b _sc : Nat) (s : State) : Host.Outcome State Fault Refusal := finish s (s.casWord d a b 8)

/-- `cas2.d` (R143): both words of the pair. -/
def execCas2D (d a b _sc : Nat) (s : State) : Host.Outcome State Fault Refusal :=
  let addr := s.rs a
  finish s (do
    s.refuseRecorded addr
    if s.me.releaseHeld ≠ 0 then .ok (s.long [])
    else s.longAtomic .cas2 addr 16 16 (atomicArgs 2 0 16 d [s.rs d, s.rs (d + 1), s.rs b, s.rs (b + 1)]))

/-- The REDUCE code of a reduction that collecting mode records (R130, R306); none for the others. -/
def reduceCode (o z : Nat) : Option Nat :=
  if o = 0 ∧ z = 1 then some 0 else if o = 9 ∧ z = 0 then some 1 else if o = 4 ∧ z = 1 then some 2
  else if o = 5 ∧ z = 1 then some 3 else none

namespace State

/-- A checked reduction leaves for its unit, after the hart's earlier accesses to the same bytes (R133); its progress word
counts the strand's `red`s (R144, R391). -/
def sendRed (s : State) (o n a x : Nat) (release : Option Release) (cs : List Chunk) : Act State := do
  let s ← if release.isSome then .ok s else s.ownFirst s.hart cs
  match cs with
  | c :: _ =>
    let s := s.setMe { s.me with reds := s.me.reds + 1 }
    s.sendAtomic { atomicArgs 0 o n 0 [x] with
      place := c.place, va := a, progress := 3 * 2 ^ 60 + s.me.reds % 2 ^ 60, release := release }
  | [] => .ok s

/-- A release that its hart does not wait for (R145): poisoned already, it raises 0x0F at the marker and has no effect
(R275); else `k` issues it, and it performs after everything earlier. -/
def releaseOnItsWay (s : State) (scope a : Nat) (k : State → Release → Act State) : Act State :=
  if s.releasePoisoned scope then .ok (s.deferExtra 0x0F a)
  else if s.me.releaseHeld ≠ 0 then .ok s
  else k (s.takeRelease scope).1 (s.takeRelease scope).2

/-- A `red` in collecting mode to a recorded aperture (R130). -/
def recordRed (s : State) (o z n a x : Nat) : Act State :=
  match reduceCode o z, effectAddr a with
  | some c, some e => do
    let (s, _) ← s.check s.whoMe .red a n n
    s.recordEntries [reduceEntry e c (x % 2 ^ (8 * n))]
  | _, _ => .error (.trapFree 0x01)

end State

/-- `red` (R144). -/
def execRed (a b o z sc r : Nat) (s : State) : Host.Outcome State Fault Refusal :=
  let n := if z = 0 then 4 else 8
  let addr := s.rs a
  let x := s.rs b
  finish s (
    if s.collecting && recorded addr then
      (if r = 1 then .error (.trapFree 0x01) else s.recordRed o z n addr x)
    else do
      let s ← s.inOrder s.hart
      let (s, cs) ← s.check s.whoMe .red addr n n
      if r = 1 then s.releaseOnItsWay sc addr (fun u rel => u.sendRed o n addr x (some rel) cs)
      else if s.me.releaseHeld ≠ 0 then .ok s
      else s.sendRed o n addr x none cs)

/-- `ldaq` (R145): later accesses follow it, since it performs at its issue. -/
def execLdaq (d a _sc z : Nat) (s : State) : Host.Outcome State Fault Refusal :=
  let n := 2 ^ z
  let addr := s.rs a
  finish s (do
    s.refuseRecorded addr
    s.longLoad (.load n) addr n n (fun x => [.s d (BitVec.ofNat 64 x)]))

/-- `strl` (R145): it performs after every earlier access of the hart, which does not wait. -/
def execStrl (a b sc z : Nat) (s : State) : Host.Outcome State Fault Refusal :=
  let n := 2 ^ z
  let addr := s.rs a
  let data := bytesOf n (s.rs b)
  finish s (do
    s.refuseRecorded addr
    let (s, cs) ← s.check s.whoMe .store addr n n
    s.releaseOnItsWay sc addr (fun u rel => u.issueBytes u.hart addr 0 (some rel) cs (data.map some)))

/-- A poisoned fence: 0x0F at the marker, and the accesses it holds do not perform (R275). -/
def State.poisonFence (s : State) (held : Nat) : State :=
  (s.deferExtra 0x0F 0).setMe { (s.deferExtra 0x0F 0).me with releaseHeld := max s.me.releaseHeld held }

/-- A release fence (R145, R275). -/
def State.fence (s : State) (scope held : Nat) : Act State := do
  let (s, ok) ← s.tryRelease scope
  .ok (if ok then s else s.poisonFence held)

/-- `fence.acq` (R145): loads have performed at their issue; returning atomics and near-memory operations perform. -/
def execFenceAcq (_sc : Nat) (s : State) : Host.Outcome State Fault Refusal :=
  finish s (do
    let s ← if s.atomics.any (fun t => t.hart == s.hart && t.long.isSome) then s.settleAtomics s.hart else .ok s
    s.settleNears s.hart)

/-- `fence.rel` (R145). -/
def execFenceRel (sc : Nat) (s : State) : Host.Outcome State Fault Refusal :=
  finish s (s.fence sc 1)

/-- `fence.ar` (R145). -/
def execFenceAr (sc : Nat) (s : State) : Host.Outcome State Fault Refusal :=
  finish s (s.fence sc 2)

/-! ### Near-memory operations (R146) -/

/-- A near-memory operation reads its argument block and leaves for the engine; a fault is delivered at the marker. No rule
names the fault of a block outside aperture 0xF0: address not mapped is the model's choice (log 78). -/
def State.nearOp (s : State) (op d a b : Nat) : Act State := do
  s.refuseCollecting
  if s.me.releaseHeld ≠ 0 then .ok (s.long [])
  else
    let block := s.rs b
    deferring do
      let s ← s.inOrder s.hart
      if block % 64 ≠ 0 then .error (.trap 0x04 block)
      else if block / 2 ^ 56 ≠ 0xF0 then .error (.trap 0x03 block)
      else do
        let (s, cs) ← s.check s.whoMe (if op = 1 then .read else .block) block 64 64
        let s ← s.ownFirst s.hart cs
        s.checkData cs block
        let l ← s.readChunks cs
        if (s.accessPlaces s.hart (s.rs a)).any (s.noCredit .request) then .error .wait else .ok ()
        let h := s.me
        let t : PendingNear :=
          { hart := s.hart, long := h.nextLong, op := op, addr := s.rs a, arg := splitLanes 64 8 (ofBytes l),
            argPlace := placeLocal s.coreNo (block % 2 ^ 19), d := d, asid := h.asid, user := !h.sup,
            slot := h.slot, flock := h.flock, since := s.cycle }
        let s := s.pushLong { id := 0, waddr := 0, queued := true }
        .ok { s with nears := s.nears ++ [t] }

/-- `nmcas4` (R146). -/
def execNmcas4 (d a b : Nat) (s : State) : Host.Outcome State Fault Refusal := finish s (s.nearOp 0 d a b)

/-- `nmenq` (R146). -/
def execNmenq (d a b : Nat) (s : State) : Host.Outcome State Fault Refusal := finish s (s.nearOp 1 d a b)

/-- `nmchase` (R146). -/
def execNmchase (d a b : Nat) (s : State) : Host.Outcome State Fault Refusal := finish s (s.nearOp 2 d a b)

end Sys2Proof.Machine
end

