-- ==== Sys2Proof/Machine/Messages.lean ====
section
/-!
DEFINITION. Messages, inboxes, outbound queues and the tag group (R277, R278, R283 to R292, R314, R321 to R325).
-/

namespace Sys2Proof.Machine

/-! ### Messages (R283, R284) -/

/-- Header word 1 (R283). -/
def headerWord (serial src colour anti prio tag : Nat) : Nat :=
  serial * 2 ^ 42 + src * 2 ^ 16 + colour * 2 ^ 12 + anti * 2 ^ 11 + prio * 2 ^ 8 + tag

namespace Msg

/-- The fields of header word 1 (R283). -/
def tag (m : Msg) : Nat := bits m.hdr 0 8
def prio (m : Msg) : Nat := bits m.hdr 8 3
def anti (m : Msg) : Bool := bit m.hdr 11
def colour (m : Msg) : Nat := bits m.hdr 12 1
def src (m : Msg) : Nat := bits m.hdr 16 26
def serial (m : Msg) : Nat := bits m.hdr 42 22
/-- The message is timed (R283). -/
def timed (m : Msg) : Bool := m.ts != allOnes64
/-- The destination core. -/
def core (m : Msg) : Nat := m.dest % 2 ^ 11
/-- The destination package. -/
def pkg (m : Msg) : Nat := m.dest / 2 ^ 11

/-- Two messages are partners (R277). -/
def partner (a b : Msg) : Bool :=
  a.dest == b.dest && a.tag == b.tag && a.ts == b.ts && a.src == b.src && a.serial == b.serial && a.anti != b.anti

/-- What names a held anti-message: all that partners have in common (R277). -/
def key (m : Msg) : Nat := (((m.dest * 2 ^ 8 + m.tag) * 2 ^ 64 + m.ts) * 2 ^ 26 + m.src) * 2 ^ 22 + m.serial

/-- The 64 bytes of a message as eight words. -/
def words (m : Msg) : List Nat := [m.ts, m.hdr] ++ m.payload

end Msg

/-! ### Handler tables (R287, R292) -/

/-- A handler entry as it is read (R287). -/
structure HandlerEntry where
  pc : Nat
  flags : Nat
deriving DecidableEq, Repr

namespace HandlerEntry

/-- The entry is valid (R287). -/
def valid (e : HandlerEntry) : Bool :=
  bit e.flags 0 && e.flags / 2 ^ 16 == 0 && !bit e.flags 7 && !bit e.flags 3 && e.pc % 8 == 0
/-- BUSY. -/
def busy (e : HandlerEntry) : Bool := bit e.flags 1
/-- TIMED. -/
def timed (e : HandlerEntry) : Bool := bit e.flags 2
/-- The issue class of the handler. -/
def prio (e : HandlerEntry) : Nat := bits e.flags 4 3
/-- The most strands that run the handler at once; 0 means 4. -/
def maxs (e : HandlerEntry) : Nat := if bits e.flags 8 8 = 0 then 4 else bits e.flags 8 8

end HandlerEntry

namespace State

/-- A core's entry of a tag. -/
def handlerEntry (s : State) (core tag : Nat) : HandlerEntry :=
  let p := placeLocal core (0x6000 + 16 * tag)
  ⟨s.readAt p 8, s.readAt (p + 8) 8⟩

/-- The entry a message of a tag reaches (R289): its own when valid, else entry 0 when valid, redirected; none. An entry without
V counts as invalid whatever its BUSY bit (log 114). -/
def reachedEntry (s : State) (core tag : Nat) : Option (Nat × HandlerEntry) :=
  let e := s.handlerEntry core tag
  if e.valid then some (tag, e)
  else
    let z := s.handlerEntry core 0
    if z.valid then some (0, z) else none

/-! ### Societies (R312, R314) -/

/-- The society of a launch slot. -/
def societyOf (s : State) (slot : Option Nat) : Option Society :=
  match slot with
  | none => none
  | some n => s.hub.societies.find? (fun x => x.slot == n)

/-- The society of the issuing hart's launch. -/
def mySociety (s : State) : Option Society := s.societyOf s.me.slot

/-- FLOOR as the issuing hart reads it: all ones without a society (R349). -/
def myFloor (s : State) : Nat :=
  match s.mySociety with
  | some x => x.floor.toNat
  | none => allOnes64

/-- A society rewritten. -/
def updateSociety (s : State) (slot : Nat) (g : Society → Society) : State :=
  { s with hub := { s.hub with societies := s.hub.societies.map (fun x => if x.slot = slot then g x else x) } }

/-- The society has held timed work (R316). -/
def noteTimed (s : State) (slot : Option Nat) : State :=
  match slot with
  | some n => s.updateSociety n (fun x => { x with started := true })
  | none => s

/-! ### Counts (R314) -/

/-- What a core keeps for the society of the launch of a slot (R314), and what it keeps set. -/
def tally (s : State) (core slot : Nat) : Tally := Store.get {} (s.coreAt core).tallies slot
def setTally (s : State) (core slot : Nat) (t : Tally) : State :=
  let c := s.coreAt core
  s.setCore core { c with tallies := Store.set {} c.tallies slot t }

/-- The colour in which a launch's messages leave a core (R314): 0 without a launch. -/
def colourOf (s : State) (core : Nat) (slot : Option Nat) : Nat :=
  match slot with
  | some n => (s.tally core n).colour
  | none => 0

/-- A timed message of a society counts as sent in the core's colour (R314). -/
def countSent (s : State) (core slot ts : Nat) : State :=
  let c := s.tally core slot
  s.setTally core slot
    { c with sent := setNth c.sent c.colour (nth c.sent c.colour + 1), lowestSent := min c.lowestSent ts }

/-- The slot of a message that no launch of this package has sent. -/
def noSlot : Nat := 4096

/-- The launch whose society a message is of (R281): its sender's; of a message from another package, that of the launch which
holds the core's table (log 91). -/
def messageSlot (s : State) (core : Nat) (m : Msg) : Option Nat :=
  if m.slot = noSlot then (s.coreAt core).tableOwner else some m.slot

/-- A timed message of a society counts as received in its own colour (R314); a re-injected one has been counted. -/
def countReceived (s : State) (core : Nat) (m : Msg) : State :=
  match s.messageSlot core m with
  | some n =>
    if m.timed && !m.reinjected && (s.societyOf (some n)).isSome then
      let c := s.tally core n
      s.setTally core n { c with received := setNth c.received m.colour (nth c.received m.colour + 1) }
    else s
  | none => s

/-- A message counts in MSGDROP (R407). -/
def countDropped (s : State) (core : Nat) : State :=
  let c := s.coreAt core
  s.setCore core { c with msgdrop := min (c.msgdrop + 1) 0xFFFFFFFF }

/-- A message is discarded as it arrives: it counts as received and in MSGDROP (R289). -/
def discardMessage (s : State) (core : Nat) (m : Msg) : State := (s.countReceived core m).countDropped core

/-! ### The inbox (R278, R285, R291) -/

/-- An inbox slot for a message that enters: general for a positive from outside, else reserved, then general (R285).
None when every slot it may use is full. -/
def inboxSlot (c : Core) (m : Msg) (reserved : Bool) : Option Bool :=
  let general := (c.inbox.filter (fun x => x.general)).length
  let other := (c.inbox.filter (fun x => !x.general)).length
  if m.anti || reserved then
    (if other < 16 then some false else if general < 240 then some true else none)
  else if general < 240 then some true else none

/-- The lowest slot of the inbox's 256 that holds no message (R107, R285). -/
def freePlace (c : Core) : Nat := ((upFrom 0 256).find? (fun i => c.inbox.all (fun x => x.place != i))).getD 0

/-- A message stands in its slot's 64 bytes of core local memory: header words 0 and 1, then the payload (R107, R283). What a
supervisor's write there makes of the message no rule says; the message stays (log 95). -/
def showMessage (s : State) (core : Nat) (x : InMsg) : State :=
  s.perform (placeLocal core (0x2000 + 64 * x.place)) (wordBytes ((x.msg.ts :: x.msg.hdr :: x.msg.payload).take 8))

/-- A message enters a core's inbox (R278, R285, R291): it meets its partner, or takes a slot; none where it finds no
slot. -/
def enterInbox (s : State) (core : Nat) (m : Msg) (reserved : Bool) : Option State :=
  let c := s.coreAt core
  match c.inbox.find? (fun x => x.msg.partner m && (x.msg.anti || !x.held)) with
  | some x => some (s.setCore core { c with inbox := c.inbox.erase x })
  | none =>
    match inboxSlot c m reserved with
    | none => none
    | some general =>
      let x : InMsg := { msg := { m with hart := none, since := 0, reinjected := false }, arrival := s.cycle, general := general, place := freePlace c }
      let t := match s.reachedEntry core m.tag with
        | some (t, _) => t
        | none => m.tag
      let pnd := if bit c.tagen.toNat t then c.tagpnd else c.tagpnd ||| BitVec.ofNat 256 (2 ^ t)
      some ((s.setCore core { c with inbox := c.inbox ++ [x], tagpnd := pnd, arrivals := c.arrivals + 1 }).showMessage core x)

/-! ### The outbound queue (R277, R322) -/

/-- The serial after one (R277). -/
def nextSerial (n : Nat) : Nat := if n + 1 = 2 ^ 22 then 1 else n + 1

/-- A message joins a core's outbound queue. -/
def queueOut (s : State) (core : Nat) (m : Msg) : State :=
  s.setCore core { s.coreAt core with outbound := (s.coreAt core).outbound ++ [m] }

/-- The endpoint of a core of this package (R283). -/
def endpoint (s : State) (core : Nat) : Nat := s.hub.pkg * 2 ^ 11 + core

/-! ### `send` (R322) -/

/-- The checks of a send, in order (R322): route, timestamp, capacity. -/
def checkSend (s : State) (route ts : Nat) : Act Unit := do
  if route / 2 ^ 37 ≠ 0 ∨ 1535 < route % 2 ^ 11 ∨ s.inPaddock (bits route 11 15) = false then .error (.trap 0x08 route)
    else .ok ()
  if ts = allOnes64 then .ok ()
  else if s.me.vt ≠ BitVec.allOnes 64 ∧ ts < s.me.vt.toNat then .error (.trap 0x08 ts)
  else if s.mySociety.isSome && decide (ts < s.myFloor) then .error (.trap 0x08 ts)
  else .ok ()

/-- A send after its checks: after the acquires of its hart (R145), the message leaves with the next serial; in collecting mode
it is recorded (R307, R322). The serial it took. -/
def makeSend (s : State) (route ts : Nat) (payload : List Nat) : Act (State × Nat) := do
  let s ← s.acquiresFirst s.hart
  let n := s.myCore.serial
  let s ← if s.collecting then s.recordEntries [sentEntry route ts n (s.endpoint s.coreNo)] else .ok s
  if 32 ≤ s.myCore.outbound.length then .error .wait
  else
    let core := s.coreNo
    let m : Msg :=
      { ts := ts, payload := payload, dest := route % 2 ^ 26, asid := s.me.asid, slot := s.me.slot.getD 0,
        hdr := headerWord n (s.endpoint core) (s.colourOf core s.me.slot) 0 (bits route 34 3) (bits route 26 8),
        hart := some s.hart, since := s.cycle }
    let s := (s.setCore core { s.myCore with serial := nextSerial n }).queueOut core m
    let s := if m.timed && s.mySociety.isSome then (s.countSent core m.slot ts).noteTimed s.me.slot else s
    .ok (s.noteDest s.hart m.pkg, n)

/-- The timestamp operand of a send: register 0 means untimed (R321). -/
def sendTime (s : State) (c : Nat) : Nat := if c = 0 then allOnes64 else s.rs c

/-- The payload operand: bytes 0 to 47 as six words. -/
def sendPayload (s : State) (b : Nat) : List Nat := (lanes 64 (s.rv b)).take 6

end State

/-- `send` (R322). -/
def execSend (d a b c : Nat) (s : State) : Host.Outcome State Fault Refusal :=
  let route := s.rs a
  let ts := s.sendTime c
  finish s (do
    s.checkSend route ts
    if s.me.releaseHeld ≠ 0 then .ok (s.long [])
    else do
      let (s', n) ← s.makeSend route ts (s.sendPayload b)
      .ok (s'.longS d n))

/-! ### The tag group (R325) -/

namespace State

/-- A tag operand: in range, and the launch holds the core's table (R325). -/
def tagOperand (s : State) (a : Nat) : Act Nat :=
  let t := s.rs a
  if 255 < t then .error (.trap 0x08 t)
  else if s.me.slot.isNone || s.myCore.tableOwner != s.me.slot then .error (.trap 0x07 t)
  else .ok t

/-- One bit of a tag register. -/
def tagBit (r : BitVec 256) (t : Nat) (on : Bool) : BitVec 256 := 
  if on then r ||| BitVec.ofNat 256 (2 ^ t) else r &&& ~~~(BitVec.ofNat 256 (2 ^ t))

end State

/-- `tagen` (R325). -/
def execTagen (a : Nat) (s : State) : Host.Outcome State Fault Refusal :=
  finish s (do
    let t ← s.tagOperand a
    .ok (s.setCore s.coreNo { s.myCore with tagen := State.tagBit s.myCore.tagen t true }))

/-- `tagdis` (R325). -/
def execTagdis (a : Nat) (s : State) : Host.Outcome State Fault Refusal :=
  finish s (do
    let t ← s.tagOperand a
    .ok (s.setCore s.coreNo { s.myCore with tagen := State.tagBit s.myCore.tagen t false }))

/-- `tagpnd` (R325). -/
def execTagpnd (a : Nat) (s : State) : Host.Outcome State Fault Refusal :=
  finish s (do
    let t ← s.tagOperand a
    .ok (s.setCore s.coreNo { s.myCore with tagpnd := State.tagBit s.myCore.tagpnd t true }))

/-- `tagclr` (R325). -/
def execTagclr (a : Nat) (s : State) : Host.Outcome State Fault Refusal :=
  finish s (do
    let t ← s.tagOperand a
    .ok (s.setCore s.coreNo { s.myCore with tagpnd := State.tagBit s.myCore.tagpnd t false }))

/-- `tagrd` (R325). -/
def execTagrd (d a : Nat) (s : State) : Host.Outcome State Fault Refusal :=
  finish s (do
    let t ← s.tagOperand a
    let c := s.myCore
    let e := s.handlerEntry s.coreNo t
    let n := min (c.inbox.filter (fun x => x.msg.tag == t)).length 255
    .ok (s.longS d (bool1 (bit c.tagen.toNat t) + 2 * bool1 (bit c.tagpnd.toNat t) + n * 2 ^ 8 +
      2 ^ 16 * bool1 e.valid + 2 ^ 17 * bool1 e.busy)))

end Sys2Proof.Machine
end

