-- ==== Sys2Proof/Machine/Paging.lean ====
section
/-!
DEFINITION. What the hub does with pages: free frames (R243), moves of mapped pages (R246, R247), agistment leases (R248
to R254, R419 to R421), removal of translations (R238, R418), and the messages that hardware sends (R225, R247, R253,
R285).
-/

namespace Sys2Proof.Machine

/-! ### Frames (R230, R243) -/

/-- First frame and number of frames of tiers 1 and 3, in local pages (R230). -/
def tierFrames (tier : Nat) : Nat × Nat := if tier = 1 then (0, 2 ^ 23) else (2 ^ 26, 6 * 2 ^ 24)

/-- The first free frame of `fuel` candidates, taken round from `i`. -/
def nextFree (used : List Nat) (base count : Nat) : Nat → Nat → Option Nat
  | 0, _ => none
  | fuel + 1, i =>
    let p := base + i % count
    if used.contains p then nextFree used base count fuel (i + 1) else some p

namespace State

/-- Frames taken from the free ones of their tier, by place / 65536. -/
def takeFrames (s : State) (l : List Nat) : State :=
  { s with hub := { s.hub with usedFrames := s.hub.usedFrames ++ l.filter (fun p => !s.hub.usedFrames.contains p) } }

/-- Frames given back to the free ones of their tier. -/
def giveFrames (s : State) (l : List Nat) : State :=
  { s with hub := { s.hub with usedFrames := s.hub.usedFrames.filter (fun p => !l.contains p) } }

/-- A free frame of a tier of a package, as place / 65536: which one is a free value (log 4). -/
def allocFrame (s : State) (pkg tier : Nat) : Option (State × Nat) :=
  let (x, t) := s.freeValue
  let (first, count) := tierFrames tier
  match nextFree t.hub.usedFrames (pkg * 2 ^ 29 + first) count (t.hub.usedFrames.length + 1) x.toNat with
  | some p => if t.hub.usedFrames.length < count ∨ !t.hub.usedFrames.contains p then some (t.takeFrames [p], p) else none
  | none => none

/-! ### Messages that hardware sends (R225, R247, R253, R285) -/

/-- The mark, above every ASID, of messages that no launch has sent (R285, R324). -/
def hubAsid : Nat := 4096

/-- The mark of floor messages, which R289 does not redirect (R317). -/
def floorAsid : Nat := 4097

/-- An untimed message of the hardware on its way to a core of this package: serial 0 (R283). -/
def hubMessage (s : State) (core tag prio src : Nat) (payload : List Nat) : State :=
  let c := s.coreAt core
  let m : Msg :=
    { ts := allOnes64, hdr := headerWord 0 src (s.colourOf core c.tableOwner) 0 (prio % 8) (tag % 256), payload := payload,
      dest := s.endpoint core, asid := hubAsid, slot := 0 }
  if core < 1536 then s.setCore core { c with netWait := c.netWait ++ [m] } else s

/-- The endpoint a message of the hub is sent for: no rule names one, so it is a free value (log 4). -/
def hubSource (s : State) : Nat × State := (s.freeValue.1.toNat % 2 ^ 26, s.freeValue.2)

/-! ### Removal of translations (R238, R418) -/

/-- What a `tlbi` names: an address space or all, an address or all. -/
def tlbNamed (asid va : Nat) (allAsid allVa : Bool) (t : Tlb) : Bool :=
  (allAsid || t.asid == asid) &&
    (allVa ||
      (if t.kind = 2 then t.page == va / 2 ^ (if t.level = 3 then 42 else 29)
       else if t.large then t.page / 8192 == va / 2 ^ 29
       else t.page == va / 65536 || (t.group && t.page / 32 == va / 2 ^ 21)))

/-- The structure lies within a scope's instance of a core, or serves that core (R418). -/
def tlbReached (core scope : Nat) (t : Tlb) : Bool :=
  if t.kind = 0 then
    (if scope ≤ 1 then t.unit == core else if scope = 2 then clusterOf t.unit == clusterOf core
     else if scope = 3 then dieOf t.unit == dieOf core else true)
  else if t.kind = 1 then
    (t.unit == clusterOf core || (scope == 3 && t.unit / 24 == dieOf core) || decide (4 ≤ scope))
  else t.unit == dieOf core || decide (4 ≤ scope)

/-- The stores and atomics under way that `mine` names by hart, address and place performed. -/
def settleSome (s : State) (mine : Nat → Nat → Nat → Bool) : Act State := do
  let s ← s.drainWhere (fun t => mine t.hart t.va t.place)
  s.settleAtomicsWhere (fun t => mine t.hart t.va t.place)

/-- Every access of a list of harts performed. -/
def settleHarts (s : State) : List Nat → Act State
  | [] => .ok s
  | k :: t => do
    let s ← s.settleAccesses k
    s.settleHarts t

/-- The hart lies within a scope's instance of a core. -/
def hartReached (core scope k : Nat) : Bool :=
  if scope ≤ 1 then k / 8 == core else if scope = 2 then clusterOf (k / 8) == clusterOf core
  else if scope = 3 then dieOf (k / 8) == dieOf core else true

/-- Translations gone from the structures within a scope; one that a walk in flight has read is read again. -/
def dropTlb (s : State) (core scope asid va : Nat) (allAsid allVa : Bool) : State :=
  { s with
    tlbs := s.tlbs.filter (fun t => !(tlbNamed asid va allAsid allVa t && tlbReached core scope t)),
    walks := s.walks.filter (fun w =>
      !((allAsid || w.asid == asid) && (allVa || w.page / 8192 == va / 2 ^ 29) &&
        (w.die == dieOf core || decide (4 ≤ scope)))) }

/-- A removal that has performed (R238, R418): the translations are gone, and every access within the scope that used one
has performed. A base page's, a large page's or a group's translation serves addresses of one 512 MiB region.
Near-memory operations translate as they execute. -/
def removeTlb (s : State) (core scope asid va : Nat) (allAsid allVa : Bool) : Act State :=
  (s.dropTlb core scope asid va allAsid allVa).settleSome (fun k a _ =>
    hartReached core scope k && (allVa || a / 2 ^ 29 == va / 2 ^ 29))

/-- The removal that the hub makes at .pa for one page (R246, R252). -/
def hubTlbi (s : State) (asid va : Nat) : Act State :=
  (s.dropTlb 0 6 asid va false false).settleSome (fun _ a _ => a / 65536 == va / 65536)

/-! ### Copies of frames -/

/-- A frame's 65,536 bytes copied with their poison to another frame (R246, R247). -/
def copyFrame (s : State) (src dst : Nat) : State :=
  let inside := fun (p : Nat) => decide (dst * 65536 ≤ p ∧ p < dst * 65536 + 65536)
  let cells := s.mem.filter (fun e => decide (src * 65536 ≤ e.1 ∧ e.1 < src * 65536 + 65536))
  let mem := cells.foldl (fun m e => Store.set unlistedByte m (dst * 65536 + (e.1 - src * 65536)) e.2)
    (s.mem.filter (fun e => !inside e.1))
  let lines := (s.poison.filter (fun l => l / 1024 == src)).map (fun l => dst * 1024 + l % 1024)
  ({ s with mem := mem, poison := s.poison.filter (fun l => l / 1024 ≠ dst) ++ lines } : State).markDirtyBit (dst * 65536)

/-- One line copied with its poison. -/
def copyLineTo (s : State) (src dst : Nat) : State :=
  let bad := s.poison.contains src
  let t := (s.writeBytes (64 * dst) (s.bytesAt (64 * src) 64)).markDirtyBit (64 * dst)
  let clean := t.poison.filter (fun l => l ≠ dst)
  { t with poison := if bad then clean ++ [dst] else clean }

/-- Every line of a frame marked poisoned (R253, R254). -/
def poisonFrame (s : State) (p : Nat) : State :=
  { s with poison := s.poison.filter (fun l => l / 1024 ≠ p) ++ upFrom (1024 * p) 1024 }

/-! ### Moves of mapped pages (R246, R247) -/

/-- The leaf is a valid, normal base page without PIN, at tier 1 or 3 (R245, R422). -/
def movable (e : Nat) (large : Bool) : Bool :=
  !large && bits e 9 2 == 0 && !bit e 11 && (bits e 6 3 == 1 || bits e 6 3 == 3)

/-- A move of the page with this leaf is in flight. -/
def moving (s : State) (leafAddr : Nat) : Bool := s.hub.moves.any (fun m => m.leafAddr == leafAddr)

/-- The frame lies in an agistment lease of this hub, lent or as backing. -/
def inAgist (s : State) (p : Nat) : Bool :=
  s.hub.agist.any (fun a =>
    (a.lender == p / 2 ^ 29 && decide (a.lbase / 65536 ≤ p % 2 ^ 29 ∧ p % 2 ^ 29 < (a.lbase + a.size) / 65536)) ||
      (5 ≤ a.state && p / 2 ^ 29 == s.hub.pkg &&
        decide (a.backing / 65536 ≤ p % 2 ^ 29 ∧ p % 2 ^ 29 < (a.backing + a.size) / 65536)))

/-- A move enters the engine. -/
def startMove (s : State) (m : PageMove) : State := { s with hub := { s.hub with moves := s.hub.moves ++ [m] } }

/-- The message that every ending of a move posts (R247): its priority and source no rule states (log 4). -/
def moveEvent (s : State) (m : PageMove) (outcome : Nat) : State :=
  let c := s.hub.migctl.toNat
  let (src, s) := s.hubSource
  let (prio, s) := s.freeValue
  s.hubMessage (bits c 40 11) (bits c 32 8) (prio.toNat % 8) src
    [m.va, m.src / 65536, m.dst / 65536, outcome, m.poisoned, 0]

/-- A move leaves the engine. -/
def dropMove (s : State) (m : PageMove) : State :=
  { s with hub := { s.hub with moves := s.hub.moves.filter (fun x => x.leafAddr ≠ m.leafAddr) } }

/-- A move of a core's drover fails (R116, R153): its fault status is held for 64 moves, the fault is recorded, and the
strand whose it is is poisoned at `scope` (R274). -/
def failMove (s : State) (core : Nat) (m : Move) (cause tval scope : Nat) : State :=
  let c := s.coreAt core
  let faults := c.moveFaults ++ [{ seq := m.seq, cause := cause, tval := tval, launch := m.launch, flock := m.flock }]
  let s := s.setCore core { c with
    moves := c.moves.filter (fun x => !x.same m), moveFaults := faults.drop (faults.length - 64) }
  let x : Async :=
    { hart := m.hart, owner := m.owner, slot := m.launch, flock := m.flock, pc := m.pc, since := m.since, addr := tval,
      progress := 2 ^ 60 + m.seq * 2 ^ 28 + m.row }
  s.asyncFail x cause scope

/-- A move is complete: its ticket is no longer among the drover's moves (R153). -/
def completeMove (s : State) (core : Nat) (m : Move) : State :=
  let c := s.coreAt core
  s.setCore core { c with moves := c.moves.filter (fun x => !x.same m) }

/-- The `pgin` that a move serves ends: its ticket is complete, or faulted (R152, R153). -/
def endPageIn (s : State) (m : PageMove) (fault : Option (Nat × Nat)) : State :=
  match m.pgin with
  | none => s
  | some (core, seq) =>
    match (s.coreAt core).moves.find? (fun x => x.seq == seq && x.launch == m.slot && x.flock == m.flock), fault with
    | some x, some (k, v) => s.failMove core x k v (s.targetScope x.hart m.src)
    | some x, none => s.completeMove core x
    | none, _ => s

/-- The leaf of a moved page: the new frame and tier, every other bit kept. -/
def movedLeaf (e dst tier : Nat) : Nat := setBits (setBits e 16 44 dst) 6 3 tier

/-- A move is abandoned: the destination is freed and the source mapping kept (R247), also where the leaf has been switched
and no access has gone through it yet (R252). -/
def abandonMove (s : State) (m : PageMove) (line : Nat) : State :=
  let s := if m.stage = 2 then
      (s.writeAt m.leafAddr 8 (movedLeaf (s.readAt m.leafAddr 8) (m.src / 65536) (bits m.leaf 6 3))).dropTlb 0 6 m.asid m.va false false
    else s
  let s := (s.dropMove m).giveFrames (if m.lease.isSome then [] else [m.dst / 65536])
  (s.moveEvent m 1).endPageIn m (some (0x0E, line))

/-- A page's lease count goes with it to its new frame (R246), also where a launch lowers it at its end (R240). -/
def carryCount (s : State) (src dst : Nat) : State :=
  let n := Store.get 0 s.hub.leaseCounts src
  { s with hub := { s.hub with
    leaseCounts := Store.set 0 (Store.set 0 s.hub.leaseCounts src 0) dst n,
    launches := s.hub.launches.map (fun e =>
      (e.1, e.2.map (fun l => { l with held := l.held.map (fun p => if p = src then dst else p) }))) } }

/-- Every access under way to a frame performs (R246). -/
def settleFrame (s : State) (p : Nat) : Act State := s.settleSome (fun _ _ a => a / 65536 == p)

/-- The accesses under way to a frame go on to the same bytes of another one (R226). -/
def redirect (s : State) (src dst : Nat) : State :=
  let via := fun (p : Nat) => if p / 65536 = src then dst * 65536 + p % 65536 else p
  { s with
    stores := s.stores.map (fun t => { t with place := via t.place, pkg := pkgOfPlace (via t.place) }),
    atomics := s.atomics.map (fun t => { t with place := via t.place, pkg := pkgOfPlace (via t.place) }) }

/-- Accesses under way that are lost (R396): each fails as its kind does. -/
def loseAccesses (s : State) (gone : Nat → Bool) : State :=
  let stores := s.stores.filter (fun t => gone t.place)
  let atomics := s.atomics.filter (fun t => gone t.place)
  let s : State := { s with
    stores := s.stores.filter (fun t => !gone t.place), atomics := s.atomics.filter (fun t => !gone t.place) }
  let s := stores.foldl (fun s t => s.asyncFail t.async 0x0E (s.targetScope t.hart t.place)) s
  atomics.foldl loseAtomic s

/-! ### What the tables map (R227, R228) -/

/-- The words of a table that are not zero: memory that nothing has written reads zero. -/
def tableWords (s : State) (frame : Nat) : List Nat :=
  ((s.mem.filter (fun e => e.1 / 65536 == frame)).map (fun e => e.1 / 8)).eraseDups.map (fun a => s.readAt (8 * a) 8)

/-- A leaf under one address space's tables maps a frame. -/
def maps (s : State) (frame : Nat) : Bool :=
  let below := fun (e : Nat) => s.tableWords (entryPage e / 65536)
  (s.tableWords (s.hub.pkg * 2 ^ 29 + bits s.hub.asidtab.toNat 16 29)).any (fun root =>
    bit root 0 && s.tablePageOk root && (below root).any (fun e3 =>
      s.isPointer e3 && (below e3).any (fun e2 =>
        if s.leafOk e2 true then bits e2 16 44 / 8192 == frame / 8192
        else s.isPointer e2 && (below e2).any (fun e1 => s.leafOk e1 false && bits e1 16 44 == frame))))

/-! ### Agistment leases (R248 to R252, R419 to R421) -/

/-- The fields of a lease record keep R248: the words at 0x00 to 0x38. -/
def leaseRecordOk (w : List Nat) : Bool :=
  bits (nth w 0) 0 32 != 0 && nth w 0 / 2 ^ 47 == 0 && nth w 1 % 65536 == 0 && nth w 2 % 65536 == 0 &&
    decide (65536 ≤ nth w 2 ∧ nth w 2 ≤ 64 * 2 ^ 30) && nth w 3 % 65536 == 0 && decide (nth w 3 ≤ 512 * 2 ^ 20) &&
    decide (1 ≤ nth w 4 ∧ nth w 4 ≤ 8000) && nth w 5 % 65536 == 0 && bits (nth w 7) 11 5 == 0 && nth w 7 / 2 ^ 27 == 0 &&
    decide (bits (nth w 7) 16 11 < 1536) && decide (localTier (nth w 1) = 1 ∧ localTier (nth w 1 + nth w 2 - 1) = 1) &&
    decide (localTier (nth w 5) = 3 ∧ localTier (nth w 5 + nth w 2 - 1) = 3)

/-- The lease of a record. -/
def leaseOf (w : List Nat) (recPlace borrower state : Nat) : AgistLease :=
  { id := bits (nth w 0) 0 32, lender := bits (nth w 0) 32 15, borrower := borrower, lbase := nth w 1, size := nth w 2,
    dquota := nth w 3, mwin := nth w 4, backing := nth w 5, lmap := nth w 6, dtag := bits (nth w 7) 0 8,
    core := bits (nth w 7) 16 11, state := state, recPlace := recPlace }

/-- Pages of a lease. -/
def leasePages (a : AgistLease) : Nat := a.size / 65536

/-- A lease takes a new state, in the hub and in its record. -/
def setLease (s : State) (a : AgistLease) : State :=
  let rest := s.hub.agist.map (fun x => if x.id = a.id ∧ x.lender = a.lender then a else x)
  ({ s with hub := { s.hub with agist := rest } } : State).writeLeaseState a.recPlace a.state

/-- A lease enters the hub. -/
def addLease (s : State) (a : AgistLease) : State :=
  ({ s with hub := { s.hub with agist := s.hub.agist ++ [a] } } : State).writeLeaseState a.recPlace a.state

/-- A lease's record is freed: STATE reads 0 (R420). -/
def freeLease (s : State) (a : AgistLease) : State :=
  ({ s with hub := { s.hub with agist := s.hub.agist.filter (fun x => !(x.id == a.id && x.lender == a.lender)) } } :
    State).writeLeaseState a.recPlace 0

/-- The frames of the lent region. -/
def lentFrames (a : AgistLease) : List Nat := upFrom (a.lender * 2 ^ 29 + a.lbase / 65536) (leasePages a)

/-- The backing frames of a lease of this package. -/
def backingFrames (s : State) (a : AgistLease) : List Nat :=
  upFrom (s.hub.pkg * 2 ^ 29 + a.backing / 65536) (leasePages a)

/-- None of a list of frames is in use. -/
def allFree (s : State) (l : List Nat) : Bool := s.hub.usedFrames.all (fun p => !l.contains p)

/-- The inequality of R249 over leases, in µs, against the smallest window. -/
def windowHolds (l : List AgistLease) : Bool :=
  let cost := (l.map (fun a => ceilDiv a.dquota 64000 + ceilDiv (a.size / 65536) 1000)).foldl (· + ·) 0
  l.all (fun a => decide (cost ≤ a.mwin))

/-- The leases this package holds as borrower. -/
def heldLeases (s : State) : List AgistLease := s.hub.agist.filter (fun a => decide (5 ≤ a.state))

/-- Takes whose lender has been asked and has not answered: each holds its place in the table and its backing until it
has (log 87). -/
def asked (s : State) : List AgistLease := s.hub.takes.map (fun t => leaseOf t.words t.recPlace s.hub.pkg 5)

/-- The hub's table is full (R419). -/
def leasesFull (s : State) : Bool := decide (64 ≤ s.hub.agist.length + s.asked.length)

/-- Why an offer is refused (R419); 0 when it is taken. -/
def offerReason (s : State) (w : List Nat) : Nat :=
  let a := leaseOf w 0 0 1
  if !leaseRecordOk w || s.hub.agist.any (fun x => x.id == a.id && x.lender == a.lender) then 1
  else if s.leasesFull || !s.allFree (lentFrames a) then 2
  else 0

/-- The borrower's record lies in its own memory at tier 1 or 3 (R248). -/
def ownRecord (s : State) (p : Nat) : Bool :=
  pkgOfPlace p == s.hub.pkg && (localTier (localOfPlace p) == 1 || localTier (localOfPlace p) == 3)

/-- Why a take of the record at a place is refused before the lender is asked (R249, R419); 0 when it is asked. -/
def takeReason (s : State) (w : List Nat) (p : Nat) : Nat :=
  let a := leaseOf w p s.hub.pkg 5
  if !leaseRecordOk w || !s.ownRecord p then 1
  else if s.leasesFull || !s.allFree (s.backingFrames a) then 2
  else if !windowHolds (s.heldLeases ++ s.asked ++ [a]) then 3
  else if !s.inPaddock a.lender then 5
  else 0

/-- An offer accepted: the frames leave the free ones (R419). -/
def makeOffer (s : State) (w : List Nat) (p : Nat) : State :=
  let a := leaseOf w p 0 1
  (s.addLease a).takeFrames (lentFrames a)

/-- A take that the lender has accepted: the borrower holds the lease, and its backing has left the free frames (R249,
R419). -/
def holdLease (s : State) (w : List Nat) (p : Nat) : State :=
  let a := leaseOf w p s.hub.pkg 5
  (s.addLease a).takeFrames (s.backingFrames a)

/-- Placements into a lease that are in flight are abandoned (R252, R254). -/
def abandonPlacements (s : State) (a : AgistLease) : State :=
  (s.hub.moves.filter (fun m => m.lease == some (a.lender * 2 ^ 32 + a.id))).foldl (fun s m => s.abandonMove m 0) s

/-- The borrower enters RETURNING (R252). -/
def startReturn (s : State) (a : AgistLease) : State := (s.abandonPlacements a).setLease { a with state := 6 }

/-- The frame in lent memory of a page of a lease, and its backing frame (R248). -/
def lentFrame (a : AgistLease) (i : Nat) : Nat := a.lender * 2 ^ 29 + a.lbase / 65536 + i
def backingFrame (s : State) (a : AgistLease) (i : Nat) : Nat := s.hub.pkg * 2 ^ 29 + a.backing / 65536 + i

/-- A page of a lease remapped to its backing at tier 3, its translation removed at .pa (R252, R254). Its accesses under
way perform on the backing (R226). -/
def remapPage (s : State) (a : AgistLease) (i asid va : Nat) : Act State := do
  let slot := a.lmap % 2 ^ 60 + 8 * i
  let leaf := s.readAt slot 8
  let frame := s.backingFrame a i
  let s := if leaf = 0 then s else s.writeAt (leaf % 2 ^ 60) 8 (movedLeaf (s.readAt (leaf % 2 ^ 60) 8) frame 3)
  let s := (s.writeAt slot 8 0).carryCount (lentFrame a i) frame
  (s.redirect (lentFrame a i) frame).hubTlbi asid va

/-- The lease after a page of it has been remapped. -/
def leaseRemapped (a : AgistLease) (i va : Nat) (written poisoned : Bool) : AgistLease :=
  { a with
    placed := a.placed.filter (fun p => p.1 ≠ i),
    dirtyPages := a.dirtyPages.filter (fun p => p ≠ i), cleaning := a.cleaning.filter (fun p => p ≠ i),
    moved := a.moved + 1, written := a.written + bool1 written, poisonedPages := a.poisonedPages + bool1 poisoned,
    lowVa := if a.moved = 0 then va else min a.lowVa va, highVa := max a.highVa va }

/-- The demotion message (R225). -/
def demotionMessage (s : State) (a : AgistLease) : State :=
  let (src, s) := s.hubSource
  s.hubMessage a.core a.dtag 7 src [a.id, a.lowVa, a.highVa, a.moved, a.written, a.poisonedPages]

/-- The borrower's lease ends: backing frames that map no page return to the free ones, and the record is freed (R249,
R252). -/
def endLease (s : State) (a : AgistLease) : State :=
  let idle := (upFrom 0 (leasePages a)).filter (fun i => !s.maps (s.backingFrame a i))
  (s.giveFrames (idle.map (s.backingFrame a))).freeLease a

end State

end Sys2Proof.Machine
end

