-- ==== Sys2Proof/Machine/System.lean ====
section
/-!
DEFINITION. The sysregs and the system operations of memory (R405 to R422).
-/

namespace Sys2Proof.Machine

/-! ### The sysreg map (R407) -/

/-- R407 defines the number. -/
def sysDefined (n : Nat) : Bool :=
  decide (n ≤ 0x00D) || decide (0x010 ≤ n ∧ n ≤ 0x017) || decide (0x100 ≤ n ∧ n ≤ 0x105) || decide (0x200 ≤ n ∧ n ≤ 0x209)

/-- User mode may read it. -/
def sysUserReads (n : Nat) : Bool := sysDefined n && (decide (n < 0x100) || n == 0x202)

/-- It has a field that some mode writes. -/
def sysWritable (n : Nat) : Bool := sysDefined n && n != 0x003 && n != 0x008 && n != 0x00C

/-- It has a field that user mode writes. -/
def sysUserWrites (n : Nat) : Bool :=
  sysWritable n && decide (n < 0x100) && n != 0x002 && n != 0x004 && n != 0x009

/-- The check of a sysreg number (R406): the cause it raises. In a launch without a society, `soc` false, a write of FLOORINT or
FLOORDELTA is ignored in both modes (R412; log 107). -/
def sysFault (sup write : Bool) (n : Nat) (soc : Bool := true) : Option Nat :=
  if !sysDefined n then some 0x01
  else if write && !soc && (n == 0x201 || n == 0x202) then none
  else if write then
    (if !sysWritable n then some 0x01 else if !sup && !sysUserWrites n then some 0x02 else none)
  else if !sup && !sysUserReads n then some 0x02
  else none

namespace State

/-- The word that a sysreg holds (R407 to R413). MCGSYNC is write-only and reads zero. -/
def sysValue (s : State) (n : Nat) : Nat :=
  let h := s.me
  let c := s.myCore
  let u := s.hub
  if n = 0x000 then h.fflags
  else if n = 0x001 then h.frm
  else if n = 0x002 then h.vt.toNat
  else if n = 0x003 then s.myFloor
  else if n = 0x004 then h.ectx.toNat
  else if n = 0x005 then h.rngseed.toNat
  else if n = 0x006 then h.rngstream.toNat
  else if n = 0x007 then h.ecapdef.toNat
  else if n = 0x008 then s.cycleOf (dieOf s.coreNo) % 2 ^ 64
  else if n = 0x009 then h.retired.toNat
  else if n = 0x00A then (match h.snap with
    | some p => p.mstatus
    | none => h.mstatus)
  else if n = 0x00B then h.lc.toNat
  else if n = 0x00C then bool1 h.sup * 2 ^ 28 + u.pkg * 2 ^ 13 + s.coreNo * 4 + s.strandNo % 4
  else if n = 0x00D then h.mcause
  else if 0x010 ≤ n ∧ n ≤ 0x013 then bits c.tagen.toNat (64 * (n - 0x010)) 64
  else if 0x014 ≤ n ∧ n ≤ 0x017 then bits c.tagpnd.toNat (64 * (n - 0x014)) 64
  else if n = 0x100 then h.tvec
  else if n = 0x101 then h.tcause
  else if n = 0x102 then h.tepc
  else if n = 0x103 then h.tval.toNat
  else if n = 0x104 then h.tstatus
  else if n = 0x105 then h.tresume
  else if n = 0x200 then h.asid
  else if n = 0x201 then (match s.mySociety with
    | some x => x.interval
    | none => 0)
  else if n = 0x202 then (match s.mySociety with
    | some x => x.delta.toNat
    | none => allOnes64)
  else if n = 0x203 then u.asidtab.toNat
  else if n = 0x204 then u.migctl.toNat
  else if n = 0x205 then u.imgbase.toNat
  else if n = 0x206 then u.ckdctl.toNat
  else if n = 0x207 then u.mcgtab.toNat
  else if n = 0x209 then c.msgdrop
  else 0

/-- 64 bits of a tag register replaced. -/
def tagWord (r : BitVec 256) (i x : Nat) : BitVec 256 := BitVec.ofNat 256 (setBits r.toNat (64 * i) 64 x)

/-- A write of a TAG register (R407): the launch holds the core's handler table. -/
def writeTagReg (s : State) (n x : Nat) : Act State :=
  if s.me.slot.isNone || s.myCore.tableOwner != s.me.slot then .error (.trap 0x07 n)
  else
    let c := s.myCore
    .ok (s.setCore s.coreNo (if n < 0x014 then { c with tagen := tagWord c.tagen (n - 0x010) x }
      else { c with tagpnd := tagWord c.tagpnd (n - 0x014) x }))

/-- FLOORINT and FLOORDELTA of the launch's society; ignored without one (R412). -/
def writeFloor (s : State) (g : Society → Society) : State :=
  match s.me.slot with
  | some n => s.updateSociety n g
  | none => s

/-! ### Multicast groups (R414, R415) -/

/-- The members an entry of the group table names (R414). -/
def groupMembers (s : State) (p count : Nat) : List Nat := (upFrom 0 count).map (fun i => s.readAt (p + 8 + 2 * i) 2)

/-- An entry's operation, count and members keep R414 and R415. -/
def groupOk (s : State) (w : Nat) (members : List Nat) : Bool :=
  decide (bits w 1 3 < 4) && decide (bits w 8 5 < 28) &&
    members.all (fun m => decide (m < 2 ^ 15) && s.inPaddock m) && decide members.Nodup

/-- Group `g` read from the table and installed under its generation; the generation before it stays in the switches
until no packet carries it (R270, R415). -/
def installGroup (s : State) (x : Nat) : Act State :=
  let g := x % 4096
  let p := placeOf s.hub.pkg (bits s.hub.mcgtab.toNat 16 29 * 65536 + 64 * g)
  let w := s.readAt p 8
  let members := s.groupMembers p (bits w 8 5 + 1)
  let old := s.groupAt g
  if x / 4096 ≠ 0 ∨ w / 2 ^ 32 ≠ 0 ∨ bits w 13 3 ≠ 0 ∨ bits w 4 4 ≠ 0 ∨ !s.groupOk w members ∨
      bits w 16 16 ≠ (old.gen + 1) % 2 ^ 16 then
    .error (.trap 0x08 x)
  else
    let y : Group :=
      { valid := bit w 0, gen := bits w 16 16, op := bits w 1 3, members := members,
        old := if old.valid then old.old ++ [(old.gen, old.members)] else old.old }
    .ok { s with hub := { s.hub with groups := Store.set {} s.hub.groups g y } }

/-- A write of MCGSYNC (R415): a `fence.rel.pk`, then the installation; a poisoned release installs nothing (R275). -/
def writeMcgsync (s : State) (x : Nat) : Act State := do
  let (s, ok) ← s.tryRelease 4
  if ok then s.installGroup x else .ok (s.poisonFence 1)

/-! ### Writes (R405, R407 to R415) -/

/-- A strand sysreg written: the fields the map names, reserved bits ignored. -/
def writeStrandReg (h : Hart) (n x : Nat) : Hart :=
  let w := BitVec.ofNat 64 x
  if n = 0x000 then { h with fflags := x % 2 ^ 5 }
  else if n = 0x001 then { h with frm := x % 4 }
  else if n = 0x002 then { h with vt := w }
  else if n = 0x004 then { h with ectx := w }
  else if n = 0x005 then { h with rngseed := w }
  else if n = 0x006 then { h with rngstream := w }
  else if n = 0x007 then { h with ecapdef := w }
  else if n = 0x009 then { h with retired := w }
  else if n = 0x00A then { h with mstatus := x % 2 ^ 18 }
  else if n = 0x00B then { h with lc := w }
  else if n = 0x00D then { h with mcause := x % 2 ^ 8 }
  else if n = 0x100 then { h with tvec := x % 2 ^ 64 / 8 * 8 }
  else if n = 0x101 then { h with tcause := x % 2 ^ 8 }
  else if n = 0x102 then { h with tepc := x % 2 ^ 64 / 4 * 4 }
  else if n = 0x103 then { h with tval := w }
  else if n = 0x104 then { h with tstatus := x % 2 ^ 8 }
  else if n = 0x105 then { h with tresume := x % 2 ^ 64 / 4 * 4 }
  else if n = 0x200 then { h with asid := x % 2 ^ 12 }
  else h

/-- A package sysreg written at the hub (R413). -/
def writePackageReg (u : Hub) (n x : Nat) : Hub :=
  let lpn := bits x 16 29 * 2 ^ 16
  if n = 0x203 then { u with asidtab := BitVec.ofNat 64 lpn }
  else if n = 0x204 then { u with migctl := BitVec.ofNat 64 (bits x 16 35 * 2 ^ 16 + x % 2) }
  else if n = 0x205 then { u with imgbase := BitVec.ofNat 64 (x % 2 ^ 55) }
  else if n = 0x206 then { u with ckdctl := BitVec.ofNat 64 (lpn + bits x 2 1 * 4 + x % 2) }
  else if n = 0x207 then { u with mcgtab := BitVec.ofNat 64 lpn }
  else u

/-- A write of a sysreg by the issuing strand. -/
def sysWrite (s : State) (n x : Nat) : Act State :=
  if 0x010 ≤ n ∧ n ≤ 0x017 then s.writeTagReg n x
  else if n = 0x201 then .ok (s.writeFloor (fun y => { y with interval := max 200 (min (x % 2 ^ 32) 1000000) }))
  else if n = 0x202 then .ok (s.writeFloor (fun y => { y with delta := BitVec.ofNat 64 x }))
  else if 0x203 ≤ n ∧ n ≤ 0x207 then .ok { s with hub := writePackageReg s.hub n x }
  else if n = 0x208 then s.writeMcgsync x
  else if n = 0x209 then .ok (s.setCore s.coreNo { s.myCore with msgdrop := x % 2 ^ 32 })
  else .ok (s.setMe (writeStrandReg s.me n x))

end State

/-- `srd` (R405): the value as it stands at issue. The number has passed the bundle checks (R406); one that is not
defined raises 0x01. -/
def execSrd (d i : Nat) (s : State) : Host.Outcome State Fault Refusal :=
  finish s (match sysFault s.me.sup false i with
    | some c => .error (.trapFree c)
    | none => .ok (s.shortS d (s.sysValue i)))

/-- A `swr` of a value. -/
def State.swrOp (s : State) (i x : Nat) : Host.Outcome State Fault Refusal :=
  finish s (match sysFault s.me.sup true i s.mySociety.isSome with
    | some c => .error (.trapFree c)
    | none => s.sysWrite i x)

/-- `swr` (R405). -/
def execSwr (a i : Nat) (s : State) : Host.Outcome State Fault Refusal := s.swrOp i (s.rs a)

/-! ### Memory-system operations (R417 to R422) -/

/-- A system operation in user mode: the bundle checks raise privileged instruction before it (R417). -/
def State.needSup (s : State) : Act Unit := if s.me.sup then .ok () else .error (.trapFree 0x02)

/-- `tlbi` (R418): it has performed when it returns, one allowed timing (R238). -/
def execTlbi (a b sc : Nat) (s : State) : Host.Outcome State Fault Refusal :=
  let x := s.rs a
  let va := s.rs b
  finish s (do
    s.needSup
    if x / 2 ^ 14 ≠ 0 then .error (.trap 0x08 x)
    else if !bit x 13 && decide (2 ^ 55 ≤ va) then .error (.trap 0x08 va)
    else s.removeTlb s.coreNo sc (x % 4096) va (bit x 12) (bit x 13))

namespace State

/-- The lease record at an address (R419): aligned, and readable and writable by R127. Its words and its place. -/
def leaseRecord (s : State) (a : Nat) : Act (State × List Nat × Nat) := do
  if a % 64 ≠ 0 then .error (.trap 0x04 a)
  else if 2 ^ 55 ≤ a then .error (.trap 0x03 a)
  else do
    let s ← s.inOrder s.hart
    let (s, cs) ← s.openRead s.whoMe .block a 64 64
    let l ← s.readChunks cs
    .ok (s, splitLanes 64 8 (ofBytes l), (cs.map Chunk.place).headD 0)

/-- The fields of a lease record without STATE, which the hubs write (R248, R420). -/
def recordFields (w : List Nat) : List Nat := w.take 7 ++ [setBits (nth w 7) 8 3 0]

/-- The take is of the record that stands at a place (R419). -/
def takesRecord (t : Take) (w : List Nat) (p : Nat) : Bool := t.recPlace == p && recordFields t.words == recordFields w

/-- The strand's take of a record is on its way, and its answer has not come. -/
def asksFor (s : State) (w : List Nat) (p : Nat) : Bool :=
  s.hub.takes.any (fun t => t.hart == s.hart && !t.orphan && takesRecord t w p)

/-- A take sent to the lender's hub: the strand waits (R419). A take needs a credit of its link (R428). -/
def sendTake (s : State) (w : List Nat) (p : Nat) : Act State :=
  let t : Take := { hart := s.hart, words := w, recPlace := p, since := s.cycle }
  if s.flowHeld .control (takeLender t) then .error .wait
  else
    let s := s.takeFrames (s.backingFrames (leaseOf w p s.hub.pkg 5))
    .error (.waitIn { s with hub := { s.hub with takes := s.hub.takes ++ [t] } })

/-- The strand has used the answer of a take. -/
def forgetTake (s : State) (e : Take × Nat) : State := s.setMe { s.me with taken := s.me.taken.erase e }

/-- The action of `agist` (R419): an offer is taken or refused at once; a take of the record has been answered, is on its
way, or is sent to the lender's hub. -/
def agistOp (s : State) (a : Nat) : Act State := do
  s.needSup
  let (s, w, p) ← s.leaseRecord a
  if bits (nth w 0) 32 15 = s.hub.pkg then
    (match s.offerReason w with
     | 0 => .ok (s.makeOffer w p)
     | r => .error (.trap 0x08 r))
  else
    match s.me.taken.find? (fun e => takesRecord e.1 w p) with
    | some e => .ok (s.forgetTake e)
    | none =>
      if s.asksFor w p then .error .wait
      else
        match s.takeReason w p with
        | 0 => s.sendTake w p
        | r => .error (.trap 0x08 r)

/-- The refusal that has answered the strand's take of the record at an address (R419). -/
def refusedTake (s : State) (a : Nat) : Option (Take × Nat) :=
  match s.leaseRecord a with
  | .ok (_, w, p) => s.me.taken.find? (fun e => takesRecord e.1 w p && e.2 != 0)
  | .error _ => none

end State

/-- `agist` (R419). -/
def execAgist (a : Nat) (s : State) : Host.Outcome State Fault Refusal :=
  match s.refusedTake (s.rs a) with
  | some e => finish (s.forgetTake e) (.error (.trap 0x08 e.2))
  | none => finish s (s.agistOp (s.rs a))

namespace State

/-- `muster` of a lease that the hub knows (R421). -/
def musterLease (s : State) (a : AgistLease) : State :=
  if a.state = 1 then (s.giveFrames (lentFrames a)).freeLease a
  else if a.state = 2 then s.setLease { a with state := 3, since := s.cycle }
  else if a.state = 5 then s.startReturn a
  else s

end State

/-- `muster` (R421). -/
def execMuster (a : Nat) (s : State) : Host.Outcome State Fault Refusal :=
  let addr := s.rs a
  finish s (do
    s.needSup
    let (s, w, _) ← s.leaseRecord addr
    match s.hub.agist.find? (fun x => x.id == bits (nth w 0) 0 32 && x.lender == bits (nth w 0) 32 15) with
    | some x => .ok (s.musterLease x)
    | none => .error (.trap 0x08 addr))

namespace State

/-- The options of `pgmig` (R422). -/
def pageOptionsOk (s : State) (o : Nat) : Bool :=
  let tier := o % 8
  decide (1 ≤ tier ∧ tier ≤ 3) && bits o 4 12 == 0 && o / 2 ^ 31 == 0 &&
    (if tier = 2 then bits o 16 15 == 0 else s.inPaddock (bits o 16 15))

/-- The lease that this package holds whose backing holds a frame (R250, R422). -/
def leaseAt (s : State) (frame : Nat) : Option AgistLease :=
  s.hub.agist.find? (fun a => a.state == 5 && (s.backingFrames a).contains frame)

/-- The destination of a `pgmig` (R422): the state with the frame taken, the frame, and the lease it is placed in. -/
def pageDest (s : State) (o frame : Nat) : Option (State × Nat × Option AgistLease) :=
  if o % 8 = 2 then
    match s.leaseAt frame with
    | none => none
    | some a =>
      let i := frame - (s.hub.pkg * 2 ^ 29 + a.backing / 65536)
      some (s, a.lender * 2 ^ 29 + a.lbase / 65536 + i, some a)
  else (s.allocFrame (bits o 16 15) (o % 8)).map (fun r => (r.1, r.2, none))

/-- `pgmig` (R422): the checks in order, then the move begins. -/
def pageMigrate (s : State) (va o : Nat) : Act State := do
  s.needSup
  if !s.pageOptionsOk o then .error (.trap 0x08 o)
  else if 2 ^ 55 ≤ va then .error (.trap 0x08 va)
  else do
    let (s, r) ← s.walk (dieOf s.coreNo) s.me.asid va
    match r with
    | none => .error (.trap 0x08 va)
    | some (e, at_, large) =>
      if !movable e large || s.moving at_ then .error (.trap 0x08 va)
      else if 8 ≤ s.hub.moves.length then .error .wait
      else
        match s.pageDest o (bits e 16 44) with
        | none => .error (.trap 0x08 va)
        | some (s, dst, lease) =>
          let m : PageMove :=
            { asid := s.me.asid, va := va / 65536 * 65536, leafAddr := at_, leaf := e, src := entryPage e,
              dst := dst * 65536, dstTier := o % 8, force := bit o 3,
              lease := lease.map (fun a => a.lender * 2 ^ 32 + a.id) }
          .ok (s.startMove m)

end State

/-- `pgmig` (R422). -/
def execPgmig (a b : Nat) (s : State) : Host.Outcome State Fault Refusal := finish s (s.pageMigrate (s.rs a) (s.rs b))

end Sys2Proof.Machine
end

