-- ==== Sys2Proof/Machine/Bundle.lean ====
section
/-!
DEFINITION. What the hardware reads off a bundle before it issues: the bundle checks (R24, R41, R45, R50, R51, R123), the
entries of the return buffer that its words take (R32), the bundle at a strand's PC (R19, R122, R154), and the registers that
its words read and write with short results (R29, R75).
-/

namespace Sys2Proof.Machine

/-! ### The bundle checks (R24, R41, R45, R50, R51, R123) -/

/-- An instruction that only supervisor mode may issue, its sysreg number apart (R98, R417). -/
def supervisorOnly : Instr → Bool
  | .eret => true
  | .halt => true
  | .tlbi _ _ _ => true
  | .agist _ => true
  | .muster _ => true
  | .pgmig _ _ => true
  | _ => false

/-- What must be the last word of a lone bundle: suspension points, `trap` and `halt` (R41, R100, R104). -/
def endsBundle : Instr → Bool
  | .suspend _ => true
  | .yield => true
  | .endTask => true
  | .waitw _ _ => true
  | .sends _ _ _ _ => true
  | .join _ => true
  | .floorw _ => true
  | .sleep _ => true
  | .trap _ => true
  | .halt => true
  | _ => false

/-- The accumulator tiles that an instruction names (R24): za0, za1. -/
def tilesNamed : Instr → Bool × Bool
  | .mma t _ _ _ _ _ => (t == 0, t != 0)
  | .mma2 _ _ _ _ _ => (true, true)
  | .mzero _ t => (t == 0, t != 0)
  | .mrd _ _ t _ => (t == 0, t != 0)
  | .mrdq _ _ t _ => (t == 0, t != 0)
  | .mwr _ _ t => (t == 0, t != 0)
  | .mstat _ t => (t == 0, t != 0)
  | _ => (false, false)

/-- A drover program may use the instruction (R123). -/
def droverMay (i : Instr) : Bool :=
  let op := encode i % 64
  match i with
  | .nop => true
  | .endTask => true
  | .tmov _ _ => true
  | .tmovp _ _ => true
  | .bgath _ _ => true
  | .pgin _ _ => true
  | .twait _ => true
  | _ => decide (0x03 ≤ op ∧ op ≤ 0x0E) || decide (0x13 ≤ op ∧ op ≤ 0x16) || decide (0x20 ≤ op ∧ op ≤ 0x23) ||
      op == 0x25 || op == 0x26

/-- The cause that a decoded word raises at the bundle checks (R50, R51); `soc` says that the launch has a society (R412). -/
def instrFault (h : Hart) (drover : Bool) (i : Instr) (soc : Bool := true) : Option Nat :=
  if drover then (if droverMay i then none else some 0x01)
  else if ((tilesNamed i).1 && !h.tile0) || ((tilesNamed i).2 && !h.tile1) then some 0x01
  else
    match i with
    | .srd _ n => sysFault h.sup false n
    | .swr _ n => sysFault h.sup true n soc
    | _ => if supervisorOnly i && !h.sup then some 0x02 else none

/-- The cause that a word raises at the bundle checks on its own. -/
def wordFault (h : Hart) (drover : Bool) (w : Nat) (soc : Bool := true) : Option Nat :=
  match decode (payload w) with
  | .error _ => some 0x01
  | .ok i => instrFault h drover i soc

/-- A word is of class A (R44). -/
def classA (w : Nat) : Bool := bit w 5

/-- The word's instruction, when it decodes. -/
def wordInstr (w : Nat) : Option Instr :=
  match decode (payload w) with
  | .ok i => some i
  | .error _ => none

/-- A check of what the word is holds of it. -/
def wordIs (p : Instr → Bool) (w : Nat) : Bool :=
  match wordInstr w with
  | some i => p i
  | none => false

/-- The checks of word 1, but for those that word 0 makes on it: its own, and bits [31:30] (R43). -/
def word1Fault (h : Hart) (drover : Bool) (w : Nat) (soc : Bool := true) : Option Nat :=
  if w / 2 ^ 30 ≠ 0 then some 0x01 else wordFault h drover w soc

/-- The causes that the two words of a bundle raise (R50, R51). -/
def bundleCauses (h : Hart) (drover : Bool) (w0 w1 : Nat) (soc : Bool := true) : Option Nat × Option Nat :=
  let c0 := wordFault h drover w0 soc
  let c1 := word1Fault h drover w1 soc
  if bit w0 31 then (c0, if wordIs endsBundle w0 && w1 != 0 then some 0x01 else c1)
  else (if classA w0 then some 0x01 else c0, if classA w1 then c1 else some 0x01)

/-- The failed bundle check that is reported (R51): the cause, the word that is named, and that word as stored. -/
def bundleFault (h : Hart) (drover : Bool) (w0 w1 : Nat) (soc : Bool := true) : Option (Nat × Nat) :=
  let r := bundleCauses h drover w0 w1 soc
  if r.1 = some 0x01 then some (0x01, w0)
  else if r.2 = some 0x01 then some (0x01, 2 ^ 32 + w1)
  else if r.1.isSome then some (0x02, w0)
  else if r.2.isSome then some (0x02, 2 ^ 32 + w1)
  else none

/-- The instruction takes an entry of the return buffer (R29, R30, R32): it writes a register or a tile, and is not
short. -/
def takesEntry (i : Instr) : Bool :=
  match i with
  | .ld _ _ _ _ => true
  | .ldSigned _ _ _ _ => true
  | .fld _ _ _ _ => true
  | .vld _ _ _ => true
  | .vlds _ _ _ _ => true
  | .tldx _ _ _ _ => true
  | .vgatherW _ _ _ _ _ => true
  | .vgatherD _ _ _ _ _ => true
  | .vscatterW _ _ _ _ h => h == 0
  | .vscatterD _ _ _ _ h => h == 0
  | .amo _ _ _ _ _ _ _ => true
  | .casW _ _ _ _ => true
  | .casD _ _ _ _ => true
  | .cas2D _ _ _ _ => true
  | .ldaq _ _ _ _ => true
  | .nmcas4 _ _ _ => true
  | .nmenq _ _ _ => true
  | .nmchase _ _ _ => true
  | .tmov _ _ => true
  | .tmovp _ _ => true
  | .bgath _ _ => true
  | .pgin _ _ => true
  | .dcons _ => true
  | .qstat _ _ => true
  | .send _ _ _ _ => true
  | .tagrd _ _ => true
  | .ecollect _ _ _ => true
  | .eclose _ => true
  | .cret => true
  | .ecat _ _ _ => true
  | .efilt _ _ _ => true
  | .efiltx _ _ _ => true
  | .elen _ _ _ => true
  | .rollback _ _ _ _ => true
  | .lqry _ _ => true
  | .join _ => true
  | _ => decide (0x27 ≤ encode i % 64)

/-- Entries of the return buffer that a word takes. -/
def wordEntries (w : Nat) : Nat := bool1 (wordIs takesEntry w)

/-- Entries of the return buffer that a hart's outstanding instructions take (R32). -/
def Hart.entries (h : Hart) : Nat := (h.longs.filter (fun r => !r.extra)).length

/-- `herd` with a count (R20, R102). -/
def isHerd : Instr → Bool
  | .herd n => n != 0
  | _ => false

/-- `loop` (R96). -/
def isLoop : Instr → Bool
  | .loop _ _ => true
  | _ => false

/-! ### Fetch of a drover program (R122, R154) -/

namespace State

/-- The local bytes that the flock of the issuing hart is allotted, from 0xA000 on (R105, R154). -/
def localAllotted (s : State) : Nat :=
  match s.launchOf s.hart with
  | some l => l.localBytes
  | none => 0

/-- The bundle of a drover program, read from the core's local memory. -/
def droverBundle (s : State) : Fetched :=
  let a := s.me.pc
  if a < 0xA000 ∨ 0xA000 + s.localAllotted < a + 8 then { addr := a, w0 := 0, w1 := 0, fault := some (0x07, a) }
  else
    let p := placeLocal s.coreNo a
    { addr := a, w0 := s.readAt p 4, w1 := s.readAt (p + 4) 4,
      fault := if s.poisoned p 8 then some (0x0E, a) else none }

/-- A drover's bundle whose word 0 has issued is the one that was checked: word 1 issues as it was read then (R50, R122). -/
def droverHalf (s : State) : Bool := s.me.word == 1 && !s.me.resumed1

/-- The bundle at the issuing hart's PC, when it has been fetched (R19, R122). -/
def bundleNow (s : State) : Option Fetched :=
  if s.isDrover && !s.droverHalf then some s.droverBundle else s.me.fetch.find? (fun e => e.addr == s.me.pc)

end State

/-! ### Short results that come late (R14, R17, R29, R75) -/

/-- Cycles until a word that reads the instruction's short result may issue (R75). -/
def latency (s : State) (i : Instr) : Nat :=
  let signed := fun a b => if s.rs b = 0 then 4 else 4 + (bitLength (toSigned 64 (s.rs a)).natAbs + 1) / 2
  let natural := fun a b => if s.rs b = 0 then 4 else 4 + (bitLength (s.rs a) + 1) / 2
  match i with
  | .mul _ _ _ => 3
  | .mulh _ _ _ => 3
  | .mulhn _ _ _ => 3
  | .mulk _ _ _ => 3
  | .div _ a b => signed a b
  | .rem _ a b => signed a b
  | .divn _ a b => natural a b
  | .remn _ a b => natural a b
  | _ => 1

/-- The s register that an instruction writes with a short result (R29). -/
def shortTo (i : Instr) : Option Nat :=
  match i with
  | .call _ => some 30
  | .jrl d _ => some d
  | .srd d _ => some d
  | .spop d _ => some d
  | _ =>
    let w := encode i
    if 0x20 ≤ w % 64 ∧ w % 64 ≤ 0x26 then some (bits w 6 5) else none

/-- The s registers that a suspended continuation's record takes (R39, R40). -/
def recordRegs : List Nat := [1, 2, 3, 4, 31]

/-- The s registers that an instruction of a strand, or of a drover program, reads at issue (R29). -/
def sources (drover : Bool) (i : Instr) : List Nat :=
  match i with
  | .jr a => [a]
  | .jrl _ a => [a]
  | .swr a _ => [a]
  | .vstm _ a _ => [a]
  | .tmov _ a => [a]
  | .tmovp _ a => [a]
  | .bgath _ a => [a]
  | .pgin _ a => [a]
  | .twait a => [a]
  | .qbind _ a => [a]
  | .tagen a => [a]
  | .tagdis a => [a]
  | .tagpnd a => [a]
  | .tagclr a => [a]
  | .tagrd _ a => [a]
  | .spawn a => [a]
  | .depdec a => [a]
  | .resume a => [a]
  | .eapply a _ _ _ => [a]
  | .edrop a => [a]
  | .elen _ a _ => [a]
  | .lqry _ a => [a]
  | .agist a => [a]
  | .muster a => [a]
  | .loop a _ => [a]
  | .ldaq _ a _ _ => [a]
  | .clz _ a => [a]
  | .ctz _ a => [a]
  | .popc _ a => [a]
  | .sextw _ a => [a]
  | .zextw _ a => [a]
  | .brev8 _ a => [a]
  | .addi _ a _ => [a]
  | .addk _ a _ => [a]
  | .subk _ a _ => [a]
  | .andk _ a _ => [a]
  | .ork _ a _ => [a]
  | .xork _ a _ => [a]
  | .mulk _ a _ => [a]
  | .sltk _ a _ => [a]
  | .mink _ a _ => [a]
  | .maxk _ a _ => [a]
  | .shli _ a _ => [a]
  | .shri _ a _ => [a]
  | .sari _ a _ => [a]
  | .rori _ a _ => [a]
  | .extr _ a _ _ => [a]
  | .extrs _ a _ _ => [a]
  | .ficvt _ a _ _ => [a]
  | .ficvtn _ a _ _ => [a]
  | .fmvsf _ a _ => [a]
  | .viota _ a _ => [a]
  | .rngb _ a => [a]
  | .mzero a _ => [a]
  | .floorw b => b :: recordRegs
  | .ld _ b _ _ => [b]
  | .ldSigned _ b _ _ => [b]
  | .fld _ b _ _ => [b]
  | .fst _ b _ _ => [b]
  | .vld _ b _ => [b]
  | .vst _ b _ => [b]
  | .vextr _ _ b _ _ => [b]
  | .vslup _ _ b _ => [b]
  | .vsldn _ _ b _ => [b]
  | .mrd _ b _ _ => [b]
  | .mrdq _ b _ _ => [b]
  | .mwr _ b _ => [b]
  | .mdraw _ _ b => [b]
  | .rngm _ a _ => [a]
  | .lis d _ => [d]
  | .beq a b _ => [a, b]
  | .bne a b _ => [a, b]
  | .blt a b _ => [a, b]
  | .bge a b _ => [a, b]
  | .bltn a b _ => [a, b]
  | .bgen a b _ => [a, b]
  | .vlds _ a b _ => [a, b]
  | .vsts _ a b _ => [a, b]
  | .tldx _ a b _ => [a, b]
  | .amo _ a b _ _ _ _ => [a, b]
  | .strl a b _ _ => [a, b]
  | .red a b _ _ _ _ => [a, b]
  | .nmcas4 _ a b => [a, b]
  | .nmenq _ a b => [a, b]
  | .nmchase _ a b => [a, b]
  | .fork a b => [a, b]
  | .depset a b => [a, b]
  | .ecollect _ a b => [a, b]
  | .ecat _ a b => [a, b]
  | .egrow a b => [a, b]
  | .etrunc a b => [a, b]
  | .evbegin a b _ => [a, b]
  | .rollback _ a b _ => [a, b]
  | .commit a b _ => [a, b]
  | .tlbi a b _ => [a, b]
  | .pgmig a b => [a, b]
  | .mset _ a b => [a, b]
  | .mma _ a b _ _ _ => [a, b]
  | .mma2 a b _ _ _ => [a, b]
  | .add _ a b => [a, b]
  | .sub _ a b => [a, b]
  | .and _ a b => [a, b]
  | .or _ a b => [a, b]
  | .xor _ a b => [a, b]
  | .andn _ a b => [a, b]
  | .orn _ a b => [a, b]
  | .xnor _ a b => [a, b]
  | .shl _ a b => [a, b]
  | .shr _ a b => [a, b]
  | .sar _ a b => [a, b]
  | .rol _ a b => [a, b]
  | .ror _ a b => [a, b]
  | .slt _ a b => [a, b]
  | .sltn _ a b => [a, b]
  | .min _ a b => [a, b]
  | .max _ a b => [a, b]
  | .minn _ a b => [a, b]
  | .maxn _ a b => [a, b]
  | .mul _ a b => [a, b]
  | .mulh _ a b => [a, b]
  | .mulhn _ a b => [a, b]
  | .div _ a b => [a, b]
  | .divn _ a b => [a, b]
  | .rem _ a b => [a, b]
  | .remn _ a b => [a, b]
  | .st d b _ _ => [d, b]
  | .insr d a _ _ => [d, a]
  | .casW d a b _ => [d, a, b]
  | .casD d a b _ => [d, a, b]
  | .cas2D d a b _ => [d, d + 1, a, b, b + 1]
  | .vgatherW _ a _ c _ => [a, c]
  | .vgatherD _ a _ c _ => [a, c]
  | .vscatterW _ a _ c _ => [a, c]
  | .vscatterD _ a _ c _ => [a, c]
  | .send _ a _ c => [a, c]
  | .sends _ a _ c => a :: c :: recordRegs
  | .suspend a => a :: recordRegs
  | .yield => recordRegs
  | .join _ => recordRegs
  | .sleep _ => recordRegs
  | .waitw a b => a :: b :: recordRegs
  | .endTask => if drover then [1] else []
  | .efilt _ a b => [a, b, b + 1]
  | .efiltx _ a b => [a, b, b + 1]
  | .erebase d a b => [d, a, b, b + 1]
  | .vbcast _ a _ x => if x = 0 then [a] else []
  | .vins _ a b _ x => if x = 0 then [a, b] else [b]
  | .vrange _ a b => [a, b, b + 1]
  | _ => []

namespace State

/-- A short result that hart `k` waits for goes to a register of the list (R29). -/
def lateReads (s : State) (k : Nat) (l : List Nat) : Bool := l.any (fun n => decide (s.cycle < Store.get 0 (s.hartAt k).late n))

/-- The registers that the words which hart `k` issues next read: of both words of a pair, of one word of a lone bundle. -/
def nextReads (s : State) (k : Nat) (e : Fetched) : List Nat :=
  let read := fun w => (wordInstr w).elim [] (sources (k % 8 == 4))
  if (s.hartAt k).word = 1 then read e.w1
  else if bit e.w0 31 then read e.w0
  else read e.w0 ++ read e.w1

/-- The next bundle or word of hart `k` waits by interlock for a short result (R14, R17, R29). -/
def interlocked (s : State) (k : Nat) : Bool :=
  !(s.hartAt k).late.isEmpty &&
    match ({ s with hart := k } : State).bundleNow with
    | some e => s.lateReads k (s.nextReads k e)
    | none => false

/-- An instruction has issued: its short result may be read after `n` cycles (R75). -/
def noteShort (s : State) (i : Instr) (n : Nat) : State :=
  match shortTo i with
  | some d => if d = 0 ∨ (n ≤ 1 ∧ s.me.late.isEmpty) then s
    else s.setMe { s.me with late := Store.set 0 s.me.late d (if n ≤ 1 then 0 else s.cycle + n) }
  | none => s

end State

end Sys2Proof.Machine
end

