-- ==== Sys2Proof/Machine/Suspend.lean ====
section
/-!
DEFINITION. Continuations and the suspension points (R35 to R42, R97, R99, R155, R327, R329 to R331, R349): the record,
pick-up, and one operation for each suspension point after its marker.
-/

namespace Sys2Proof.Machine

/-! ### Records (R35) -/

/-- The address of slot `i` of a cluster's pool region (R375). -/
def poolAddr (cluster i : Nat) : Nat := 0xF5 * 2 ^ 56 + cluster * 2 ^ 23 + 0x7F8000 + 64 * i

/-- The pool slot of a record address, when it lies in a pool region. -/
def poolIndex (addr : Nat) : Option (Nat × Nat) :=
  match State.poolCluster addr with
  | some c => some (c, (addr % 2 ^ 23 - 0x7F8000) / 64)
  | none => none

/-- A scalar register as it stands, whatever a pair bundle reads. -/
def Hart.nowS (h : Hart) (n : Nat) : Nat := (Store.get 0 h.s n).toNat

/-- The control word of a continuation (R35). -/
def Hart.ctl (h : Hart) : Nat := h.slot.getD 0 % 2 ^ 16 * 2 ^ 16 + h.level * 8 + h.cls

/-- The eight words of a record (R35, R39). -/
def Hart.recordWords (h : Hart) (next : Nat) : List Nat :=
  [next / 8 * 8, h.vt.toNat, h.nowS 31, h.nowS 1, h.nowS 2, h.nowS 3, h.nowS 4, h.ctl]

/-- The values a continuation is picked up with (R35). -/
structure Pick where
  pc : Nat
  ts : Nat
  saved : List (Nat × Nat)
  cls : Nat
deriving DecidableEq, Repr

/-- A strand's state at pick-up (R37): user mode, and no trap in progress. -/
def Hart.pickUp (h : Hart) (frm : Nat) (p : Pick) : Hart :=
  { h with
    occ := true, halted := false, parked := false, pc := p.pc, npc := p.pc, word := 0, resumed1 := false,
    s := p.saved.foldl (fun t e => if e.1 = 0 then t else Store.set 0 t e.1 (BitVec.ofNat 64 e.2)) [], f := [], v := [],
    m := [], dirty := allDirty, q := [], vt := BitVec.ofNat 64 p.ts, cls := p.cls, lc := 0, lstart := 0, lend := 0, fflags := 0,
    frm := frm, ectx := 0, sup := false, tstatus := h.tstatus / 2 * 2, fetch := [], longs := [],
    snap := none, herd := none, herdPassed := false, flow := .resumed, susp := none, releaseHeld := 0,
    late := [], kept := false, reread := 0, rolled := 0 }

/-- The values a running continuation would be saved with. -/
def Hart.asPick (h : Hart) (next : Nat) : Pick :=
  { pc := next / 8 * 8, ts := h.vt.toNat, cls := h.cls,
    saved := [(1, h.nowS 1), (2, h.nowS 2), (3, h.nowS 3), (4, h.nowS 4), (31, h.nowS 31)] }

namespace State

/-- The launch's default rounding mode. -/
def frmOf (s : State) (slot : Option Nat) : Nat :=
  match slot with
  | some n => (match s.launchAt n with
    | some l => l.frm
    | none => 0)
  | none => 0

/-- R37 applied to the issuing strand, which goes on at the next bundle (R331, R349). -/
def applyR37 (s : State) (next : Nat) : State :=
  let h := s.me
  s.setMe { (h.pickUp (s.frmOf h.slot) (h.asPick next)) with tstatus := h.tstatus / 2 * 2 }

/-! ### Record slots (R40) -/

/-- The record slot of the running continuation: its own, or the lowest free slot of its flock's pool (R40, R375). -/
def recordSlot (s : State) : Act (State × Nat) :=
  match s.me.record with
  | some a => .ok (s, a)
  | none =>
    match s.flockOf s.hart with
    | none => .error .waitSlot
    | some f =>
      let c := s.clusterAt f.cluster
      match f.pool.find? (fun i => !c.poolBusy.contains i) with
      | none => .error .waitSlot
      | some i =>
        let a := poolAddr f.cluster i
        let s := s.setCluster f.cluster { c with poolBusy := c.poolBusy ++ [i] }
        .ok (s.setMe { s.me with record := some a }, a)

/-- A record slot freed. -/
def freeRecord (s : State) (a : Nat) : State :=
  match poolIndex a with
  | some (c, i) =>
    let x := s.clusterAt c
    s.setCluster c { x with poolBusy := x.poolBusy.filter (fun j => j ≠ i) }
  | none => s

/-- The record written as one 64-byte write of the hart, checked under R127 (R40). A pool slot is the launch unit's: the
rights of user strands do not bar the write there (R375; log 32). -/
def writeRecord (s : State) (a next : Nat) : Act State := do
  let (s, cs) ← s.check { s.whoMe with user := s.whoMe.user && (poolIndex a).isNone } .vstore a 64 64
  let s ← s.ownFirst s.hart cs
  s.writeOwn s.hart s.whoMe.user a cs (wordBytes (s.me.recordWords next))

/-- What the launch unit holds of the running continuation. -/
def contOf (s : State) (a : Nat) : Option Cont := s.hub.conts.find? (fun c => c.recAddr == a && some c.slot == s.me.slot)

/-- The launch unit takes a continuation's new state (R327). -/
def trackCont (s : State) (c : Cont) : State :=
  { s with hub := { s.hub with conts := s.hub.conts.filter (fun x => !(x.recAddr == c.recAddr && x.slot == c.slot)) ++ [c] } }

/-- The continuation that suspends, as the launch unit holds it. -/
def suspended (s : State) (a : Nat) (state : ContState) (waits : Option WaitFor) : Cont :=
  let h := s.me
  let old := s.contOf a
  { recAddr := a, slot := h.slot.getD 0, flock := h.flock, cluster := clusterOf s.coreNo, asid := h.asid, state := state,
    wake := (old.map (·.wake)).getD false, waits := waits,
    waited := (old.map (·.waited)).getD false || state == .waiting, vt := h.vt,
    hangHandler := (old.map (·.hangHandler)).getD false, latch := h.latch, heldAnti := h.heldAnti,
    handlerTag := h.handlerTag }

/-- The continuation leaves its strand (R39): record written, tracked in its new state, the strand idle. READY ones join
their ready queue (R327). -/
def leave (s : State) (next : Nat) (c : State → Nat → Cont) : Act State := do
  let (s, a) ← s.recordSlot
  let s ← s.writeRecord a next
  let x := c s a
  let core := s.coreNo
  let s := ((s.trackCont x).park s.hart a x.slot).freeHart s.hart
  .ok (if x.state = .ready then s.placeReady a x.slot core else s)

/-! ### Each suspension point after its marker -/

/-- `suspend` (R329): the record, then the slot's address stored as a release at .cl. A poisoned release stores nothing
and raises 0x0F, named by this word, before the strand is left; `eret` then completes the suspension (R274, R385;
log 82). -/
def runSuspend (s : State) (next a : Nat) : Act State := do
  let (s, r) ← s.recordSlot
  let s ← s.writeRecord r next
  let (s, ok) ← if a = 0 then .ok (s, true) else s.tryRelease 2
  if !ok then
    let t := s.enterTrap 0x0F s.wordAddr a next 0 true false true
    .ok (if t.me.flow = .trap then t.setMe { t.me with susp := some (.suspend 0) } else t)
  else do
    let s ← if a = 0 then .ok s
      else do
        let (s, cs) ← s.check s.whoMe .store a 8 8
        s.writeOwn s.hart s.whoMe.user a cs (bytesOf 8 r)
    s.leave next (fun s r =>
      let c := { s.suspended r .suspended none with waited := false }
      if c.wake then { c with state := .ready, wake := false } else c)

/-- The continuation ends (R330): its slot is freed, and its latch and held anti-message are released, on whatever core the
message stands (R36, R278). -/
def runEnd (s : State) : State :=
  let h := s.me
  let s := match h.record with
    | some a =>
      let conts := s.hub.conts.filter (fun (x : Cont) => !(x.recAddr == a && some x.slot == h.slot))
      ({ s with hub := { s.hub with conts := conts } } : State).freeRecord a
    | none => s
  let s := match h.heldAnti with
    | some k =>
      ({ s with cores := mapUnits {} s.cores (fun _ c =>
        { c with inbox := c.inbox.filter (fun x => !(x.held && x.msg.anti && x.msg.key == k)) }) } : State)
    | none => s
  s.freeHart s.hart

/-- `waitw` (R331): the word is read as an acquire at .sy; a change goes on at once with the state of R37. -/
def runWaitw (s : State) (next a v : Nat) : Act State := do
  let s ← s.settleAccesses s.hart
  let (s, l) ← s.readBytes s.whoMe .read a 8 8
  if ofBytes l ≠ v then .ok (s.applyR37 next)
  else s.leave next (fun s r => s.suspended r .waiting (some (.word (s.canonAddr s.hart a) (BitVec.ofNat 64 v))))

/-- `sends` (R323): the send, then the end of the continuation. -/
def runSends (s : State) (route ts : Nat) (payload : List Nat) : Act State :=
  if s.me.releaseHeld ≠ 0 then .ok s.runEnd
  else do
    let (s, _) ← s.makeSend route ts payload
    .ok s.runEnd

/-- `join` (R155): the continuation waits in the order of suspension, and takes a mailbox value not yet taken. -/
def runJoin (s : State) (next d : Nat) : Act State := do
  let (s, r) ← s.recordSlot
  let slot := s.me.slot.getD 0
  let core := s.coreNo
  let s ← s.leave next (fun s r => { s.suspended r .waiting (some .joined) with onlyCore := some core })
  let c := s.coreAt core
  .ok ((s.setCore core { c with joins := c.joins ++ [(r, d, slot)] }).serveJoin core)

/-- `floorw` (R281, R349): without a society it never waits; else the continuation is READY once FLOOR is high enough. -/
def runFloorw (s : State) (next bound : Nat) : Act State :=
  match s.mySociety with
  | none => .ok (s.applyR37 next)
  | some x =>
    if bound ≤ x.floor.toNat then s.leave next (fun s r => s.suspended r .ready none)
    else s.leave next (fun s r => s.suspended r .waiting (some (.floor (BitVec.ofNat 64 bound))))

/-- `sleep` (R99): not before n × 1,024 cycles. -/
def runSleep (s : State) (next n : Nat) : Act State :=
  if n = 0 then s.leave next (fun s r => s.suspended r .ready none)
  else s.leave next (fun s r => s.suspended r .waiting (some (.sleeping (s.cycle + n * 1024))))

/-- A suspension point after its marker. -/
def runSusp (s : State) (next : Nat) : Susp → Act State
  | .suspend a => s.runSuspend next a
  | .yield_ => s.leave next (fun s r => s.suspended r .ready none)
  | .endTask => .ok s.runEnd
  | .waitw a v => s.runWaitw next a v
  | .sends route ts payload => s.runSends route ts payload
  | .join_ d => s.runJoin next d
  | .floorw b => s.runFloorw next b
  | .sleep n => s.runSleep next n

/-- A suspension point after its marker; where the flock's pool has no free slot, the strand stays occupied until one
frees (R40). -/
def trySusp (s : State) (next : Nat) (p : Susp) : Act State :=
  match s.runSusp next p with
  | .error .waitSlot => .ok (s.setMe { s.me with flow := .wait, waitSlot := true, susp := some p, npc := next })
  | r => r

/-- A suspension point (R39): first a marker. A fault that the marker delivers is taken, and `eret` completes the
suspension (R385). -/
def suspendPoint (s : State) (p : Susp) : Act State := do
  let next := s.nextBundle
  let (s, hit) ← s.innerMarker next
  if hit then .ok (if s.me.flow = .trap then s.setMe { s.me with susp := some p } else s)
  else if s.releasesPending && p != .endTask then .error .wait
  else s.trySusp next p

end State

/-! ### The suspension points (R39, R326) -/

/-- `suspend` (R329): its checks come before the marker, and are precise. -/
def execSuspend (a : Nat) (s : State) : Host.Outcome State Fault Refusal :=
  let x := s.rs a
  finish s (do
    s.refuseCollecting
    if x = 0 then .ok () else (s.check s.whoMe .store x 8 8).map (fun _ => ())
    s.suspendPoint (.suspend x))

/-- `yield` (R330). -/
def execYield (s : State) : Host.Outcome State Fault Refusal :=
  finish s (do
    s.refuseCollecting
    s.suspendPoint .yield_)

/-- A drover program's `end` (R124): s1 in the mailbox, bit 63 clear, as a store-release at .co. A poisoned one faults; its
TVAL no rule states (log 4). -/
def State.endDrover (s : State) : Act State := do
  let (s, hit) ← s.innerMarker s.nextBundle
  if hit then .ok s
  else do
    let (s, ok) ← s.tryRelease 1
    .ok (if ok then s.stopDrover (BitVec.ofNat 64 (s.me.nowS 1 % 2 ^ 63))
      else s.freeValue.2.enterTrap 0x0F s.wordAddr s.freeValue.1.toNat s.wordAddr 0 false false true)

/-- `end` (R330, R124). -/
def execEnd (s : State) : Host.Outcome State Fault Refusal :=
  finish s (if s.isDrover then s.endDrover
    else do
      s.refuseCollecting
      s.suspendPoint .endTask)

/-- `waitw` (R331). -/
def execWaitw (a b : Nat) (s : State) : Host.Outcome State Fault Refusal :=
  finish s (do
    s.refuseCollecting
    s.suspendPoint (.waitw (s.rs a) (s.rs b)))

/-- `sends` (R323): every check of `send` at its issue. -/
def execSends (_d a b c : Nat) (s : State) : Host.Outcome State Fault Refusal :=
  let route := s.rs a
  let ts := s.sendTime c
  finish s (do
    s.refuseCollecting
    s.checkSend route ts
    s.suspendPoint (.sends route ts (s.sendPayload b)))

/-- `join` (R155). -/
def execJoin (d : Nat) (s : State) : Host.Outcome State Fault Refusal :=
  finish s (do
    s.refuseCollecting
    s.suspendPoint (.join_ d))

/-- `floorw` (R349). -/
def execFloorw (b : Nat) (s : State) : Host.Outcome State Fault Refusal :=
  let x := s.rs b
  finish s (do
    s.refuseCollecting
    if s.me.vt ≠ BitVec.allOnes 64 ∧ s.me.vt.toNat < x then .error (.trap 0x08 x) else .ok ()
    s.suspendPoint (.floorw x))

/-- `sleep` (R99). -/
def execSleep (n : Nat) (s : State) : Host.Outcome State Fault Refusal :=
  finish s (do
    s.refuseCollecting
    s.suspendPoint (.sleep n))

end Sys2Proof.Machine
end

