-- ==== Sys2Proof/Machine/Control.lean ====
section
/-!
DEFINITION. Transfers of control, the hardware loop and the sys group (R20, R46 to R48, R90 to R104, R122).
-/

namespace Sys2Proof.Machine

/-! ### Transfers (R90 to R93, R122) -/

namespace State

/-- The check of a transfer target: of a strand (R90, R93), or of a drover program, whose targets are local offsets
(R122). `aligned` also checks bits [2:0] of a strand's target. -/
def checkTarget (s : State) (t : Nat) (aligned : Bool) : Act Unit :=
  if s.isDrover then
    (if t % 8 ≠ 0 then .error (.trap 0x04 t)
     else if t < 0xA000 ∨ 0x7FFF8 < t then .error (.trap 0x03 t)
     else .ok ())
  else if aligned && decide (t % 8 ≠ 0) then .error (.trap 0x04 t)
  else if 2 ^ 55 ≤ t then .error (.trap 0x03 t)
  else .ok ()

/-- A taken transfer (R47, R94). -/
def transfer (s : State) (t : Nat) : State := s.setMe { s.me with npc := t, flow := .taken }

/-- A checked transfer. -/
def transferTo (s : State) (t : Nat) (aligned : Bool) : Act State := do
  s.checkTarget t aligned
  .ok (s.transfer t)

/-- A conditional branch (R91): the target is checked only when the relation holds. -/
def branch (s : State) (taken : Bool) (o : Int) : Host.Outcome State Fault Refusal :=
  finish s (if taken then s.transferTo (s.target o) false else .ok s)

end State

/-- `br` (R92). -/
def execBr (o : Int) (s : State) : Host.Outcome State Fault Refusal := finish s (s.transferTo (s.target o) false)

/-- `call` (R92): the link goes to s30. -/
def execCall (o : Int) (s : State) : Host.Outcome State Fault Refusal :=
  finish s (do
    let t ← s.transferTo (s.target o) false
    .ok (t.shortS 30 s.nextBundle))

/-- `jr` (R93). -/
def execJr (a : Nat) (s : State) : Host.Outcome State Fault Refusal := finish s (s.transferTo (s.rs a) true)

/-- `jrl` (R93): the target is read before the link is written. -/
def execJrl (d a : Nat) (s : State) : Host.Outcome State Fault Refusal :=
  finish s (do
    let t ← s.transferTo (s.rs a) true
    .ok (t.shortS d s.nextBundle))

/-- `beq` (R91). -/
def execBeq (a b : Nat) (o : Int) (s : State) : Host.Outcome State Fault Refusal := s.branch (s.rs a == s.rs b) o

/-- `bne` (R91). -/
def execBne (a b : Nat) (o : Int) (s : State) : Host.Outcome State Fault Refusal := s.branch (s.rs a != s.rs b) o

/-- `blt` (R91): signed. -/
def execBlt (a b : Nat) (o : Int) (s : State) : Host.Outcome State Fault Refusal :=
  s.branch (decide (toSigned 64 (s.rs a) < toSigned 64 (s.rs b))) o

/-- `bge` (R91): signed. -/
def execBge (a b : Nat) (o : Int) (s : State) : Host.Outcome State Fault Refusal :=
  s.branch (decide (toSigned 64 (s.rs b) ≤ toSigned 64 (s.rs a))) o

/-- `bltn` (R91): unsigned. -/
def execBltn (a b : Nat) (o : Int) (s : State) : Host.Outcome State Fault Refusal :=
  s.branch (decide (s.rs a < s.rs b)) o

/-- `bgen` (R91): unsigned. -/
def execBgen (a b : Nat) (o : Int) (s : State) : Host.Outcome State Fault Refusal :=
  s.branch (decide (s.rs b ≤ s.rs a)) o

/-- `loop` (R95): a count of zero leaves the body at once. -/
def execLoop (a : Nat) (o : Int) (s : State) : Host.Outcome State Fault Refusal :=
  let n := s.rs a
  let last := s.target o
  let h := s.me
  let t := s.setMe { h with lstart := s.nextBundle, lend := last, lc := BitVec.ofNat 64 n, loopWord := true }
  finish s (if n = 0 then t.transferTo ((last + 8) % 2 ^ 64) false else .ok t)

/-! ### The sys group (R98) -/

/-- `nop` (R98). -/
def execNop (s : State) : Host.Outcome State Fault Refusal := .next s

/-- `trap n` (R100): breakpoint, naming its own word, and resuming at the next bundle. -/
def execTrap (n : Nat) (s : State) : Host.Outcome State Fault Refusal :=
  trapOutcome s (s.takeTrapAs 0x13 n s.wordAddr s.nextBundle 0 true)

namespace State

/-- The word that TRESUME names becomes the next to issue (R101, R383). -/
def resumeAt (s : State) (t : Nat) : State :=
  s.setMe { s.me with
    pc := t / 8 * 8, npc := t / 8 * 8, word := bits t 2 1, resumed1 := bit t 2, flow := .resumed, fetch := [], snap := none,
    herdPassed := false }

/-- The return from a trap: the mode before it, and no trap in progress (R101, R388). -/
def leaveTrap (s : State) : State :=
  let h := s.me
  s.setMe { h with sup := bit h.tstatus 1, tstatus := h.tstatus / 2 * 2 }

/-- `eret` (R101): a marker, the check of TRESUME, the return; a suspension point whose marker faulted is completed
(R385). -/
def eretOp (s : State) : Act State := do
  let (s, hit) ← s.innerMarker s.nextBundle
  if hit then .ok s
  else
    let h := s.me
    if 2 ^ 55 ≤ h.tresume then .error (.trap 0x03 h.tresume)
    else
      match h.susp with
      | some p => (s.leaveTrap.setMe { s.leaveTrap.me with susp := none }).trySusp h.tresume p
      | none => .ok (s.leaveTrap.resumeAt h.tresume)

end State

/-- `eret` (R101). -/
def execEret (s : State) : Host.Outcome State Fault Refusal := finish s s.eretOp

/-- `herd n` (R20, R102): the strand waits at its bundle until it is released; n = 0 does not wait. -/
def execHerd (n : Nat) (s : State) : Host.Outcome State Fault Refusal :=
  let h := s.me
  .next (if n = 0 ∨ h.herdPassed then s.setMe { h with herd := none }
    else s.setMe { h with
      flow := .wait, herd := some (match h.herd with
        | some t => t
        | none => s.cycle) })

/-- `ifence` (R103): the bundles buffered after this one and the lines of the strand's ASID in its cluster's cache. -/
def execIfence (s : State) : Host.Outcome State Fault Refusal :=
  let h := s.me
  let c := clusterOf s.coreNo
  let x := s.clusterAt c
  .next ((s.setCluster c { x with icache := x.icache.filter (fun l => l.1 ≠ h.asid) }).setMe
    { h with fetch := h.fetch.filter (fun e => e.addr = h.pc) })

/-- `halt` (R104): a marker, and the strand stops. It does not wait for a release of its strand that is still on its way: one that
is poisoned later finds no marker for its 0x0F (R274; log 77). -/
def execHalt (s : State) : Host.Outcome State Fault Refusal :=
  finish s (do
    let (s, hit) ← s.innerMarker s.nextBundle
    .ok (if hit then s else s.setMe { s.me with halted := true, flow := .gone }))

end Sys2Proof.Machine
end

