-- ==== Sys2Proof/Machine/Task.lean ====
section
/-!
DEFINITION. Continuations made and made ready by programs: `spawn`, `resume` and the dependence counters (R160, R293,
R326 to R328, R332, R333).
-/

namespace Sys2Proof.Machine

/-! ### Deques (R293) -/

/-- Place of record `i` of a core's deque. -/
def dequePlace (core i : Nat) : Nat := placeLocal core (0x7000 + 64 * (i % 64))
/-- Place of record `i` of a cluster's deque. -/
def clusterDequePlace (cluster i : Nat) : Nat := placeCluster cluster (0x7FC000 + 64 * (i % 256))

namespace State

/-- The oldest record of a full core deque moves to its cluster's deque (R293). -/
def spillDeque (s : State) (core : Nat) : State :=
  let c := s.coreAt core
  let n := clusterOf core
  let x := s.clusterAt n
  let data := s.bytesAt (dequePlace core c.dqHead) 64
  let s := s.perform (clusterDequePlace n (x.cdHead + x.cdCount)) data
  (s.setCluster n { x with cdCount := x.cdCount + 1 }).setCore core
    { c with dqHead := (c.dqHead + 1) % 64, dqCount := c.dqCount - 1 }

/-- A record copied to the newest end of the issuing core's deque (R293). -/
def pushDeque (s : State) (data : List Nat) : State :=
  let core := s.coreNo
  let s := if s.myCore.dqCount < 64 then s else s.spillDeque core
  let c := s.myCore
  (s.perform (dequePlace core (c.dqHead + c.dqCount)) data).setCore core { c with dqCount := c.dqCount + 1 }

/-- Both deques are full: `spawn` waits (R293). -/
def dequesFull (s : State) : Bool :=
  decide (64 ≤ s.myCore.dqCount) && decide (256 ≤ (s.clusterAt (clusterOf s.coreNo)).cdCount)

end State

/-- The record fault of a record's words (R38). -/
def recordFault (w : List Nat) : Option Nat :=
  if nth w 0 % 8 ≠ 0 then some 0x04
  else if nth w 7 / 2 ^ 32 ≠ 0 ∨ bits (nth w 7) 6 10 ≠ 0 then some 0x01
  else none

/-- The launch slot a record names (R35). -/
def recordSlotNo (w : List Nat) : Nat := bits (nth w 7) 16 16

/-- The checks of `spawn` (R328): the record's bytes. -/
def State.checkSpawn (s : State) (a : Nat) : Act (State × List Nat) := do
  let s ← s.inOrder s.hart
  let (s, l) ← s.readBytes s.whoMe .read a 64 64
  let w := splitLanes 64 8 (ofBytes l)
  if s.me.slot ≠ some (recordSlotNo w) then .error (.trapFree 0x07)
  else
    match recordFault w with
    | some c => .error (.trap c a)
    | none => .ok (s, l)

/-- `spawn` (R328): a release at .cl; it waits while both deques are full. Held by a poisoned fence, it does not perform
(R275). -/
def execSpawn (a : Nat) (s : State) : Host.Outcome State Fault Refusal :=
  let full := s.setMe { s.me with flow := .wait, spawnWait := true }
  finish s (do
    s.refuseCollecting
    let (s, l) ← s.checkSpawn (s.rs a)
    if s.me.releaseHeld ≠ 0 then .ok s
    else if s.dequesFull then .ok full
    else s.releasing true 2 (fun u => u.deferExtra 0x0F 0) (fun u => .ok (u.pushDeque l)))

/-- A continuation resumed (R327, R332). -/
def State.resumeCont (s : State) (addr : Nat) : State :=
  let a := s.canonAddr s.hart addr
  match s.contOf a with
  | none => s
  | some c =>
    if c.state = .running then s.trackCont { c with wake := true }
    else if c.state = .suspended then s.makeReady a c.slot s.coreNo
    else s

/-- `resume` (R332): a release at .cl; held by a poisoned fence, it does not perform (R275). -/
def execResume (a : Nat) (s : State) : Host.Outcome State Fault Refusal :=
  let addr := s.rs a
  finish s (do
    s.refuseCollecting
    if addr % 64 ≠ 0 then .error (.trap 0x04 addr)
    else if s.me.releaseHeld ≠ 0 then .ok s
    else s.releasing true 2 (fun u => u.deferExtra 0x0F 0) (fun u => .ok (u.resumeCont addr)))

/-! ### Dependence counters (R160, R333) -/

/-- The checks of a dependence counter (R333): of a 16-byte read and write, poison among them. -/
def State.checkCounter (s : State) (a : Nat) : Act (State × List Chunk) := do
  s.refuseRecorded a
  let s ← s.inOrder s.hart
  let (s, cs) ← s.check s.whoMe .cas2 a 16 16
  let s ← s.ownFirst s.hart cs
  if cs.any s.chunkBad then
    .error (if a < 2 ^ 55 then .trapSeen ⟨s.coreNo, s.me.asid, a, 16, true⟩ 0x0E a else .trap 0x0E a)
  else .ok (s, cs)

/-- `depset` (R160): the count, as a single-copy atomic store. -/
def execDepset (a b : Nat) (s : State) : Host.Outcome State Fault Refusal :=
  let addr := s.rs a
  finish s (do
    let (s', cs) ← s.checkCounter addr
    if s.me.releaseHeld ≠ 0 then .ok s'
    else s'.issueChunks s'.hart addr (cs.map (fun c => { c with n := 8 })) (bytesOf 8 (s.rs b)))

/-- `depdec` (R160): one less, as an atomic where its target lives. -/
def execDepdec (a : Nat) (s : State) : Host.Outcome State Fault Refusal :=
  let addr := s.rs a
  finish s (do
    let (s, cs) ← s.checkCounter addr
    match cs with
    | c :: _ =>
      if s.me.releaseHeld ≠ 0 then .ok s
      else s.sendAtomic { atomicArgs 3 0 16 0 [] with place := c.place, va := addr }
    | [] => .ok s)

end Sys2Proof.Machine
end

