-- ==== Sys2Proof/Machine/Pickup.lean ====
section
/-!
DEFINITION. How an idle strand takes work (R36 to R40, R286 to R289, R294 to R298, R443): deliverable messages, deque
records, ready queues and stolen records.
-/

namespace Sys2Proof.Machine

namespace State

/-! ### Eligible strands (R36) -/

/-- The hart's flock is resident and takes work: its launch is not aborted (R393). -/
def flockRuns (s : State) (k : Nat) : Bool :=
  (match s.launchOf k with
   | some l => !l.aborted
   | none => false) &&
  match s.flockOf k with
  | some f => f.status == 1
  | none => false

/-- An idle strand that may take work of a launch slot. -/
def eligible (s : State) (k slot : Nat) : Bool :=
  let h := s.hartAt k
  k % 8 < 4 && !h.occ && h.slot == some slot && s.flockRuns k

/-! ### Deliverable messages (R286 to R289) -/

/-- Strands of a core that run the handler of a tag. -/
def runningHandler (s : State) (core t : Nat) : Nat :=
  ((upFrom (8 * core) 4).filter (fun k => (s.hartAt k).occ && (s.hartAt k).handlerTag == some t)).length

/-- The tag whose entry a message reaches, when it is deliverable (R286, R289). -/
def deliverable (s : State) (core : Nat) (x : InMsg) : Option (Nat × HandlerEntry) :=
  if x.held || (x.msg.asid == 4097 && !(s.handlerEntry core x.msg.tag).valid) then none
  else
    match s.reachedEntry core x.msg.tag with
    | none => none
    | some (t, e) =>
      if bit (s.coreAt core).tagen.toNat t && !e.busy && decide (s.runningHandler core t < e.maxs) then some (t, e) else none

/-- A message in the inbox reaches no valid entry (R289), or, of the kinds that are not redirected (R317), not its own. -/
def unreachable (s : State) (core : Nat) (x : InMsg) : Bool :=
  !x.held && ((s.reachedEntry core x.msg.tag).isNone ||
    (x.msg.asid == 4097 && !(s.handlerEntry core x.msg.tag).valid))

/-- Messages whose entries have become invalid while they waited are discarded (R289); they have counted as received. -/
def dropUnreachable (s : State) (core : Nat) : State :=
  let c := s.coreAt core
  let gone := c.inbox.filter (s.unreachable core)
  if gone.isEmpty then s
  else
    gone.foldl (fun s _ => s.countDropped core)
      (s.setCore core { c with inbox := c.inbox.filter (fun x => !s.unreachable core x) })

/-- The least element of a list by a key; the first of equals. -/
def leastBy {α : Type} (key : α → List Nat) : List α → Option α
  | [] => none
  | x :: t =>
    match leastBy key t with
    | none => some x
    | some y => if decide (List.lex (key y) (key x) (fun a b => decide (a < b)) = true) then some y else some x

/-- What ranks a deliverable message within its tag (R286). -/
def withinTag (timed : Bool) (x : InMsg) : List Nat :=
  if timed then [x.msg.ts, x.msg.src, x.msg.serial] else []

/-- The message the inbox starts (R286): aged ones by waiting time, else by priority, then tags in turn, then the order
within a tag. -/
def chooseMessage (s : State) (core : Nat) : Option (InMsg × Nat × HandlerEntry) :=
  let c := s.coreAt core
  let all := c.inbox.filterMap (fun x => (s.deliverable core x).map (fun r => (x, r.1, r.2)))
  match leastBy (fun r => [r.1.since.getD r.1.arrival]) (all.filter (fun r => r.1.aged)) with
  | some r => some r
  | none =>
    leastBy (fun (r : InMsg × Nat × HandlerEntry) =>
      [7 - r.1.msg.prio, (r.2.1 + 255 - c.rrTag) % 256] ++ withinTag r.2.2.timed r.1) all

/-- A handler starts on a strand (R288): the message is latched, and an anti-message keeps its slot (R278). No rule gives a
continuation that starts without a record its LEVEL: 0 is the model's choice (log 83). -/
def startHandler (s : State) (k : Nat) (x : InMsg) (t : Nat) (e : HandlerEntry) : State :=
  let core := k / 8
  let m := x.msg
  let c := s.coreAt core
  let inbox := if m.anti then c.inbox.map (fun y => if y = x then { y with held := true } else y) else c.inbox.erase x
  let s := s.setCore core { c with inbox := inbox, rrTag := t }
  let h := s.hartAt k
  let p : Pick :=
    { pc := e.pc, ts := if e.timed then m.ts else allOnes64, saved := [(1, m.ts), (2, m.hdr)], cls := e.prio }
  let g := h.pickUp (s.frmOf h.slot) p
  let g : Hart := { g with
    v := Store.set 0 [] 31 (BitVec.ofNat 1024 (joinLanes 64 m.payload)), mcause := bool1 (t != m.tag), latch := some m,
    heldAnti := if m.anti then some m.key else none, handlerTag := some t, record := none, level := 0 }
  let s := s.setHart k g
  if e.timed && m.timed then s.noteTimed h.slot else s

/-- An idle eligible strand of the core for the launch that owns its handler table. -/
def handlerStrand (s : State) (k : Nat) : Bool :=
  match (s.coreAt (k / 8)).tableOwner with
  | some n => s.eligible k n
  | none => false

/-- A message delivered to a strand (R286), when one is deliverable. -/
def deliver (s : State) (k : Nat) : Option State :=
  if s.handlerStrand k then (s.chooseMessage (k / 8)).map (fun r => s.startHandler k r.1 r.2.1 r.2.2) else none

/-! ### Records (R36 to R40, R294) -/

/-- The words of a record. -/
def recordAt (s : State) (p : Nat) : List Nat := splitLanes 64 8 (s.readAt p 64)

/-- The values a record is picked up with (R35, R37). -/
def pickOf (w : List Nat) : Pick :=
  { pc := nth w 0, ts := nth w 1, cls := bits (nth w 7) 0 3,
    saved := [(31, nth w 2), (1, nth w 3), (2, nth w 4), (3, nth w 5), (4, nth w 6)] }

/-- A record runs on a strand (R37); a malformed one traps before its first bundle (R38). -/
def runRecord (s : State) (k a : Nat) (w : List Nat) : State :=
  let h := s.hartAt k
  let old := s.hub.conts.find? (fun c => c.recAddr == a && some c.slot == h.slot)
  let g := h.pickUp (s.frmOf h.slot) (pickOf w)
  let g : Hart := { g with
    record := some a, level := bits (nth w 7) 3 3, latch := old.bind (·.latch), heldAnti := old.bind (·.heldAnti),
    handlerTag := old.bind (·.handlerTag) }
  let c : Cont :=
    { recAddr := a, slot := h.slot.getD 0, flock := h.flock, cluster := clusterOf (k / 8), asid := h.asid,
      state := .running, wake := (old.map (fun c => c.wake && c.waited)).getD false,
      waited := (old.map (·.waited)).getD false, vt := BitVec.ofNat 64 (nth w 1), hangHandler := (old.map (·.hangHandler)).getD false,
      latch := g.latch, heldAnti := g.heldAnti, handlerTag := g.handlerTag }
  let s := ((s.setHart k g).trackCont c).adopt k a c.slot
  let s := if nth w 1 = allOnes64 then s else s.noteTimed h.slot
  match recordFault w with
  | some cause => s.onHart k (fun u => u.enterTrap cause (nth w 0) a (nth w 0 / 8 * 8) 0 false false true)
  | none => s

/-- A record from a deque copied into a slot of the strand's flock's pool, and run (R294). -/
def runCopied (s : State) (k : Nat) (data : List Nat) : Act State := do
  let h := s.hartAt k
  let (t, a) ← (({ s with hart := k } : State).setHart k { h with record := none }).recordSlot
  let t : State := { t with hart := s.hart }
  let place := 0xF5 * 2 ^ 56 + a % 2 ^ 56
  .ok ((t.perform place data).runRecord k a (splitLanes 64 8 (ofBytes data)))

/-! ### Deques (R293 to R295) -/

/-- Record `j` of `n` leaves a ring of places: the newer ones move down. -/
def closeGap (s : State) (place : Nat → Nat) (head n : Nat) : Nat → Nat → State
  | 0, _ => s
  | fuel + 1, j =>
    if j + 1 < n then
      (s.perform (place (head + j)) (s.bytesAt (place (head + j + 1)) 64)).closeGap place head n fuel (j + 1)
    else s

/-- The records of a core's deque that a strand may take, oldest first: their positions. -/
def dequeFor (s : State) (core k : Nat) : List Nat :=
  let c := s.coreAt core
  (upFrom 0 c.dqCount).filter (fun j => s.eligible k (recordSlotNo (s.recordAt (dequePlace core (c.dqHead + j)))))

/-- The same of a cluster's deque. -/
def clusterDequeFor (s : State) (n k : Nat) : List Nat :=
  let x := s.clusterAt n
  (upFrom 0 x.cdCount).filter (fun j => s.eligible k (recordSlotNo (s.recordAt (clusterDequePlace n (x.cdHead + j)))))

/-- Record `j` of a core's deque runs on a strand. -/
def takeDeque (s : State) (core k j : Nat) : Act State :=
  let c := s.coreAt core
  let data := s.bytesAt (dequePlace core (c.dqHead + j)) 64
  let s := s.closeGap (dequePlace core) c.dqHead c.dqCount c.dqCount j
  (s.setCore core { s.coreAt core with dqCount := c.dqCount - 1 }).runCopied k data

/-- Record `j` of a cluster's deque runs on a strand. -/
def takeClusterDeque (s : State) (n k j : Nat) : Act State :=
  let x := s.clusterAt n
  let data := s.bytesAt (clusterDequePlace n (x.cdHead + j)) 64
  let s := s.closeGap (clusterDequePlace n) x.cdHead x.cdCount x.cdCount j
  (s.setCluster n { s.clusterAt n with cdCount := x.cdCount - 1 }).runCopied k data

/-! ### Ready queues (R443) -/

/-- The oldest entry of the cluster's ready queue, when the strand may take it: none is taken before one that was placed
earlier (R299). -/
def readyFor (s : State) (k : Nat) : Option (Nat × Nat) :=
  (s.clusterAt (clusterOf (k / 8))).ready.head?.filter (fun e =>
    s.eligible k e.2 &&
      (match s.hub.conts.find? (fun c => c.recAddr == e.1 && c.slot == e.2) with
       | some c => (match c.onlyCore with
         | some n => n == k / 8
         | none => true)
       | none => true))

/-- An entry taken from a ready queue (R443): its record runs, or the entry is dropped and the failure recorded. -/
def takeReady (s : State) (k : Nat) (e : Nat × Nat) : Act State :=
  let n := clusterOf (k / 8)
  let x := s.clusterAt n
  let s := s.setCluster n { x with ready := x.ready.erase e }
  let drop := fun (s : State) cause =>
    s.recordIn (some e.2)
      { cause := cause, async := true, defer := false, abort := false, pc := 0, addr := e.1, progress := 0, core := k / 8,
        strand := k % 8, drover := false, flock := (s.hartAt k).flock }
  match s.readBytes (s.whoLaunch k e.2) .read e.1 64 64 with
  | .ok (u, l) =>
    let w := splitLanes 64 8 (ofBytes l)
    if recordSlotNo w = e.2 then .ok (u.runRecord k e.1 w) else .ok (drop u 0x07)
  | .error r =>
    match r.trapped s with
    | some (u, c, _) => .ok (drop u c)
    | none => .error r

/-! ### Pick-up (R294) and stealing (R295) -/

/-- The slot of the launch that a strand takes work for. -/
def slotOf (s : State) (k : Nat) : Option Nat := (s.hartAt k).slot

/-- An idle strand takes the first work that exists (R294); `wait` where there is none. -/
def takeWork (s : State) (k : Nat) : Act State :=
  let s := s.dropUnreachable (k / 8)
  match s.deliver k with
  | some t => .ok t
  | none =>
    match (s.dequeFor (k / 8) k).getLast? with
    | some j => s.takeDeque (k / 8) k j
    | none =>
      match s.readyFor k with
      | some e => s.takeReady k e
      | none =>
        match (s.clusterDequeFor (clusterOf (k / 8)) k).head? with
        | some j => s.takeClusterDeque (clusterOf (k / 8)) k j
        | none => .error .wait

/-- A core may steal (R295): its strands are idle, and its own deque holds nothing for them. -/
def maySteal (s : State) (core : Nat) : Bool :=
  (upFrom (8 * core) 4).all (fun k => !(s.hartAt k).occ && (s.dequeFor core k).isEmpty)

/-- A strand has none of the work that comes before stolen records (R294). -/
def onlySteals (s : State) (k : Nat) : Bool :=
  (s.deliver k).isNone && (s.readyFor k).isNone && (s.clusterDequeFor (clusterOf (k / 8)) k).isEmpty

/-- The first record that a core may steal (R295): the victim, the strand and the position. -/
def stealFrom (s : State) (core : Nat) : Option (Nat × Nat × Nat) :=
  let base := core / 16 * 16
  (upFrom 1 15).findSome? (fun d =>
    let v := base + (core % 16 + d) % 16
    let c := s.coreAt v
    (upFrom 0 c.dqCount).findSome? (fun j =>
      ((upFrom (8 * core) 4).find? (fun k => (s.dequeFor v k).contains j && s.onlySteals k)).map (fun k => (v, k, j))))

/-- A record stolen from a neighbour (R295). -/
def steal (s : State) (core : Nat) : Act State :=
  if s.maySteal core then
    match s.stealFrom core with
    | some (v, k, j) => s.takeDeque v k j
    | none => .error .wait
  else .error .wait

end State

/-- An outcome of a step on a hart that does not hold the issue slot. -/
def State.asHart (s : State) (k : Nat) (g : State → Host.Outcome State Fault Refusal) :
    Host.Outcome State Fault Refusal :=
  match g { s with hart := k } with
  | .next t => .next { t with hart := s.hart }
  | o => o

/-- The hart an event names. -/
def State.evHart (s : State) : Nat := 8 * s.ev.core + s.ev.strand

/-- CONTINUATION_PICKUP (R37, R294): the strand of the event takes the first work that exists for it. -/
def execContinuationPickup (s : State) : Host.Outcome State Fault Refusal := finishEvent s (s.takeWork s.evHart)

/-- MESSAGE_DELIVER (R286, R288): the inbox starts the chosen message on the strand of the event, after it has discarded
those that no entry takes any more (R289). -/
def execMessageDeliver (s : State) : Host.Outcome State Fault Refusal :=
  let s := s.dropUnreachable s.ev.core
  .next ((s.deliver s.evHart).getD s)

/-- MESSAGE_AGED (R286): a message deliverable for 65,536 cycles or more. -/
def execMessageAged (s : State) : Host.Outcome State Fault Refusal :=
  let c := s.coreAt s.ev.core
  .next (match c.inbox[s.ev.idx]? with
    | some x => (match x.since with
      | some t => if t + 65536 ≤ s.cycle then
          s.setCore s.ev.core { c with inbox := setNth c.inbox s.ev.idx { x with aged := true } } else s
      | none => s)
    | none => s)

/-- WORK_STEAL (R295): the core of the event takes a record of a neighbour's deque. -/
def execWorkSteal (s : State) : Host.Outcome State Fault Refusal := finishEvent s (s.steal s.ev.core)

/-- RECORD_POOL_SLOT_FREE (R40): a slot of the flock's pool is free, and the suspension that waited for one is made. -/
def execRecordPoolSlotFree (s : State) : Host.Outcome State Fault Refusal :=
  let k := s.evHart
  let h := s.hartAt k
  match h.susp with
  | some p =>
    if h.waitSlot then
      match s.asHart k (fun u =>
        let v := u.setMe { u.me with waitSlot := false, susp := none }
        finish v (v.runSusp h.npc p)) with
      | .next t => if (t.hartAt k).flow = .wait then .next s else .next t
      | o => o
    else .next s
  | none => .next s

end Sys2Proof.Machine
end

