-- ==== Sys2Proof/Machine/CoreEvents.lean ====
section
/-!
DEFINITION. Steps of a core and its cluster: the choice of the strand that issues (R14 to R17), fetch (R19, R90), `herd`
(R20), the return of long results and the marker (R31), and the arbitration of the scratchpads (R110 to R115).
-/

namespace Sys2Proof.Machine

/-! ### Issue (R14 to R17) -/

/-- The bundle at the hart's PC stands in its fetch buffer (R19). -/
def Hart.buffered (h : Hart) : Bool := h.fetch.any (fun e => e.addr == h.pc)

namespace State

/-- The hart's flock lets it issue: resident, or draining with a lone bundle half issued (R398). -/
def flockIssues (s : State) (k : Nat) : Bool :=
  match s.flockOf k with
  | some f => f.status == 1 || (f.status == 2 && (((s.hartAt k).word == 1 && !(s.hartAt k).resumed1) || (s.hartAt k).rolled != 0))
  | none => true

/-- Issue is gated in this cycle: every core issues in at most one of two (R442; log 51). -/
def gated (s : State) : Bool := s.hub.gating && s.cycle % 2 == 1

/-- A strand is ready (R14) in a cycle in which issue is allowed, but for a wait of the instruction at its PC. -/
def canIssue (s : State) (k : Nat) : Bool :=
  let h := s.hartAt k
  h.occ && !h.halted && !h.parked && !h.waitSlot && h.herd.isNone && h.buffered && s.flockIssues k && !s.interlocked k &&
    !s.gated

/-- The ready strand that issues (R15): aged ones by age, else the highest class, round-robin within it. -/
def pickStrand (s : State) (core : Nat) (ready : List Nat) : Option Nat :=
  let c := s.coreAt core
  let h := fun j => s.hartAt (8 * core + j)
  match leastBy (fun j => [200000 - (h j).age, j]) (ready.filter (fun j => decide (192 ≤ (h j).age))) with
  | some j => some j
  | none => leastBy (fun j => [8 - (h j).cls, (j + 4 - nth c.rrClass (h j).cls) % 4]) ready

/-- A cycle in which strand `j` of a core issues: the ages of the other ready strands rise, and every other age is reset
(R15). -/
def ageStrands (s : State) (core : Nat) (ready : List Nat) (j : Nat) : State :=
  (upFrom 0 4).foldl (fun s i =>
    let k := 8 * core + i
    let h := s.hartAt k
    s.setHart k { h with age := if i = j ∨ !ready.contains i then 0 else h.age + 1 }) s

/-- The strand takes the issue slot: its age is reset, the others' ages rise, and the pointer of its class moves on
(R15). -/
def takeSlot (s : State) (core : Nat) (ready : List Nat) (j : Nat) : State :=
  let aged := s.ageStrands core ready j
  let c := aged.coreAt core
  let t := aged.setCore core { c with rrClass := setNth c.rrClass (s.hartAt (8 * core + j)).cls ((j + 1) % 4) }
  { t with hart := 8 * core + j, issuing := true }

/-- Strands of a core that are ready: `held` lists those that their next instruction holds at issue (R14). -/
def readyStrands (s : State) (core : Nat) (held : List Nat) : List Nat :=
  (upFrom 0 4).filter (fun j => s.canIssue (8 * core + j) && !held.contains j)

end State

/-- CORE_ISSUE (R15): the core of the event gives its issue slot to one ready strand, whose next word issues in the
following step; strand 4 names the drover's own path (R122), on which a program that has stopped writes its mailbox
(R124), and the mailbox answers a join that has had to wait (R155). `list` holds the strands that their next instruction holds at issue, as the machine finds them (`heldStrands`);
`aux` is what happens to the next container that the strand reads (R164). -/
def execCoreIssue (s : State) : Host.Outcome State Fault Refusal :=
  let c := s.ev.core
  .next (if s.issuing then s
    else if s.ev.strand = 4 then
      let k := 8 * c + 4
      let h := s.hartAt k
      match (s.coreAt c).mailWait with
      | some x => s.onHart k (fun u => u.stopDrover x)
      | none =>
        if (s.coreAt c).mailbox.isSome && !(s.coreAt c).joins.isEmpty then s.serveJoin c
        else if h.occ && !h.halted && !h.parked && s.flockIssues k && !s.interlocked k && !s.gated then
          { s with hart := k, issuing := true }
        else s
    else
      let ready := s.readyStrands c s.ev.list
      match s.pickStrand c ready with
      | some j =>
        let t := s.takeSlot c ready j
        if s.ev.aux = 0 then t else t.setMe { t.me with reread := s.ev.aux % 3 }
      | none => s)

/-- STRAND_AGED (R15): a cycle passes a ready strand over, and its counter reaches 192. -/
def execStrandAged (s : State) : Host.Outcome State Fault Refusal :=
  let k := s.evHart
  let h := s.hartAt k
  .next (if s.canIssue k && h.age == 191 then s.setHart k { h with age := 192 } else s)

/-! ### Fetch (R19, R90, R241) -/

namespace State

/-- A strand waits for the bundle at its PC. -/
def wantsFetch (s : State) (k : Nat) : Bool :=
  let h := s.hartAt k
  k % 8 < 4 && h.occ && !h.halted && !h.buffered

/-- The cluster's cache holds the line of an address. -/
def cached (s : State) (cl asid a : Nat) : Bool :=
  (s.clusterAt cl).icache.any (fun l => l.1 == asid && l.2.1 == a / 64)

/-- The fetch request that a cluster's port serves next (R19): of the cores with a request for a line in the cache, in turn
from the pointer, the first; of its strands, the lowest (log 84). -/
def nextFetch (s : State) (cl : Nat) : Option Nat :=
  (upFrom 0 16).findSome? (fun i =>
    let c := 16 * cl + ((s.clusterAt cl).fetchRr + i) % 16
    (upFrom (8 * c) 4).find? (fun k => s.wantsFetch k && s.cached cl (s.hartAt k).asid (s.hartAt k).pc))

/-- Strands of a cluster that wait for a bundle of a block of `2 ^ w` bytes, in an address space. -/
def fetchers (s : State) (cl asid a w : Nat) : List Nat :=
  ((upFrom (16 * cl) 16).flatMap (fun c => upFrom (8 * c) 4)).filter (fun k =>
    s.wantsFetch k && (s.hartAt k).asid == asid && (s.hartAt k).pc / 2 ^ w == a / 2 ^ w)

/-- The launch's ranges grant a fetch (R241). -/
def mayFetch (s : State) (k : Nat) : Bool :=
  leaseCovers ((s.whoHart k).leases.getD []) false false true (s.hartAt k).pc 8

/-- Bundles from an address to the end of its 32-byte block, out of a line's bytes (R19, R43). -/
def bundlesFrom (pc : Nat) (line : List Nat) : List Fetched :=
  (upFrom 0 (4 - pc % 32 / 8)).map (fun i =>
    let o := pc % 64 + 8 * i
    { addr := pc + 8 * i, w0 := ofBytes ((line.drop o).take 4), w1 := ofBytes ((line.drop (o + 4)).take 4) })

/-- The cause of a failed fetch in the order of R127: an address outside the aperture, the lease, the rest. -/
def fetchCause (s : State) (k c : Nat) : Nat := if c = 0x03 ∨ s.mayFetch k then c else 0x05

/-- A failed fetch waits in the strand's buffer for its issue (R90). -/
def failFetch (s : State) (k cause : Nat) : State :=
  let h := s.hartAt k
  s.setHart k { h with fetch := [{ addr := h.pc, w0 := 0, w1 := 0, fault := some (cause, h.pc) }] }

/-- A block delivered to one strand. -/
def deliverBlock (s : State) (k : Nat) (line : List Nat) : State :=
  let h := s.hartAt k
  if s.mayFetch k then s.setHart k { h with fetch := bundlesFrom h.pc line } else s.failFetch k 0x05

/-- The agent that fills a line (R19, R90). -/
def whoFetch (_ : State) (cl asid : Nat) : Who :=
  { hart := 128 * cl, asid := asid, user := false, slot := none, flock := 0, leases := none, scratch := false }

/-- A line enters a cluster's instruction cache: 64 KiB of 64-byte lines; the oldest leaves a full one (log 11). -/
def fillLine (s : State) (cl asid a : Nat) (data : List Nat) : State :=
  let x := s.clusterAt cl
  let rest := x.icache.filter (fun l => !(l.1 == asid && l.2.1 == a / 64))
  let rest := if rest.length < 1024 then rest else rest.tail
  s.setCluster cl { x with icache := rest ++ [(asid, a / 64, data)] }

/-- A line read for a fetch: translation, X and poison, with no lease check; it comes after what goes ahead of it on its path
(R266). -/
def readLine (s : State) (cl asid a : Nat) : Act (State × List Nat) := do
  let (s, cs) ← s.check (s.whoFetch cl asid) .fetch (a / 64 * 64) 64 64
  if s.readHeld cs then .error .wait
  s.checkData cs a
  let l ← s.readChunks cs
  .ok (s, l)

end State

/-- FETCH_BLOCK_DELIVER (R19): the port of the cluster (`core`) serves the next request; every strand that waits for that
block in that address space receives it. -/
def execFetchBlockDeliver (s : State) : Host.Outcome State Fault Refusal :=
  let cl := s.ev.core
  .next (match s.nextFetch cl with
    | some k =>
      let a := (s.hartAt k).pc
      let asid := (s.hartAt k).asid
      (match (s.clusterAt cl).icache.find? (fun l => l.1 == asid && l.2.1 == a / 64) with
       | some (_, _, line) =>
         let t := (s.fetchers cl asid a 5).foldl (fun s k => s.deliverBlock k line) s
         t.setCluster cl { t.clusterAt cl with fetchRr := (k / 8 + 1) % 16 }
       | none => s)
    | none => s)

/-- ICACHE_MISS_FILL (R19): the line of the event (address space `val`, address `addr`), which a strand of the cluster waits
for, is filled from memory; a fetch that fails is kept for the strands that wait for the line. -/
def execIcacheMissFill (s : State) : Host.Outcome State Fault Refusal :=
  let cl := s.ev.core
  let waiting := s.fetchers cl s.ev.val s.ev.addr 6
  if waiting.isEmpty then .next s
  else
    let s := s.eccAddr (waiting.head?.bind s.slotOf) (128 * cl) s.ev.val (s.ev.addr / 64 * 64) 64
    match s.readLine cl s.ev.val s.ev.addr with
    | .ok (t, l) => .next (t.fillLine cl s.ev.val s.ev.addr l)
    | .error e =>
      match e.trapped s with
      | some (t, c, _) => .next (waiting.foldl (fun s k => s.failFetch k (s.fetchCause k c)) t)
      | none => finishEvent s (.error e)

/-! ### `herd` (R20) -/

namespace State

/-- The count of a word's `herd`; 0 for other words. -/
def herdOf (w : Nat) : Nat := if bits w 0 6 = 0 ∧ bits w 21 9 = 4 then bits w 11 10 else 0

/-- The count of the `herd` at a strand's PC: of the words that are to issue. Where both words of a lone bundle hold a count,
no rule says how they combine: the bundle waits for the greater (log 85). -/
def herdCount (s : State) (k : Nat) : Nat :=
  let h := s.hartAt k
  match h.fetch.find? (fun e => e.addr == h.pc) with
  | some e => max (if h.resumed1 then 0 else herdOf e.w0) (herdOf e.w1)
  | none => 0

/-- A strand released from its `herd`. -/
def herdGo (s : State) (k : Nat) : State := s.setHart k { s.hartAt k with herd := none, herdPassed := true }

/-- The occupied strands of a hart's flock. -/
def flockMates (s : State) (k : Nat) : List Nat :=
  match s.flockOf k with
  | some f => f.strands.filter (fun j => (s.hartAt j).occ)
  | none => [k]

end State

/-- HERD_RELEASE (R20): every occupied strand of the flock waits at a `herd` of one PC and ASID; all go on. -/
def execHerdRelease (s : State) : Host.Outcome State Fault Refusal :=
  let k := s.evHart
  let h := s.hartAt k
  let mates := s.flockMates k
  .next (if h.herd.isSome && mates.all (fun j =>
      (s.hartAt j).herd.isSome && (s.hartAt j).pc == h.pc && (s.hartAt j).asid == h.asid)
    then mates.foldl State.herdGo s else s)

/-- HERD_TIMEOUT (R20): n × 16 cycles have passed since the strand arrived. -/
def execHerdTimeout (s : State) : Host.Outcome State Fault Refusal :=
  let k := s.evHart
  .next (match (s.hartAt k).herd with
    | some t => if t + 16 * s.herdCount k ≤ s.cycle then s.herdGo k else s
    | none => s)

/-! ### Long results (R31) -/

/-- A load's address whose word, or whose packet, fails: 0x0E at its marker (R132, R395, R396). An older fault of the
instruction stands. -/
def LongRes.lose (r : LongRes) (a : Nat) : LongRes := { r with fault := r.fault.or (some (0x0E, a)) }

/-- What becomes of a load as its result comes back, by its `val`-th address, at the `addr`-th member's copy on a multicast
page: the outcome of the word's ECC (1 to 3, R395), or its packet lost on the way to or from another package (4, R396). -/
def State.returning (s : State) (k : Nat) (r : LongRes) : State × LongRes :=
  match r.src[s.ev.val]? with
  | none => (s, r)
  | some a =>
    match (s.accessPlaces k a)[s.ev.addr]? with
    | none => (s, r)
    | some p =>
      if s.ev.aux = 4 then (s, if s.remote p then r.lose a else r)
      else (s.eccEvent k p s.ev.aux, if s.ev.aux = 2 then r.lose a else r)

/-- LONG_RESULT_RETURN (R31): entry `idx` of the hart's return buffer comes back; at a parked marker the last one writes
them all, and a deferred fault is delivered. -/
def execLongResultReturn (s : State) : Host.Outcome State Fault Refusal :=
  let k := s.evHart
  match (s.hartAt k).longs[s.ev.idx]? with
  | some r =>
    if r.queued || r.returned then .next s
    else
      let (s, r) := if s.ev.aux = 0 then (s, r) else s.returning k r
      let h := s.hartAt k
      let longs := setNth h.longs s.ev.idx { r with returned := true }
      let t := s.setHart k { h with longs := longs }
      .next (if h.parked && longs.all (fun r => r.returned) then t.onHart k (fun u => u.marker u.wordAddr) else t)
  | none => .next s

/-! ### Arbitration (R110 to R115) -/

/-- A request of a port: its kind and port, the cycles it has waited, its first byte, and the banks it claims in each of its
cycles. -/
structure PortReq where
  idx : Nat
  kind : Nat
  port : Nat
  waited : Nat
  offset : Nat
  cycles : List Nat
deriving DecidableEq, Repr

/-- Requests in order of waiting time, the longest first: the oldest issue first. -/
def oldestFirst (l : List PortReq) : List PortReq := sortBy (fun a b => decide (b.waited ≤ a.waited)) l

/-- What the arbiter has done in a cycle: the banks claimed, the requests granted, and the banks of the further cycles of
accesses that go on. -/
structure Grants where
  claimed : Nat := 0
  got : List Nat := []
  next : List (List Nat) := []
deriving DecidableEq, Repr

/-- A claim of the first of its cycles, or none where a bank is claimed already. -/
def Grants.claim (g : Grants) (cycles : List Nat) : Option Grants :=
  match cycles with
  | [] => some g
  | m :: t => if g.claimed &&& m = 0 then
      some { g with claimed := g.claimed ||| m, next := if t.isEmpty then g.next else g.next ++ [t] } else none

/-- Accesses granted in an earlier cycle go on first; one whose banks another has claimed waits (R111). -/
def Grants.goOn (g : Grants) (busy : List (List Nat)) : Grants :=
  busy.foldl (fun g c => (g.claim c).getD { g with next := g.next ++ [c] }) g

/-- Grants in the order of a list, up to a limit. -/
def Grants.upTo : Nat → List PortReq → Grants → Grants
  | 0, _, g => g
  | _, [], g => g
  | n + 1, q :: t, g =>
    if g.got.contains q.idx then Grants.upTo (n + 1) t g
    else
      match g.claim q.cycles with
      | some r => Grants.upTo n t { r with got := r.got ++ [q.idx] }
      | none => Grants.upTo (n + 1) t g

/-- The bank of a byte of local memory (R110). -/
def localBank (x : Nat) : Nat := x / 8 % 64

/-- The banks that an access claims in each of its cycles (R110): a bank serves one 8-byte word in a cycle, so that cycle
`j` claims the banks in which it touches more than `j` distinct words. -/
def bankCycles (bytes : List Nat) : List Nat :=
  let words := (bytes.map (fun x => x / 8)).eraseDups
  let load := (upFrom 0 64).map (fun b => (words.filter (fun w => w % 64 == b)).length)
  (upFrom 0 (load.foldl max 0)).map (fun j =>
    ((upFrom 0 64).filter (fun b => decide (j < nth load b))).foldl (fun m b => m + 2 ^ b) 0)

/-- Every bank of local memory. -/
def allBanks : Nat := 2 ^ 64 - 1

/-- Requests to a core's local memory: kind (0 a strand access, 1 the matrix port, 2 the drover, 3 a `tldx` that meets
R12), cycles waited, how many offsets follow, and the offsets it touches. The matrix port and such a `tldx` claim every bank
for one cycle (R111). -/
def localReqs : Nat → Nat → List Nat → List PortReq
  | 0, _, _ => []
  | fuel + 1, i, k :: w :: n :: t =>
    { idx := i, kind := k, port := 0, waited := w, offset := nth t 0,
      cycles := if k = 1 ∨ k = 3 then [allBanks] else bankCycles (t.take n) } :: localReqs fuel (i + 1) (t.drop n)
  | _ + 1, _, _ => []

/-- The grants of one cycle of local memory (R111): accesses that go on, requests that have waited 16 cycles, the matrix
port, two strand accesses, one drover access. -/
def localGrants (busy : List (List Nat)) (l : List PortReq) : Grants :=
  let g := ({} : Grants).goOn busy
  let g := Grants.upTo l.length (oldestFirst (l.filter (fun q => decide (16 ≤ q.waited)))) g
  let g := Grants.upTo l.length (l.filter (fun q => q.kind == 1)) g
  let g := Grants.upTo 2 (oldestFirst (l.filter (fun q => q.kind == 0 || q.kind == 3))) g
  Grants.upTo 1 (oldestFirst (l.filter (fun q => q.kind == 2))) g

/-- LOCAL_MEM_ARBITRATION (R111): the requests of the event are granted for one cycle. The word at local offset `addr` that
hart `val` reads meets an ECC outcome, `aux` (R114, R395). -/
def execLocalMemArbitration (s : State) : Host.Outcome State Fault Refusal :=
  let c := s.coreAt s.ev.core
  let g := localGrants c.portBusy (localReqs s.ev.list.length 0 s.ev.list)
  .next ((s.setCore s.ev.core { c with portBusy := g.next, portGrants := g.got }).eccEvent s.ev.val
    (placeLocal s.ev.core (s.ev.addr % 2 ^ 19)) s.ev.aux)

/-- The data bank and the bank row of a byte of a cluster scratchpad (R112). -/
def spadBank (x : Nat) : Nat := x / 16 % 32
def spadRow (x : Nat) : Nat := x / 512

/-- Byte `i` of a bank row, and of a parity bank's row: the XOR of the rows of its group's data banks (R112). -/
def State.bankByte (s : State) (cl b row i : Nat) : Nat := s.byteAt (placeCluster cl (512 * row + 16 * b + i))
def State.parityByte (s : State) (cl g row i : Nat) : Nat :=
  (upFrom (8 * g) 8).foldl (fun x b => x ^^^ s.bankByte cl b row i) 0

/-- Byte `i` of a bank row rebuilt from the other data banks of its group and the parity bank (R114). -/
def State.rebuiltByte (s : State) (cl b row i : Nat) : Nat :=
  ((upFrom (b / 8 * 8) 8).filter (fun c => c ≠ b)).foldl (fun x c => x ^^^ s.bankByte cl c row i)
    (s.parityByte cl (b / 8) row i)

/-- Requests to a cluster scratchpad, four fields each: kind (0 a read, 1 a write, 2 a write of a whole group row), port (a
core of the cluster, with 32 for its drover; 16 the die port), cycles waited and offset. -/
def spadReqs : Nat → Nat → List Nat → List PortReq
  | 0, _, _ => []
  | fuel + 1, i, k :: p :: w :: x :: t =>
    { idx := i, kind := k, port := p, waited := w, offset := x, cycles := [] } :: spadReqs fuel (i + 1) t
  | _ + 1, _, _ => []

/-- The claim of a cluster scratchpad access (R114): the banks of its cycles, data banks at bits 0 to 31 and parity banks at
32 to 35; none where it waits. `reads` are the banks that reads have claimed. -/
def spadClaim (claimed reads : Nat) (q : PortReq) : Option (List Nat) :=
  let b := spadBank q.offset
  let row := 255 * 2 ^ (8 * (b / 8))
  let parity := 2 ^ (32 + b / 8)
  let ok := fun (l : List Nat) => if claimed &&& nth l 0 = 0 then some l else none
  if q.kind = 0 then
    (if claimed &&& 2 ^ b = 0 then some [2 ^ b]
     else if reads &&& 2 ^ b = 0 then none
     else ok [(row ^^^ 2 ^ b) + parity])
  else if q.kind = 1 then ok [2 ^ b + parity, parity]
  else ok [row + parity]

/-- The grants of one cycle of a cluster scratchpad in the order of a list, with the banks that reads have claimed. -/
def spadGrant : Nat → List PortReq → Grants × Nat → Grants × Nat
  | 0, _, r => r
  | _, [], r => r
  | n + 1, q :: t, (g, reads) =>
    if g.got.contains q.idx then spadGrant (n + 1) t (g, reads)
    else
      match (spadClaim g.claimed reads q).bind (fun l => (g.claim l).map (fun r => (l, r))) with
      | some (l, r) =>
        spadGrant n t ({ r with got := r.got ++ [q.idx] }, if q.kind = 0 then reads ||| nth l 0 else reads)
      | none => spadGrant (n + 1) t (g, reads)

/-- The request that a core presents, in the order of R111: one that has waited 16 cycles or more, the oldest first; else its
strands', the oldest issue first; else its drover's. -/
def presented (l : List PortReq) (core : Nat) : List PortReq :=
  let own := l.filter (fun q => q.port == core || q.port == core + 32)
  (oldestFirst (own.filter (fun q => decide (16 ≤ q.waited))) ++ oldestFirst (own.filter (fun q => q.port == core)) ++
    oldestFirst (own.filter (fun q => q.port == core + 32))).take 1

/-- The grants of one cycle of a cluster scratchpad (R113): parity second cycles, requests that have waited 8 cycles, one
request of each core in turn from `rr`, four of the die port. A core has one request before the arbiter in a cycle. -/
def spadGrants (busy : List (List Nat)) (rr : Nat) (l : List PortReq) : Grants :=
  let r := (({} : Grants).goOn busy, 0)
  let before := (upFrom 0 16).flatMap (presented l) ++ l.filter (fun q => q.port == 16)
  let r := spadGrant l.length (oldestFirst (before.filter (fun q => decide (8 ≤ q.waited)))) r
  let r := ((upFrom 0 16).map (fun i => (rr + i) % 16)).foldl (fun r p => spadGrant 1 (presented l p) r) r
  (spadGrant 4 (oldestFirst (l.filter (fun q => q.port == 16))) r).1

/-- CLUSTER_SPAD_ARBITRATION (R113): the requests of the event are granted for one cycle. The word at offset `addr` that
hart `val` reads meets an ECC outcome, `aux` (R114, R395). -/
def execClusterSpadArbitration (s : State) : Host.Outcome State Fault Refusal :=
  let x := s.clusterAt s.ev.core
  let g := spadGrants x.portBusy x.rr (spadReqs s.ev.list.length 0 s.ev.list)
  .next ((s.setCluster s.ev.core { x with portBusy := g.next, portGrants := g.got, rr := (x.rr + 1) % 16 }).eccEvent
    s.ev.val (placeCluster s.ev.core (s.ev.addr % 2 ^ 23)) s.ev.aux)

/-- DIE_SPAD_SLICE_GRANT (R115): each slice of the die grants 64 bytes to its oldest request. The word at offset `addr` that
hart `val` reads meets an ECC outcome, `aux` (R395). -/
def execDieSpadSliceGrant (s : State) : Host.Outcome State Fault Refusal :=
  let l := oldestFirst (spadReqs s.ev.list.length 0 s.ev.list)
  let slice := fun (q : PortReq) => q.offset / 256 % 48
  let got := l.foldl (fun (g : List (Nat × Nat)) q =>
    if g.any (fun e => e.1 == slice q) then g else g ++ [(slice q, q.idx)]) []
  .next (({ s with hub := { s.hub with dieGrants := got.map (fun e => (48 * s.ev.core + e.1, e.2)) } } : State).eccEvent
    s.ev.val (placeDie s.ev.core (s.ev.addr % 2 ^ 27)) s.ev.aux)

end Sys2Proof.Machine
end

