-- ==== Sys2Proof/Machine/Drover.lean ====
section
/-!
DEFINITION. Instructions of the drover and of the stream registers (R116 to R126, R147 to R158); `join` stands with the
other suspension points.
-/

namespace Sys2Proof.Machine

/-! ### Moves (R148 to R152) -/

/-- The sequence number after one (R117). -/
def nextSeqAfter (n : Nat) : Nat := if n = 0xFFFFFFFF then 1 else n + 1

namespace State

/-- A move enters the drover's queue; its ticket comes at the marker (R116, R117, R148). It comes after every earlier
access of the hart (R149). An active move keeps its entry until it completes (log 79). -/
def queueMove (s : State) (d : Nat) (kind : MoveKind) (desc : List Nat) (descAddr : Nat) (idx : List Nat) : Act State := do
  let s ← s.settleAccesses s.hart
  let c := s.myCore
  if 16 ≤ c.moves.length then .error .wait
  else
    let h := s.me
    let m : Move :=
      { seq := c.nextSeq, kind := kind, hart := s.hart, desc := desc, descAddr := descAddr, idx := idx,
        launch := h.slot, flock := h.flock, asid := h.asid, pc := h.pc, owner := .hart s.hart, since := s.cycle }
    let s := s.setCore s.coreNo { c with moves := c.moves ++ [m], nextSeq := nextSeqAfter c.nextSeq }
    .ok (s.longS d (s.coreNo * 2 ^ 32 + c.nextSeq))

/-- A move instruction with the descriptor at s[a]: refused in collecting mode, held by a poisoned release, else queued;
a fault of the queueing itself is delivered at the marker (R387). -/
def moveOp (s : State) (k : State → Act State) : Act State := do
  s.refuseCollecting
  if s.me.releaseHeld ≠ 0 then .ok (s.long [])
  else deferring (k s)

/-- A move's descriptor, read once at issue (R121, R150). One that cannot be read also poisons the strand, at the scope of
the descriptor's address (R274). -/
def withDescriptor (s : State) (addr n : Nat) (r : Act (State × List Nat)) (k : State → List Nat → Act State) :
    Act State :=
  match r with
  | .ok (t, l) => k t (splitLanes 64 (n / 8) (ofBytes l))
  | .error e =>
    match e.trapped s with
    | some (t, c, v) => .ok ((t.poisonStrand t.hart (t.scopeOf t.whoMe addr)).deferFault c v)
    | none => .error e

/-- `tmov` and `tmovp`: the descriptor read once (R121). -/
def tileMove (s : State) (d a : Nat) (plane : Bool) : Act State := s.moveOp (fun s => do
  let s ← s.inOrder s.hart
  let addr := s.rs a
  s.withDescriptor addr 32 (s.readBytes s.whoMe .read addr 32 8) (fun s w =>
    s.queueMove d (.tile plane) w addr []))

/-- `bgath`: the descriptor, and with IVM the index vector, read at issue (R150). No rule names the fault of a descriptor
outside aperture 0xF0: address not mapped is the model's choice (log 78). -/
def gatherMove (s : State) (d a : Nat) : Act State := s.moveOp (fun s => do
  let s ← s.inOrder s.hart
  let addr := s.rs a
  let r := if addr % 64 = 0 ∧ addr / 2 ^ 56 ≠ 0xF0 then .error (.trap 0x03 addr) else s.readBytes s.whoMe .read addr 64 64
  s.withDescriptor addr 64 r (fun s w =>
    let idx := if bit (nth w 2) 43 then (lanes 32 (s.rv (bits (nth w 2) 38 5))).take (bits (nth w 2) 32 6) else []
    s.queueMove d .gather w addr idx))

/-- `pgin`: the page's address must lie in a range of the launch (R152). -/
def pageInMove (s : State) (d a : Nat) : Act State := s.moveOp (fun s =>
  let addr := s.rs a
  if !((s.whoMe.leases.getD []).any (fun e => e.r && decide (e.base ≤ addr ∧ addr < e.base + e.size))) then
    .error (.trap 0x05 addr)
  else s.queueMove d (.pageIn addr) [] addr [])

end State

/-- `tmov` (R148). -/
def execTmov (d a : Nat) (s : State) : Host.Outcome State Fault Refusal := finish s (s.tileMove d a false)

/-- `tmovp` (R148). -/
def execTmovp (d a : Nat) (s : State) : Host.Outcome State Fault Refusal := finish s (s.tileMove d a true)

/-- `bgath` (R150). -/
def execBgath (d a : Nat) (s : State) : Host.Outcome State Fault Refusal := finish s (s.gatherMove d a)

/-- `pgin` (R152). -/
def execPgin (d a : Nat) (s : State) : Host.Outcome State Fault Refusal := finish s (s.pageInMove d a)

/-! ### Drover programs and tickets (R153 to R156) -/

namespace State

/-- The drover program starts: s1 holds the argument, every other register is zero (R122). -/
def startDrover (s : State) (start arg : Nat) : State :=
  let h := s.me
  let p : Hart :=
    { occ := true, pc := start, s := Store.set 0 [] 1 (BitVec.ofNat 64 arg), dirty := allDirty, asid := h.asid, slot := h.slot,
      flock := h.flock }
  let s := s.setHart (8 * s.coreNo + 4) p
  s.setCore s.coreNo { s.myCore with droverOwner := h.slot.map (fun n => (n, h.flock)) }

/-- `fork` (R154): a store-release at .co of the program's start; held by a poisoned fence, it does not perform (R275). -/
def forkOp (s : State) (start arg : Nat) : Act State := do
  s.refuseCollecting
  if start % 8 ≠ 0 then .error (.trap 0x04 start)
  else if start < 0xA000 ∨ 0x7FFF8 < start then .error (.trap 0x03 start)
  else if (s.hartAt (8 * s.coreNo + 4)).occ then .error .wait
  else if s.me.releaseHeld ≠ 0 then .ok s
  else s.releasing true 1 (fun u => u.deferExtra 0x0F 0) (fun u => .ok (u.startDrover start arg))

/-- The fault status of a move of the issuing core (R153): where flocks of the core have moves of one number, that of the
issuing hart's own (log 89). -/
def moveFaultOf (s : State) (seq : Nat) : Option MoveFault :=
  let l := s.myCore.moveFaults.filter (fun f => f.seq == seq)
  match l.find? (fun f => f.launch == s.me.slot && f.flock == s.me.flock) with
  | some f => some f
  | none => l.head?

/-- The fault status of a move taken away: later `twait`s return at once (R153). -/
def takeMoveFault (s : State) (f : MoveFault) : State :=
  s.setCore s.coreNo { s.myCore with moveFaults := s.myCore.moveFaults.erase f }

/-- A deferred fault of the window comes before a precise one (R384). -/
def faultOutstanding (s : State) : Bool :=
  match s.settle s.hart with
  | .ok u => (oldestFault u.me.longs).isSome
  | .error _ => false

end State

/-- `fork` (R154). -/
def execFork (a b : Nat) (s : State) : Host.Outcome State Fault Refusal := finish s (s.forkOp (s.rs a) (s.rs b))

/-- `twait` (R153): it waits until the move is complete, and takes the fault of a faulted move precisely. -/
def execTwait (a : Nat) (s : State) : Host.Outcome State Fault Refusal :=
  let t := s.rs a
  let seq := t % 2 ^ 32
  if t / 2 ^ 43 ≠ 0 ∨ bits t 32 11 ≠ s.coreNo ∨ seq = 0 then finish s (.error (.trap 0x08 t))
  else if s.myCore.moves.any (fun m => m.seq == seq) then finish s (.error .wait)
  else
    match s.moveFaultOf seq with
    | some f =>
      let u := if s.faultOutstanding then s else s.takeMoveFault f
      finish u (.error (.trapRecorded f.cause f.tval))
    | none => .next s

/-- `dcons` (R156): the core's operands-consumed count. -/
def execDcons (d : Nat) (s : State) : Host.Outcome State Fault Refusal := .next (s.longS d s.myCore.consumed)

/-! ### Streams (R125, R126, R157, R158) -/

/-- A stream descriptor keeps R125: linear, ORD 0, no destination, rows of 1 to 128 bytes. -/
def streamOk (w : List Nat) : Bool :=
  nth w 1 == 0 && decide (1 ≤ bits (nth w 2) 0 16) &&
    decide (1 ≤ bits (nth w 2) 16 16 ∧ bits (nth w 2) 16 16 ≤ 128) && nth w 3 / 2 ^ 32 == 0

namespace State

/-- A stream register of the issuing strand. -/
def streamAt (s : State) (q : Nat) : Stream := Store.get {} s.me.q q

/-- A stream register replaced. -/
def setStream (s : State) (q : Nat) (x : Stream) : State := s.setMe { s.me with q := Store.set {} s.me.q q x }

/-- `qbind` (R157): the descriptor is read and checked at issue. A stream that is bound is not bound again; nor is one that
is drained, for which R126's table has no row (log 80). Held by a poisoned `fence.ar`, its read does not perform (R275). -/
def bindStream (s : State) (q addr : Nat) : Act State :=
  if (s.streamAt q).state ≠ 0 then .error (.trapFree 0x01)
  else if s.me.releaseHeld = 2 then .ok s
  else do
    let s ← s.inOrder s.hart
    let (s, l) ← s.readBytes s.whoMe .read addr 32 8
    let w := splitLanes 64 4 (ofBytes l)
    if streamOk w then
      let x : Stream :=
        { state := 1, src := nth w 0, rows := bits (nth w 2) 0 16, rbytes := bits (nth w 2) 16 16,
          stride := bits (nth w 2) 32 32, pc := s.me.pc, asid := s.me.asid, user := !s.me.sup }
      .ok (s.setStream q x)
    else .error (.trap 0x01 addr)

/-- A pop (R126): the next element's bytes, zero beyond RBYTES. -/
def popStream (s : State) (q : Nat) : Act (State × List Nat) :=
  let x := s.streamAt q
  if x.state = 0 then .error (.trapFree 0x01)
  else if x.state = 2 then .error (.trapFree 0x08)
  else
    match x.elems with
    | [] => .error .wait
    | (_, some (c, v)) :: _ => .error (.trapRecorded c v)
    | (l, none) :: t =>
      let n := x.popped + 1
      .ok (s.setStream q { x with elems := t, popped := n, state := if n = x.rows then 2 else 1 }, l)

end State

/-- `qbind` (R157). -/
def execQbind (d a : Nat) (s : State) : Host.Outcome State Fault Refusal := finish s (s.bindStream d (s.rs a))

/-- `qunbind` (R126): unpopped elements are discarded. -/
def execQunbind (d : Nat) (s : State) : Host.Outcome State Fault Refusal :=
  finish s (if (s.streamAt d).state = 0 then .error (.trapFree 0x01) else .ok (s.setStream d {}))

/-- `vpop` (R125): short; the element's bytes from byte 0 of the register up. -/
def execVpop (d a : Nat) (s : State) : Host.Outcome State Fault Refusal :=
  finish s (do
    let (s, l) ← s.popStream a
    .ok (s.setMe (s.me.applyWrite (.v d (BitVec.ofNat 1024 (ofBytes l))))))

/-- `spop` (R125): short; bytes 0 to 7. -/
def execSpop (d a : Nat) (s : State) : Host.Outcome State Fault Refusal :=
  finish s (do
    let (s, l) ← s.popStream a
    .ok (s.shortS d (ofBytes (l.take 8))))

/-- The word `qstat` returns (R158). -/
def streamStatus (x : Stream) : Nat :=
  let flt := match x.elems with
    | (_, some _) :: _ => true
    | _ => false
  x.popped * 2 ^ 16 + bool1 flt * 2 ^ 9 + bool1 (x.state == 2) * 2 ^ 8 +
    (x.elems.filter (fun e => e.2.isNone)).length

/-- `qstat` (R158). -/
def execQstat (d a : Nat) (s : State) : Host.Outcome State Fault Refusal :=
  let x := s.streamAt a
  finish s (if x.state = 0 then .error (.trapFree 0x01) else .ok (s.longS d (streamStatus x)))

end Sys2Proof.Machine
end

