-- ==== Sys2Proof/Machine/Effect.lean ====
section
/-!
DEFINITION. Effect-list instructions (R300 to R310, R334 to R343, R272, R273).
-/

namespace Sys2Proof.Machine

/-! ### Frames (R334, R338, R339) -/

/-- A list capacity is in range (R334). -/
def capacityOk (n : Nat) : Bool := decide (1 ≤ n ∧ n ≤ 2 ^ 32 - 1)

namespace State

/-- The launch has an arena with a free block; else 0x09 (R334). -/
def blockFree (s : State) : Act State :=
  match s.arena with
  | none => .error (.trap 0x09 (2 ^ 63))
  | some (b, _) => do
    let (s, head) ← s.lread b 8
    if head = 0 then .error (.trap 0x09 (2 ^ 63)) else .ok s

/-- The frame of `callc` (R334). -/
def callFrame (s : State) (d : Nat) : Act State := do
  let s ← s.blockFree
  let cap := s.me.ecapdef.toNat
  if !capacityOk cap then .error (.trap 0x08 cap)
  else do
    let (s, _) ← s.openFrame cap s.me.ectx.toNat 0 d s.nextBundle s.me.vt.toNat
    .ok s

/-- The base operand of `ecollect` (R339): none, the current list, or a closed list. -/
def baseOperand (s : State) (h : Nat) : Act State :=
  if h = 0 then .ok s
  else do
    let (s, x) ← s.openHandle h
    if x.opened ∧ h ≠ s.me.ectx.toNat then .error (.trap 0x08 h) else .ok s

/-- The frame of `ecollect` (R339), and its handle; HD is d, as `callc` sets it (R334). -/
def collectFrame (s : State) (d cap base : Nat) : Act (State × Nat) := do
  if !capacityOk cap then .error (.trap 0x08 cap) else .ok ()
  let s ← s.baseOperand base
  let s ← s.blockFree
  s.openFrame cap base 1 d 0 s.me.vt.toNat

end State

/-- The handle of a list. -/
def ListHead.handle (h : ListHead) : Nat := h.addr + h.gen

/-- `callc` (R334): a taken transfer in collecting mode. -/
def execCallc (d : Nat) (o : Int) (s : State) : Host.Outcome State Fault Refusal :=
  finish s (do
    let s' ← s.callFrame d
    s'.transferTo (s.target o) false)

/-- `ecollect` (R339). -/
def execEcollect (d a b : Nat) (s : State) : Host.Outcome State Fault Refusal :=
  finish s (do
    let (s', h) ← s.collectFrame d (s.rs a) (s.rs b)
    .ok (s'.longS d h))

/-- `eclose` (R338). -/
def execEclose (d : Nat) (s : State) : Host.Outcome State Fault Refusal :=
  finish s (do
    let (s, h) ← s.frameOfKind 1
    let s ← s.closeFrame h h.outer
    .ok (s.longS d h.handle))

/-- `cret` (R338): the handle goes to the register `callc` named; a taken transfer to its return address. -/
def execCret (s : State) : Host.Outcome State Fault Refusal :=
  finish s (do
    let (s, h) ← s.frameOfKind 0
    let s ← s.closeFrame h h.outer
    .ok ((s.longS h.hd h.handle).transfer h.ret))

/-! ### Lists as values (R337, R340) -/

/-- Arena exhaustion of a list operation is delivered at the marker (R319, R340). -/
def exhaustLate {α : Type} (r : Act α) : Act α :=
  match r with
  | .error (.trap c v) => if c = 0x09 ∧ v = 2 ^ 63 then .error (.late c v) else .error (.trap c v)
  | r => r

namespace State

/-- A closed list with its entries; none for the null handle. -/
def listOperand (s : State) (h : Nat) : Act (State × Option (ListHead × List Entry)) :=
  if h = 0 then .ok (s, none)
  else do
    let (s, x) ← s.closedList h
    let (s, es) ← s.entriesOf x
    .ok (s, some (x, es))

/-- `ecat` (R340): the handle of the new list. -/
def catLists (s : State) (a b : Nat) : Act (State × Nat) := do
  if a = b ∧ a ≠ 0 then .error (.trap 0x08 a) else .ok ()
  let (s, x) ← s.listOperand a
  let (s, y) ← s.listOperand b
  match x, y with
  | none, none => .ok (s, 0)
  | some (h, es), none => do
    let (s, n) ← exhaustLate (s.newList h.cap h.base h.ts es)
    let s ← s.freeList h
    .ok (s, n)
  | none, some (h, es) => do
    let (s, n) ← exhaustLate (s.newList h.cap h.base h.ts es)
    let s ← s.freeList h
    .ok (s, n)
  | some (h, es), some (k, fs) => do
    let (s, n) ← exhaustLate (s.newList (min (h.cap + k.cap) (2 ^ 32 - 1)) h.base h.ts (es ++ fs))
    let s ← s.freeList h
    let s ← s.freeList k
    .ok (s, n)

end State

/-! ### Ranges (R340) -/

/-- The bytes an aperture ranges over; none for an aperture without effect addresses. -/
def apertureSize (sel : Nat) : Option Nat :=
  if sel = 0 then some (2 ^ 55)
  else if sel = 0xF0 then some (2 ^ 19)
  else if sel = 0xF1 then some (2 ^ 23)
  else if sel = 0xF2 then some 0x6000000
  else if sel = 0xF4 then some (1536 * 2 ^ 19)
  else if sel = 0xF5 then some (96 * 2 ^ 23)
  else if sel = 0xF6 then some (4 * 2 ^ 27)
  else none

/-- The first effect address of an aperture. -/
def apertureBase (sel : Nat) : Nat := if sel = 0 then 0 else 2 ^ 55 + (sel - 0xF0) * 2 ^ 52

/-- A range pair as effect addresses (R340): one aperture, the end of its range allowed as the upper bound. -/
def effectRange (lo hi : Nat) : Option (Nat × Nat) :=
  let sel := lo / 2 ^ 56
  let x := lo % 2 ^ 56
  let y := hi % 2 ^ 56
  match apertureSize sel with
  | none => none
  | some n =>
    if hi / 2 ^ 56 = sel ∧ x < n ∧ y ≤ n ∧ x ≤ y then some (apertureBase sel + x, apertureBase sel + y) else none

/-- The aperture of an effect address. -/
def apertureOf (e : Nat) : Nat := if bit e 55 then 0xF0 + bits e 52 3 else 0

/-- The bytes an entry writes or reduces, by effect address: those its mask sets, or all of its target. -/
def Entry.touched (e : Entry) : List Nat :=
  if e.kind = 2 then upFrom e.addr e.size else e.written.map (·.1)

/-- An entry cut to the bytes of a set (R340): a STORE cut by a bound becomes a LINE. -/
def cutEntry (inside : Nat → Bool) (e : Entry) : List Entry :=
  if e.kind = 0 ∨ e.kind = 1 then
    let keep := e.written.filter (fun p => inside p.1)
    if keep.isEmpty then []
    else if keep.length = e.written.length then [e]
    else [lineEntry (e.addr / 64 * 64) keep]
  else if e.kind = 2 then (if inside e.addr then [e] else [])
  else []

/-- The entries `efilt` keeps (R340). -/
def filterIn (lo hi : Nat) (es : List Entry) : List Entry :=
  es.flatMap (cutEntry (fun x => decide (lo ≤ x ∧ x < hi)))

/-- The entries `efiltx` keeps: the complement, with every SENT and RECV (R340). -/
def filterOut (lo hi : Nat) (es : List Entry) : List Entry :=
  es.flatMap (fun e => if 3 ≤ e.kind then [e] else cutEntry (fun x => !decide (lo ≤ x ∧ x < hi)) e)

namespace State

/-- A range pair operand: 0x08 with the first register (R340). -/
def rangeOperand (s : State) (b : Nat) : Act (Nat × Nat) :=
  match effectRange (s.rs b) (s.rs (b + 1)) with
  | some r => .ok r
  | none => .error (.trap 0x08 (s.rs b))

/-- `efilt` and `efiltx` (R340): the handle of the new list. -/
def filterList (s : State) (a b : Nat) (g : Nat → Nat → List Entry → List Entry) : Act (State × Nat) := do
  let (s', x) ← s.listOperand (s.rs a)
  match x with
  | none => .ok (s', 0)
  | some (h, es) => do
    let (lo, hi) ← s.rangeOperand b
    exhaustLate (s'.newList h.cap h.base h.ts (g lo hi es))

end State

/-- `ecat` (R340). -/
def execEcat (d a b : Nat) (s : State) : Host.Outcome State Fault Refusal :=
  finish s (do
    let (s', h) ← s.catLists (s.rs a) (s.rs b)
    .ok (s'.longS d h))

/-- `efilt` (R340). -/
def execEfilt (d a b : Nat) (s : State) : Host.Outcome State Fault Refusal :=
  finish s (do
    let (s', h) ← s.filterList a b filterIn
    .ok (s'.longS d h))

/-- `efiltx` (R340). -/
def execEfiltx (d a b : Nat) (s : State) : Host.Outcome State Fault Refusal :=
  finish s (do
    let (s', h) ← s.filterList a b filterOut
    .ok (s'.longS d h))

/-! ### `erebase` (R340) -/

/-- An entry's new address, or the fault of moving it (R340). -/
def movedAddr (lo hi delta : Nat) (e : Entry) : Act Nat :=
  let t := e.touched
  let inside := fun x => decide (lo ≤ x ∧ x < hi)
  if 3 ≤ e.kind ∨ !t.any inside then .ok e.addr
  else if !t.all inside then .error (.trap 0x08 e.addr)
  else if delta % (if e.kind = 1 then 64 else e.size) ≠ 0 then .error (.trap 0x04 delta)
  else
    let base := apertureBase (apertureOf e.addr)
    let low : Int := ((e.addr - base : Nat) : Int) + toSigned 64 delta
    if low < 0 ∨ ((apertureSize (apertureOf e.addr)).getD 0 : Int) ≤ low then .error (.trapFree 0x08)
    else .ok (base + low.toNat)

/-- Every entry's word 0 after the move; the first fault of an entry (R340: all or nothing). -/
def movedEntries (lo hi delta : Nat) : List Entry → Act (List Entry)
  | [] => .ok []
  | e :: t => do
    let a ← movedAddr lo hi delta e
    let r ← movedEntries lo hi delta t
    let e' : Entry := { e with words := setNth e.words 0 (e.w0 / 2 ^ 56 * 2 ^ 56 + a) }
    .ok ((if 3 ≤ e.kind then e else e') :: r)

namespace State

/-- Word 0 of each entry written back. -/
def rewriteEntries (s : State) : List Entry → Act State
  | [] => .ok s
  | e :: t => do
    let s ← s.lwrite e.at_ 8 e.w0
    s.rewriteEntries t

/-- `erebase` (R340): the list's own filter is rebuilt. -/
def rebaseList (s : State) (a b d : Nat) : Act State := do
  let h := s.rs a
  if h = 0 then .error (.trap 0x08 h) else .ok ()
  let (s', x) ← s.closedList h
  let (s', es) ← s'.entriesOf x
  let (lo, hi) ← s.rangeOperand b
  let es ← movedEntries lo hi (s.rs d) es
  let s' ← s'.rewriteEntries es
  let s' ← s'.lwrite (x.addr + 0x80) 512 0
  s'.setFilter x (es.flatMap entryLines)

end State

/-- `erebase` (R340). -/
def execErebase (d a b : Nat) (s : State) : Host.Outcome State Fault Refusal := finish s (s.rebaseList a b d)

/-! ### `eapply` (R272, R273, R341) -/

/-- The entry has a form that `eapply` takes (R341). -/
def entryOk (e : Entry) : Bool :=
  decide (e.kind ≤ 4) && !bit e.w0 63 && !(bit e.addr 55 && (bits e.addr 52 3 == 3 || bits e.addr 52 3 == 7)) &&
    !(e.kind == 2 && decide (3 < e.sub))

/-- The operation of a REDUCE (R306). -/
def reduceOp (sub : Nat) : Nat := nth [0, 9, 4, 5] sub

/-- The PROGRESS word of an apply that has reached an index (R391). -/
def applyProgress (i : Nat) : Nat := 2 * 2 ^ 60 + i % 2 ^ 60

/-- The distinct lines a list writes (R273). -/
def linesWritten (es : List Entry) : Nat :=
  (es.filter (fun e => decide (e.kind ≤ 2))).foldl (fun (l : List Nat) e =>
    if l.contains (e.addr / 64) then l else (e.addr / 64) :: l) [] |>.length

namespace State

/-- The checks of one entry under R127: its pieces; the TVAL is the effect address (R341). -/
def checkEntry (s : State) (e : Entry) : Act (State × List Chunk) :=
  if !entryOk e then .error (.trap 0x08 e.at_)
  else if 3 ≤ e.kind then .ok (s, [])
  else
    match s.check s.whoMe (if e.kind = 2 then .red else .vstore) (genericAddr e.addr) e.size e.size with
    | .error (.trap c _) => .error (.trap c e.addr)
    | r => r

/-- One entry applied (R272): a STORE or LINE as one store, whose mask leaves bytes out, a REDUCE as a `red`; they carry the
entry's index (R391). `now` performs it at once. -/
def applyEntry (s : State) (now : Bool) (i : Nat) (e : Entry) : Act State := do
  let s ← s.inOrder s.hart
  let (s, cs) ← s.checkEntry e
  match cs with
  | [] => .ok s
  | c :: _ =>
    let a := genericAddr e.addr
    let data := (upFrom e.addr e.size).map (fun x => (e.written.find? (fun p => p.1 == x)).map (·.2))
    let s ← if e.kind = 2 then do
        let s ← s.ownFirst s.hart cs
        s.sendAtomic { atomicArgs 0 (reduceOp e.sub) e.size 0 [e.w1] with
          place := c.place, va := a, progress := applyProgress i }
      else s.issueBytes s.hart a (applyProgress i) none cs data
    if now then s.settleAccesses s.hart else .ok s

/-- Entries applied from index `i` on: the state, the index reached, and what stopped it (R341). -/
def applyEntries (s : State) (now : Bool) : Nat → List Entry → State × Nat × Option Stop
  | i, [] => (s, i, none)
  | i, e :: t =>
    match s.applyEntry now i e with
    | .error x => (s, i, some x)
    | .ok s => s.applyEntries now (i + 1) t

/-- Every entry checked before the first is applied (R273, R341). -/
def checkEntries (s : State) : List Entry → Act State
  | [] => .ok s
  | e :: t => do
    let (s, _) ← s.checkEntry e
    s.checkEntries t

end State

/-- A stop of an apply carries the progress index (R391). -/
def atProgress (i : Nat) : Stop → Stop
  | .trap c v => .trapAt c v (applyProgress i)
  | x => x

namespace State

/-- The progress index of a list written. -/
def setProgress (s : State) (h : ListHead) (i : Nat) : Act State := s.lwrite (h.addr + 0x28) 8 i

/-- A list applied from its progress index (R341): the state, and what stopped it. -/
def applyList (s : State) (h : ListHead) (es : List Entry) : Act (State × Option Stop) := do
  let s ← s.inOrder s.hart
  let (s, i, stop) := s.applyEntries false h.progress (es.drop h.progress)
  let s ← s.setProgress h i
  .ok (s, stop.map (atProgress i))

/-- An apply with iso (R273): checked as a whole, then performed in one step. -/
def applyIso (s : State) (h : ListHead) (es : List Entry) : Act State := do
  let n := linesWritten es
  if 64 < n then .error (.trap 0x09 n) else .ok ()
  let rest := es.drop h.progress
  let s ← (match s.checkEntries es with
    | .error x => .error (atProgress h.progress x)
    | .ok s => .ok s)
  let s ← s.settleAccesses s.hart
  match s.applyEntries true h.progress rest with
  | (s, i, none) => s.setProgress h i
  | (_, _, some x) => .error x

/-- The entries recorded into the current list in collecting mode (R341). -/
def applyRecorded (s : State) (h : ListHead) (es : List Entry) : Act State :=
  let l := (es.drop h.progress).filter (fun e => decide (e.kind ≤ 2))
  if l.isEmpty then .ok s else s.recordEntries l

/-- The end of an apply: the release it closes with, and the progress index back to 0 (R341). A release that waits leaves
the index at the end, so that only it is left. -/
def endApply (s : State) (h : ListHead) (scope : Nat) (rel : Bool) : Act State := do
  let s ← s.releasing rel scope (fun u => u.deferExtra 0x0F 0) .ok
  s.setProgress h 0

end State

/-- `eapply` (R341). -/
def execEapply (a sc i r : Nat) (s : State) : Host.Outcome State Fault Refusal :=
  match s.listOperand (s.rs a) with
  | .error x => finish s (.error x)
  | .ok (_, none) => .next s
  | .ok (u, some (h, es)) =>
    if u.collecting then
      finish s (if i = 1 ∨ r = 1 then .error (.trapFree 0x01) else u.applyRecorded h es)
    else if u.me.releaseHeld ≠ 0 then .next u
    else if i = 1 then
      match u.applyIso h es with
      | .error x => finish s (.error x)
      | .ok u =>
        match u.endApply h sc (r == 1) with
        | .error x => finish u (.error x)
        | .ok t => .next t
    else
      match u.applyList h es with
      | .error x => finish s (.error x)
      | .ok (u, some x) => finish u (.error x)
      | .ok (u, none) =>
        match u.endApply h sc (r == 1) with
        | .error x => finish u (.error x)
        | .ok t => .next t

/-! ### The remaining list operations (R342) -/

/-- `edrop` (R342). -/
def execEdrop (a : Nat) (s : State) : Host.Outcome State Fault Refusal :=
  let h := s.rs a
  finish s (if h = 0 then .ok s
    else do
      let (s, x) ← s.closedList h
      s.freeList x)

/-- A closed list, or the open list of the issuing strand's current frame (R337). -/
def State.ownList (s : State) (h : Nat) : Act (State × ListHead) := do
  let (s, x) ← s.openHandle h
  if x.opened ∧ h ≠ s.me.ectx.toNat then .error (.trap 0x08 h) else .ok (s, x)

/-- `elen` (R342): the entries whose kind has its bit in `k`. -/
def execElen (d a k : Nat) (s : State) : Host.Outcome State Fault Refusal :=
  let h := s.rs a
  finish s (if h = 0 then .ok (s.longS d 0)
    else do
      let (s, x) ← s.ownList h
      let (s, es) ← s.entriesOf x
      .ok (s.longS d (es.filter (fun e => bit k e.kind)).length))

/-- `egrow` (R342). -/
def execEgrow (a b : Nat) (s : State) : Host.Outcome State Fault Refusal :=
  let h := s.rs a
  finish s (if h = 0 then .error (.trap 0x08 h)
    else do
      let (s', x) ← s.ownList h
      let n := x.cap + s.rs b
      if 2 ^ 32 ≤ n then .error (.trap 0x08 (s.rs b)) else s'.lwrite (x.addr + 0x10) 8 n)

/-- Granules of the entries of a list. -/
def granulesOf (es : List Entry) : Nat := (es.map (fun e => entryGranules e.kind)).foldl (· + ·) 0

namespace State

/-- The further blocks from index `n` on freed; the list ends at the block before them. -/
def cutBlocks (s : State) (h : ListHead) (bs : List Nat) (n : Nat) : Act (State × ListHead) := do
  let s ← s.giveBlocks (bs.drop n)
  if bs.length ≤ n then .ok (s, h)
  else
    match (bs.take n).getLast? with
    | none => .ok (s, { h with next := 0, last := h.addr })
    | some p => do
      let s ← s.lwrite p 8 0
      .ok (s, { h with last := p })

/-- `etrunc` (R340): the first `n` entries stay, and the emptied blocks are freed. -/
def truncList (s : State) (h n : Nat) : Act State := do
  if h = 0 then .error (.trap 0x08 h) else .ok ()
  let (s, x) ← s.closedList h
  if x.count ≤ n then .ok s
  else do
    let (s, bs) ← s.blocksOf x
    let (s, es) ← s.entriesOf x
    let used := granulesOf (es.take n)
    let (s, x) ← s.cutBlocks x bs (furtherBlocks used)
    s.writeHead { x with count := n, used := used, progress := min x.progress n }

end State

/-- `etrunc` (R340). -/
def execEtrunc (a b : Nat) (s : State) : Host.Outcome State Fault Refusal := finish s (s.truncList (s.rs a) (s.rs b))

end Sys2Proof.Machine
end

