-- ==== Sys2Proof/Machine/MoveEvents.lean ====
section
/-!
DEFINITION. Steps of the drover, of the streams, of the units at the homes of accesses, and of the matrix unit (R116 to
R126, R128, R141 to R146, R148 to R153, R176, R215, R224, R256, R395).
-/

namespace Sys2Proof.Machine

/-! ### Descriptors (R118, R119, R121, R150) -/

/-- The format of the containers of a plane move, by the bytes of a row (R119). -/
def planeFormat (n : Nat) : Option Nat :=
  if n = 80 then some 3 else if n = 64 then some 2 else if n = 48 then some 1 else if n = 16 then some 0 else none

namespace Move

/-- Fields of a tile-move descriptor (R118). -/
def src (m : Move) : Nat := nth m.desc 0
def dst (m : Move) : Nat := nth m.desc 1
def rows (m : Move) : Nat := bits (nth m.desc 2) 0 16
def rbytes (m : Move) : Nat := bits (nth m.desc 2) 16 16
def sstride (m : Move) : Nat := bits (nth m.desc 2) 32 32
def dstride (m : Move) : Nat := bits (nth m.desc 3) 0 32
def mode (m : Move) : Nat := bits (nth m.desc 3) 32 2
def ord (m : Move) : Bool := bit (nth m.desc 3) 34
def rsize (m : Move) : Nat := bits (nth m.desc 3) 35 13
def rhead (m : Move) : Nat := bits (nth m.desc 3) 48 13

/-- Fields of a gather descriptor (R150). -/
def gbase (m : Move) : Nat := nth m.desc 0
def bbytes (m : Move) : Nat := bits (nth m.desc 2) 0 32
def count (m : Move) : Nat := bits (nth m.desc 2) 32 6
def ivm (m : Move) : Bool := bit (nth m.desc 2) 43
def near (m : Move) : Bool := bit (nth m.desc 2) 44
def bound (m : Move) : Nat := nth m.desc 3
def gsize (m : Move) : Nat := bits (nth m.desc 4) 0 13
def ghead (m : Move) : Nat := bits (nth m.desc 4) 13 13
def miss (m : Move) : Nat := nth m.desc 5
def route (m : Move) : Nat := nth m.desc 6
def iaddr (m : Move) : Nat := nth m.desc 7

/-- A tile-move descriptor keeps R118 and R119, and names a mode of its instruction (R121, R148). -/
def tileOk (m : Move) (plane : Bool) : Bool :=
  decide (1 ≤ m.rows ∧ 1 ≤ m.rbytes) && nth m.desc 3 / 2 ^ 61 == 0 && (m.mode == 2) == plane &&
    (if m.mode = 3 then decide (1 ≤ m.rsize ∧ m.rhead < m.rsize) else m.rsize == 0 && m.rhead == 0) &&
    (if m.mode = 1 then m.rbytes == 128 && m.dst % 128 == 0 && m.dstride % 128 == 0
     else if m.mode = 2 then (planeFormat m.rbytes).isSome && m.dst % 8 == 0 && m.dstride % 8 == 0
     else true)

/-- An address of a scratchpad aperture (R105). -/
def scratchAddr (a : Nat) : Bool := decide (0xF0 ≤ a / 2 ^ 56 ∧ a / 2 ^ 56 ≤ 0xF6)

/-- A gather descriptor keeps R150; a drover program's index vector is in memory. -/
def gatherOk (m : Move) (routeOk : Bool) : Bool :=
  m.gbase / 2 ^ 56 == 0 && scratchAddr m.dst && m.bbytes % 64 == 0 &&
    decide (64 ≤ m.bbytes ∧ m.bbytes ≤ 0x100000 ∧ 1 ≤ m.count ∧ m.count ≤ 32) && nth m.desc 2 / 2 ^ 45 == 0 &&
    decide (1 ≤ m.gsize ∧ m.gsize ≤ 8191 ∧ m.ghead < m.gsize) && nth m.desc 4 / 2 ^ 26 == 0 &&
    (m.miss == 0 || (m.miss % 8 == 0 && (m.miss / 2 ^ 56 == 0xF0 || m.miss / 2 ^ 56 == 0xF3))) &&
    (m.route == 0 || routeOk) &&
    (if m.ivm then m.iaddr == 0 && m.hart % 8 != 4 else m.iaddr % 4 == 0 && m.iaddr / 2 ^ 56 == 0xF0)

/-- Rows of a move. -/
def total (m : Move) : Nat :=
  match m.kind with
  | .tile _ => m.rows
  | .gather => m.count
  | .pageIn _ => 1

end Move

namespace State

/-- A move as the maker of its accesses: the rights of the issuing hart's flock (R148). -/
def whoMove (s : State) (m : Move) : Who :=
  { hart := m.hart, asid := m.asid, user := true, slot := m.launch, flock := m.flock,
    leases := some (match m.launch with
      | some n => (match s.launchAt n with
        | some l => l.ranges
        | none => [])
      | none => []) }

/-- A move fails at its destination's scope (R274). -/
def failAt (s : State) (core : Nat) (m : Move) (cause tval : Nat) : State :=
  s.failMove core m cause tval (s.scopeOf (s.whoMove m) (match m.kind with
    | .pageIn va => va
    | _ => m.dst))

/-- A move replaced in its core's queue. -/
def setMove (s : State) (core : Nat) (m : Move) : State :=
  let c := s.coreAt core
  s.setCore core { c with moves := c.moves.map (fun x => if x.same m then m else x) }

/-- A row or a start that stops by a fault fails the move; one that must wait is tried again. -/
def failOr (s : State) (core : Nat) (m : Move) (e : Stop) : Act State :=
  match e.trapped s with
  | some (t, c, v) => .ok (t.failAt core m c v)
  | none => .error e

/-- A route names a core of the paddock (R284). A gather's route that names none breaks its descriptor (log 90). -/
def routeOk (s : State) (r : Nat) : Bool :=
  r / 2 ^ 37 == 0 && decide (r % 2 ^ 11 < 1536) && s.inPaddock (bits r 11 15)

/-! ### The start of a move (R121, R150, R152) -/

/-- A `pgin` starts: the page moves to tier 1 or 3, or the move completes at once (R152). -/
def startPageIn (s : State) (core : Nat) (m : Move) (va : Nat) : Act State := do
  let (s, r) ← s.walk (dieOf core) m.asid va
  match r with
  | none => .ok (s.failAt core m 0x06 va)
  | some (e, at_, large) =>
    let tier := bits e 6 3
    if bits e 9 2 ≠ 0 then .ok (s.failAt core m 0x07 va)
    else if s.moving at_ then .error .wait
    else if large || bit e 11 || decide (tier < 3) || s.inAgist (bits e 16 44) then .ok (s.completeMove core m)
    else if 8 ≤ s.hub.moves.length then .error .wait
    else
      let go := fun (r : State × Nat) t =>
        (r.1.setMove core { m with active := true }).startMove
          { asid := m.asid, va := va / 65536 * 65536, leafAddr := at_, leaf := e, src := entryPage e,
            dst := r.2 * 65536, dstTier := t, pgin := some (core, m.seq), slot := m.launch, flock := m.flock }
      match s.allocFrame s.hub.pkg 1 with
      | some r => .ok (go r 1)
      | none =>
        if tier = 3 then .ok (s.completeMove core m)
        else
          match s.allocFrame s.hub.pkg 3 with
          | some r => .ok (go r 3)
          | none => .ok (s.completeMove core m)

/-- A gather's indices in memory, read when the move starts (R150). -/
def gatherIndices (s : State) (m : Move) : Act (State × List Nat) := do
  let (s, l) ← s.readBytes (s.whoMove m) .moveRead m.iaddr (4 * m.count) 4
  .ok (s, splitLanes 32 m.count (ofBytes l))

/-- A move starts (R121). -/
def startTileMove (s : State) (core : Nat) (m : Move) : Act State :=
  match m.kind with
  | .tile plane =>
    .ok (if m.tileOk plane then s.setMove core { m with active := true } else s.failAt core m 0x01 m.descAddr)
  | .gather =>
    if m.gatherOk (s.routeOk m.route) then
      if m.ivm then .ok (s.setMove core { m with active := true })
      else
        match s.gatherIndices m with
        | .ok (t, idx) => .ok (t.setMove core { m with active := true, idx := idx })
        | .error e => s.failOr core m e
    else .ok (s.failAt core m 0x01 m.descAddr)
  | .pageIn va => s.startPageIn core m va

/-- The next queued move of a core, when fewer than four are active (R116). -/
def nextQueued (s : State) (core : Nat) : Option Move :=
  let l := (s.coreAt core).moves
  if 4 ≤ (l.filter (fun m => m.active)).length then none
  else
    match l.find? (fun m => !m.active) with
    | some m => if m.stopped then none else some m
    | none => none

/-! ### Rows (R9, R116, R119, R120, R151) -/

/-- A row permuted by the swizzle of R9. -/
def swizzleRow (i : Nat) (l : List Nat) : List Nat :=
  (upFrom 0 32).flatMap (fun w => (l.drop (4 * (w ^^^ (i / 4 % 16 * 2)))).take 4)

/-- The bytes that a row writes, from the bytes it read (R119): a plane row holds one container. -/
def rowBytes (m : Move) (l : List Nat) : List Nat :=
  if m.mode = 1 then swizzleRow m.row l
  else if m.mode = 2 then
    match planeFormat m.rbytes with
    | some c => writeSegment c (readContainer c l)
    | none => l
  else l

/-- The checks of a plane row's container (R164), in their order: the state, and the cause of the fault. A container whose
parity fails is read again: the event's `aux` says that the first read of sound bytes failed and the second did not (1), or
failed too (2). -/
def rowChecks (s : State) (core : Nat) (m : Move) (l : List Nat) : State × Option Nat :=
  if m.mode ≠ 2 then (s, none)
  else
    let fault := (planeFormat m.rbytes).bind (fun c => containerFault c l)
    if fault = some 0x0C ∨ s.ev.aux = 2 then (s.logError logParity core 0x0C false, some 0x0C)
    else (if s.ev.aux = 1 then s.countTransient m.launch logParity core 0x0C else s, fault)

/-- Where row `i` of a tile move is read (R119). -/
def rowSource (m : Move) : Nat := (m.src + m.row * m.sstride) % 2 ^ 64

/-- Where block `i` of a gather is read (R151). -/
def blockSource (m : Move) : Nat := (m.gbase + m.bbytes * nth m.idx m.row) % 2 ^ 64

/-- A gather passes its block over: near memory alone is asked for, and the block lies farther (R151). -/
def farBlock (m : Move) (cs : List Chunk) : Bool := m.near && cs.any (fun c => decide (c.leaf ≠ 0 ∧ 4 ≤ c.tier))

/-- The bytes that the next row of a move reads. -/
def rowReads (s : State) (m : Move) : Option (Nat × Nat) :=
  match m.kind with
  | .tile _ => some (rowSource m, m.rbytes)
  | .gather =>
    if m.bound ≤ nth m.idx m.row then none
    else match s.check (s.whoMove m) .moveRead (blockSource m) m.bbytes 1 with
      | .ok (_, cs) => if farBlock m cs then none else some (blockSource m, m.bbytes)
      | .error _ => none
  | .pageIn _ => none

/-- The word that the event names, of those that a row reads, meets a check of memory (R395). -/
def rowEcc (s : State) (m : Move) : State :=
  match s.rowReads m with
  | some (a, n) => s.eccAddr m.launch m.hart m.asid a n
  | none => s

/-- Where row `i` of a tile move goes (R119). -/
def rowDest (m : Move) : Nat :=
  (m.dst + m.dstride * (if m.mode = 3 then (m.rhead + m.row) % m.rsize else m.row)) % 2 ^ 64

/-- A row's bytes written at their home. -/
def writeRow (s : State) (m : Move) (a : Nat) (data : List Nat) : Act State := do
  let (s, cs) ← s.check (s.whoMove m) .moveWrite a data.length 1
  s.writeOwn m.hart true a cs data

/-- The bytes a row of an unordered move receives where earlier rows have written over its source: of each byte, which of the
values that stood there a free value says (R120; log 4). -/
def unorderedBytes (s : State) (m : Move) (a : Nat) (l : List Nat) : Act (State × List Nat) :=
  if m.old.isEmpty then .ok (s, l)
  else do
    let (s, cs) ← s.check (s.whoMove m) .moveRead a m.rbytes 1
    let places := cs.flatMap (fun c => upFrom c.place c.n)
    .ok ((List.zip places l).foldl (fun r e =>
      let seen := ((m.old.filter (fun o => o.1 == e.1)).map (·.2) ++ [e.2]).eraseDups
      if seen.length = 1 then (r.1, r.2 ++ [e.2])
      else (r.1.freeValue.2, r.2 ++ [nth seen (r.1.freeValue.1.toNat % seen.length)])) (s, []))

/-- Every byte that the rows of an unordered move have written over, the next row's with them: kept only where the source and
the destination are both global, or both scratchpads. -/
def overwritten (s : State) (m : Move) : List (Nat × Nat) :=
  if m.ord || (m.src / 2 ^ 56 == 0) != (m.dst / 2 ^ 56 == 0) || decide (m.rows ≤ m.row + 1) then m.old
  else
    let n := match planeFormat m.rbytes with
      | some c => if m.mode = 2 then 16 + 8 * blockPlanes c else m.rbytes
      | none => m.rbytes
    match s.check (s.whoMove m) .moveWrite (rowDest m) n 1 with
    | .ok (_, cs) =>
      m.old ++ ((cs.flatMap (fun c => (s.replicas c).flatMap (fun p => upFrom p c.n))).map (fun p => (p, s.byteAt p))).filter
        (fun e => !m.old.contains e)
    | .error _ => m.old

/-- One row of a tile move: the state, and the fault of its container, which the row writes nothing of (R116). -/
def tileRow (s : State) (core : Nat) (m : Move) : Act (State × Option Nat) := do
  let a := rowSource m
  let (s, l) ← s.readBytes (s.whoMove m) .moveRead a m.rbytes 1
  let (s, l) ← s.unorderedBytes m a l
  match s.rowChecks core m l with
  | (s, some k) => .ok (s, some k)
  | (s, none) => do
    let s ← s.writeRow m (rowDest m) (rowBytes m l)
    .ok (s, none)

/-- One block of a gather (R151): the state and the mask. -/
def gatherRow (s : State) (m : Move) : Act (State × Nat) := do
  let i := nth m.idx m.row
  if m.bound ≤ i then .error (.trap 0x08 (i * 2 ^ 32 + m.row))
  else do
    let a := blockSource m
    let (s, cs) ← s.check (s.whoMove m) .moveRead a m.bbytes 1
    if farBlock m cs then .ok (s, m.mask + 2 ^ m.row)
    else do
      let (s, l) ← s.readBytes (s.whoMove m) .moveRead a m.bbytes 1
      let s ← s.writeRow m ((m.dst + m.bbytes * ((m.ghead + m.row) % m.gsize)) % 2 ^ 64) l
      .ok (s, m.mask)

/-- The next row of an active move: moved whole, or the move fails and writes nothing of it (R116). -/
def moveRow (s : State) (core : Nat) (m : Move) : Act State :=
  let s := s.rowEcc m
  let r : Act (State × Option Nat × Nat) := match m.kind with
    | .tile _ => (s.tileRow core m).map (fun t => (t.1, t.2, m.mask))
    | .gather => (s.gatherRow m).map (fun t => (t.1, none, t.2))
    | .pageIn _ => .error .wait
  match r with
  | .ok (t, some k, _) => .ok (t.failAt core m k (rowSource m))
  | .ok (t, none, mask) => .ok (t.setMove core { m with
      row := m.row + 1, mask := mask, old := match m.kind with
        | .tile _ => s.overwritten m
        | _ => [] })
  | .error e => s.failOr core m e

/-! ### Completion (R116, R151) -/

/-- The tier-miss message of a gather (R151): untimed, from the issuing hart's core. -/
def tierMiss (s : State) (core : Nat) (m : Move) : State :=
  let r := m.route
  s.queueOut core
    { ts := allOnes64,
      hdr := headerWord 0 (s.endpoint core) (s.colourOf core m.launch) 0 (bits r 34 3) (bits r 26 8),
      payload := [core * 2 ^ 32 + m.seq, m.mask, m.descAddr, 0, 0, 0], dest := r % 2 ^ 26, asid := m.asid,
      slot := m.launch.getD 0 }

/-- A gather writes its mask and sends its message (R151). -/
def endGather (s : State) (core : Nat) (m : Move) : Act State := do
  let s ← if m.miss = 0 then .ok s else s.writeRow m m.miss (bytesOf 8 m.mask)
  .ok (if m.route ≠ 0 ∧ m.mask ≠ 0 then s.tierMiss core m else s)

/-- A move whose rows are all written completes. -/
def endMove (s : State) (core : Nat) (m : Move) : Act State :=
  let r : Act State := match m.kind with
    | .gather => s.endGather core m
    | .tile _ => .ok s
    | .pageIn _ => .error .wait
  match r with
  | .ok t => .ok (t.completeMove core m)
  | .error e => s.failOr core m e

/-- Move `idx` of the event's core. -/
def evMove (s : State) : Option Move := (s.coreAt s.ev.core).moves[s.ev.idx]?

/-- The active move of a core whose row moves next: round-robin over those that have rows left, in the order of their numbers,
which wrap (R116, R117). -/
def nextRow (s : State) (core : Nat) : Option Move :=
  let c := s.coreAt core
  let l := c.moves.filter (fun m => m.active && !m.stopped && decide (m.row < m.total) && (match m.kind with
    | .pageIn _ => false
    | _ => true))
  match l.find? (fun m => decide (m.seq ≠ c.rrMove ∧ (m.seq + 2 ^ 32 - c.rrMove) % 2 ^ 32 < 2 ^ 31)) with
  | some m => some m
  | none => l.head?

end State

/-- TILE_MOVE_START (R121): the core's next queued move starts. -/
def execTileMoveStart (s : State) : Host.Outcome State Fault Refusal :=
  finishEvent s (match s.nextQueued s.ev.core with
    | some m => s.startTileMove s.ev.core m
    | none => .error .wait)

/-- TILE_MOVE_ROW (R116): one row of the active move whose turn it is. -/
def execTileMoveRow (s : State) : Host.Outcome State Fault Refusal :=
  let k := s.ev.core
  finishEvent s (match s.nextRow k with
    | some m => (s.setCore k { s.coreAt k with rrMove := m.seq }).moveRow k m
    | none => .error .wait)

/-- TILE_MOVE_COMPLETE (R116): the last row's writes have performed. -/
def execTileMoveComplete (s : State) : Host.Outcome State Fault Refusal :=
  finishEvent s (match s.evMove with
    | some m => if m.active && !m.stopped && decide (m.total ≤ m.row) then s.endMove s.ev.core m else .error .wait
    | none => .error .wait)

/-- DROVER_PROGRAM_FAULT (R124): the program of the event's core stops with a cause (`val`), at an address (`addr`). -/
def execDroverProgramFault (s : State) : Host.Outcome State Fault Refusal :=
  let k := 8 * s.ev.core + 4
  .next (if (s.hartAt k).occ then
    s.onHart k (fun u => u.enterTrap (s.ev.val % 256) u.me.pc s.ev.addr u.me.pc 0 false false true)
    else s)

/-! ### Streams (R125, R126) -/

namespace State

/-- A row of a stream read ahead: its element, or the fault that its pop meets; the fault is recorded when the row fails
(R126, R153, R387). -/
def streamRow (s : State) (k q : Nat) (x : Stream) : Act State :=
  let h := s.hartAt k
  let a := (x.src + x.fetched * x.stride) % 2 ^ 64
  let put := fun (s : State) (e : List Nat × Option (Nat × Nat)) =>
    s.setHart k { s.hartAt k with
      q := Store.set {} (s.hartAt k).q q { x with elems := x.elems ++ [e], fetched := x.fetched + 1 } }
  let s := s.eccAddr h.slot k x.asid a x.rbytes
  match s.readBytes { s.whoHart k with asid := x.asid, user := x.user } .read a x.rbytes 1 with
  | .ok (t, l) => .ok (put t (l, none))
  | .error e =>
    match e.trapped s with
    | some (t, c, v) =>
      .ok ((put t ([], some (c, v))).recordIn h.slot
        { cause := c, async := true, defer := false, abort := false, pc := x.pc, addr := v,
          progress := 2 ^ 60 + x.fetched, core := k / 8, strand := k % 8 % 4, drover := k % 8 == 4, flock := h.flock })
    | none => .error e

end State

/-- STREAM_ELEMENT_ARRIVE (R125): the next row of stream `idx` of the event's strand arrives, while fewer than eight
elements wait. -/
def execStreamElementArrive (s : State) : Host.Outcome State Fault Refusal :=
  let k := s.evHart
  let x : Stream := Store.get {} (s.hartAt k).q s.ev.idx
  finishEvent s (if x.state = 1 ∧ x.fetched < x.rows ∧ x.elems.length < 8 ∧ x.elems.all (fun e => e.2.isNone) = true
    then s.streamRow k s.ev.idx x else .error .wait)

/-! ### Accesses at their homes (R128, R141, R146, R256) -/

namespace State

/-- A release on its way that waits for nothing but the flush of its hart's destination set, when none is under way: the
flush begins (R267). -/
def flushDue (s : State) (k since : Nat) (older : List PendingStore) (r : Option Release) : Bool :=
  match r with
  | some r => s.mustFlush k r.scope && !s.flushingOf k && !s.releaseWaits k r.scope since older
  | none => false

/-- An atomic that another package has sent to this one's memory (R141, R244): its kind, operation, size, address space and
address, and its operands. -/
def foreignAtomic (p req : Nat) : List Nat → Option (Nat × PendingAtomic)
  | kind :: op :: size :: asid :: va :: args =>
    let t : PendingAtomic :=
      { hart := hubAgent, long := none, op := op, size := if kind = 2 then 16 else size, place := p, va := va,
        operands := args, kind := kind, pkg := req }
    if kind ≤ 2 ∧ (size = 4 ∨ size = 8) then some (asid, t) else none
  | _ => none

/-- A near-memory operation that another package has sent to this one's memory (R141, R244): its operation, address space and
address, and its argument block. -/
def foreignNear (req : Nat) : List Nat → Option PendingNear
  | op :: asid :: va :: args =>
    if op ≤ 2 then some
      { hart := hubAgent, long := 0, op := op, addr := va, arg := args, argPlace := 0, d := 0, asid := asid, user := true,
        slot := none, flock := 0, from_ := some req }
    else none
  | _ => none

/-- A near-memory operation of another package executes here: its result, or its fault, goes back there. -/
def runNearFrom (s : State) (t : PendingNear) : Act State :=
  let s := s.countNear t
  let r := if t.op = 0 then (s.runCas4 t).map (·.1) else if t.op = 1 then (s.runEnq t).map (·.1)
    else match s.runChase t with
      | (u, _, none) => .ok u
      | (_, _, some e) => .error e
  match r with
  | .error .wait => .error .wait
  | .error _ => .ok s
  | r => r

end State

/-- ATOMIC_EXECUTE (R141): entry `idx` executes at its unit, after its hart's earlier atomics and what goes ahead of it. With
`aux` 1, an atomic that package `val` has sent to the place `addr` of this package's memory executes (R244). -/
def execAtomicExecute (s : State) : Host.Outcome State Fault Refusal :=
  finishEvent s (if s.ev.aux = 1 then
      match State.foreignAtomic s.ev.addr s.ev.val s.ev.list with
      | some (asid, t) =>
        if t.place % t.size = 0 ∧ s.foreignOk t.place s.ev.val = true then s.runAtomicOf s.ev.val asid t
        else .error .wait
      | none => .error .wait
    else
      match s.atomics[s.ev.idx]? with
      | none => .error .wait
      | some t =>
        if s.flushDue t.hart t.since (s.stores.filter (fun u => decide (u.since < t.since))) t.release then
          .ok (s.onHart t.hart State.startFlush)
        else s.tryAtomic t)

/-- NEAR_MEMORY_EXECUTE (R146): entry `idx` executes, after the earlier accesses of its hart. With `aux` 1, an operation that
package `val` has sent to this package's memory executes (R244). -/
def execNearMemoryExecute (s : State) : Host.Outcome State Fault Refusal :=
  finishEvent s (match if s.ev.aux = 1 then none else s.nears[s.ev.idx]? with
    | none =>
      match State.foreignNear s.ev.val s.ev.list with
      | some t => if s.ev.aux = 1 then s.runNearFrom t else .error .wait
      | none => .error .wait
    | some t =>
      if (s.nears.take s.ev.idx).any (fun u => u.hart == t.hart) then .error .wait
      else do
        let s ← s.drainStores t.hart
        let s ← s.settleAtomics t.hart
        ({ s with nears := s.nears.eraseIdx s.ev.idx } : State).runNear t)

/-- STORE_PERFORMS_AT_HOME (R256): store `idx` performs, after the hart's earlier stores to the same bytes (R133) and what
goes ahead of it on its path (R266), and within the dirty quota of a lease (R250). -/
def execStorePerformsAtHome (s : State) : Host.Outcome State Fault Refusal :=
  finishEvent s (match s.stores[s.ev.idx]? with
    | none => .error .wait
    | some t =>
      if s.flushDue t.hart t.since (s.stores.take s.ev.idx) t.release then .ok (s.onHart t.hart State.startFlush)
      else s.tryStore t)

/-- STORE_ASYNC_FAILURE (R128, R396): an operation is lost after its issue: store `idx` (`aux` 0), reduction `idx` of the
atomics (`aux` 1), or the row of move `idx` of the event's core at the address `addr` (`aux` 2). -/
def execStoreAsyncFailure (s : State) : Host.Outcome State Fault Refusal :=
  .next (if s.ev.aux = 0 then
      match s.stores[s.ev.idx]? with
      | some t =>
        ({ s with stores := s.stores.eraseIdx s.ev.idx } : State).asyncFail t.async 0x0E (s.targetScope t.hart t.place)
      | none => s
    else if s.ev.aux = 1 then
      match s.atomics[s.ev.idx]? with
      | some t => ({ s with atomics := s.atomics.eraseIdx s.ev.idx } : State).loseAtomic t
      | none => s
    else
      match s.evMove with
      | some m => if m.active then s.failAt s.ev.core m 0x0E s.ev.addr else s
      | none => s)

/-! ### The matrix unit (R176, R215, R224, R395) -/

/-- MMA_OPERANDS_CONSUMED (R215, R176): the oldest product of the event's core that has not read its operands reads them,
after the strand's earlier stores to them (R216). `val` is the outcome of its checks: 0 they match, 1 they match after a rerun,
2 a second mismatch. `list` names the operand words that stay uncorrectable after their re-read, as local offsets, and `ecc`
(1 or 3) the outcome of the word at local offset `off` (R395). -/
def execMmaOperandsConsumed (s : State) : Host.Outcome State Fault Refusal :=
  let c := s.ev.core
  finishEvent s (match (s.coreAt c).products.find? (fun p => !p.consumed) with
    | none => .error .wait
    | some p => do
      let s ← s.productFirst c p
      let slot := (s.hartAt p.hart).slot
      let words := s.failedWords c p s.ev.list
      let t := s.consumeProduct c p s.ev.val words
      let t := words.foldl (fun t o => t.eccOf slot (placeLocal c o) 2) t
      let t := if s.ev.ecc = 2 then t else t.eccOf slot (placeLocal c (s.ev.off % 2 ^ 19)) s.ev.ecc
      .ok (if s.ev.val = 1 then t.countTransient slot logMatrix c 0x0D
        else if s.ev.val = 2 then t.logError logMatrix c 0x0D false else t))

/-- MMA_FINISH (R224): the oldest product of the event's core is computed, and its queue entry frees. -/
def execMmaFinish (s : State) : Host.Outcome State Fault Refusal :=
  .next (match (s.coreAt s.ev.core).products with
    | p :: _ => if p.consumed then s.finishProduct s.ev.core p else s
    | [] => s)

end Sys2Proof.Machine
end

