-- ==== Sys2Proof/Machine/PageEvents.lean ====
section
/-!
DEFINITION. Steps of the walker, of the migration engine, of agistment and of the fabric's flushes (R228, R235, R244 to
R254, R267, R270, R419 to R421).
-/

namespace Sys2Proof.Machine

namespace State

/-- A walk begins and reads the tables (R234), when no walk of its page is in flight, fewer than 64 are, and no older
request waits. -/
def startWalk (s : State) (core asid va : Nat) : Act State :=
  let die := dieOf core
  let mine := (die, asid, va / 65536)
  let older := (s.walkQueue.filter (fun q => q.1 == die)).head?
  if s.walks.any (fun w => w.die == die && w.asid == asid && w.page == va / 65536) || decide (64 ≤ s.walksOf die) ||
      !(older == none || older == some mine) then .error .wait
  else do
    let (s, r) ← s.walk die asid va
    .ok { s with
      walkQueue := s.walkQueue.erase mine,
      walks := s.walks ++ [{ die := die, asid := asid, page := va / 65536, core := core, leaf := r }] }

/-- A walk ends: its leaf enters the TLBs of the core that asked, with A and for a write with D (R233, R235). -/
def endWalk (s : State) (w : Walk) (write : Bool) : Act State :=
  (({ s with walks := s.walks.erase w } : State).joinWalk w w.core w.asid (w.page * 65536) write).map (fun r => r.1)

end State

/-- TABLE_WALK (R228, R234, R235): a walk for the event's core, address space (`val`) and address (`addr`), for a write when
`ok`; the leaf enters the TLBs that asked. A translation fault is held by no structure (R233). With `aux` 1 the walk begins
and stays in flight, with `aux` 2 the walk `idx` ends. -/
def execTableWalk (s : State) : Host.Outcome State Fault Refusal :=
  finishEvent s (if s.ev.aux = 1 then s.startWalk s.ev.core s.ev.val s.ev.addr
    else if s.ev.aux = 2 then
      match s.walks[s.ev.idx]? with
      | some w => s.endWalk w s.ev.ok
      | none => .error .wait
    else (s.requestWalk s.ev.core s.ev.val s.ev.addr s.ev.ok).map (fun r => r.1))

/-! ### Migration (R244, R245) -/

namespace State

/-- The requester that a counted page is migrated toward (R245). -/
def migrateTo (s : State) (c : PageCount) : Option Nat :=
  let thresh := bits s.hub.migctl.toNat 16 16
  (c.counts.find? (fun e =>
    decide (thresh ≤ e.2) && c.counts.all (fun f => f.1 == e.1 || decide (2 * f.2 ≤ e.2)))).map (·.1)

/-- A migration of a counted page begins, when every condition of R245 holds, toward a package of the paddock (R4). A page that
stands at the requester's tier 1 stays. -/
def migrate (s : State) (c : PageCount) : Act State :=
  match s.migrateTo c with
  | none => .ok s
  | some q => if !s.inPaddock q then .ok s else do
    let (t, r) ← s.walk 0 c.asid c.va
    match r with
    | none => .ok s
    | some (e, at_, large) =>
      if movable e large && bits e 16 44 == c.page && c.page / 2 ^ 29 == s.hub.pkg && !t.moving at_ &&
          !t.inAgist c.page && decide (t.hub.moves.length < 8) && !(q == s.hub.pkg && bits e 6 3 == 1) then
        let go := fun (r : State × Nat) tier => r.1.startMove
          { asid := c.asid, va := c.va / 65536 * 65536, leafAddr := at_, leaf := e, src := entryPage e,
            dst := r.2 * 65536, dstTier := tier }
        match t.allocFrame q 1 with
        | some r => .ok (go r 1)
        | none => (match t.allocFrame q 3 with
          | some r => .ok (go r 3)
          | none => .ok s)
      else .ok s

/-- The counted pages examined in order. -/
def migrateAll (s : State) : List PageCount → Act State
  | [] => .ok s
  | c :: t => do
    let s ← s.migrate c
    s.migrateAll t

/-- Every count halved (R244). -/
def halveCounts (s : State) : State :=
  { s with hub := { s.hub with counted := s.hub.counted.map (fun c =>
    { c with counts := c.counts.map (fun e => (e.1, e.2 / 2)) }) } }

end State

/-- MIGRATION_EPOCH_END (R244, R245): every 1 ms, the counts are examined, and then halved (log 108). -/
def execMigrationEpochEnd (s : State) : Host.Outcome State Fault Refusal :=
  finishEvent s (if s.cycle < s.hub.epochAt + 1100000 then .error .wait
    else do
      let s ← if bit s.hub.migctl.toNat 0 then s.migrateAll s.hub.counted else .ok s
      .ok { s.halveCounts with hub := { s.halveCounts.hub with epochAt := s.cycle } })

/-! ### Moves of pages (R246, R247) -/

namespace State

/-- Move `idx` of the event. -/
def evPageMove (s : State) : Option PageMove := s.hub.moves[s.ev.idx]?

/-- A move replaced in the engine. -/
def setPageMove (s : State) (m : PageMove) : State :=
  { s with hub := { s.hub with moves := s.hub.moves.map (fun x => if x.leafAddr = m.leafAddr then m else x) } }

/-- COPY: the lines are copied; those that are still uncorrectable after their re-read abandon the move, or with FORCE
are written poisoned, and counted: lines that were poisoned before are not (R247; log 109). -/
def copyPage (s : State) (m : PageMove) (bad : List Nat) : State :=
  match bad with
  | [] => (s.copyFrame (m.src / 65536) (m.dst / 65536)).setPageMove { m with copied := true }
  | l :: _ =>
    if m.force then
      let t := s.copyFrame (m.src / 65536) (m.dst / 65536)
      let lines := (bad.map (fun i => m.dst / 64 + i % 1024)).filter (fun l => !t.poison.contains l)
      ({ t with poison := t.poison ++ lines } : State).setPageMove
        { m with copied := true, poisoned := m.poisoned + bad.length }
    else s.abandonMove m (m.va + 64 * (l % 1024))

/-- DRAIN: the accesses under way perform on the source, and the lines written during the copy are copied again. -/
def drainPage (s : State) (m : PageMove) : Act State := do
  let s ← s.settleFrame (m.src / 65536)
  let m := (s.hub.moves.find? (fun x => x.leafAddr == m.leafAddr)).getD m
  let s := m.logged.foldl (fun s l => s.copyLineTo l (m.dst / 64 + l % 1024)) s
  .ok (s.setPageMove { m with stage := 1, logged := [] })

/-- SWITCH: the leaf takes the new frame and tier by a compare and swap that ignores A and D, and its translations are
removed at .pa; a leaf that software changed abandons the move (R247). -/
def switchPage (s : State) (m : PageMove) : Act State :=
  let now := s.readAt m.leafAddr 8
  if setBits now 4 2 0 ≠ setBits m.leaf 4 2 0 then .ok (s.abandonMove m m.va)
  else do
    let s := s.writeAt m.leafAddr 8 (movedLeaf now (m.dst / 65536) m.dstTier)
    let s ← s.hubTlbi m.asid m.va
    .ok (s.setPageMove { m with stage := 2 })

/-- A lease changed in the hub alone: its STATE stays. -/
def keepLease (s : State) (a : AgistLease) : State :=
  { s with hub := { s.hub with agist := s.hub.agist.map (fun x => if x.id = a.id ∧ x.lender = a.lender then a else x) } }

/-- A lease as the hub holds it now. -/
def leaseNow (s : State) (a : AgistLease) : AgistLease :=
  (s.hub.agist.find? (fun x => x.id == a.id && x.lender == a.lender)).getD a

/-- The lease that a placement enters, with its page noted (R248, R250). -/
def placePage (s : State) (m : PageMove) : State :=
  match s.hub.agist.find? (fun a => m.lease == some (a.lender * 2 ^ 32 + a.id)) with
  | none => s
  | some a =>
    let i := (m.dst - (placeOf a.lender a.lbase)) / 65536
    (s.keepLease { a with placed := a.placed ++ [(i, m.asid, m.va)] }).writeAt (a.lmap % 2 ^ 60 + 8 * i) 8 m.leafAddr

/-- RESUME and FREE: accesses perform on the destination, the source frame is free unless it backs a held lease, its
lease count goes with the page, and the ending is posted (R246, R247). -/
def resumePage (s : State) (m : PageMove) : State :=
  let s := (s.dropMove m).placePage m
  let frame := m.src / 65536
  let backs := s.heldLeases.any (fun a => (s.backingFrames a).contains frame)
  let s := (s.carryCount frame (m.dst / 65536)).giveFrames (if backs then [] else [frame])
  (s.moveEvent m (if m.poisoned = 0 then 0 else 2)).endPageIn m none

end State

/-- PAGE_MOVE_COPY (R246): `list` names the uncorrectable lines, which are all where the source is lost; `ok` is false where a
destination write fails. -/
def execPageMoveCopy (s : State) : Host.Outcome State Fault Refusal :=
  .next (match s.evPageMove with
    | some m =>
      if m.stage = 0 ∧ m.copied = false then
        (if s.ev.ok then s.copyPage m (if s.homeLost m.src then upFrom 0 1024 else s.ev.list) else s.abandonMove m m.va)
      else s
    | none => s)

/-- PAGE_MOVE_DRAIN (R246). -/
def execPageMoveDrain (s : State) : Host.Outcome State Fault Refusal :=
  finishEvent s (match s.evPageMove with
    | some m => if m.stage = 0 ∧ m.copied = true then s.drainPage m else .error .wait
    | none => .error .wait)

/-- PAGE_MOVE_SWITCH (R246). -/
def execPageMoveSwitch (s : State) : Host.Outcome State Fault Refusal :=
  finishEvent s (match s.evPageMove with
    | some m => if m.stage = 1 then s.switchPage m else .error .wait
    | none => .error .wait)

/-- PAGE_MOVE_RESUME (R246). -/
def execPageMoveResume (s : State) : Host.Outcome State Fault Refusal :=
  .next (match s.evPageMove with
    | some m => if m.stage = 2 then s.resumePage m else s
    | none => s)

/-- PAGE_MOVE_ABANDON (R247): before the switch; `addr` is the address of the line that failed. -/
def execPageMoveAbandon (s : State) : Host.Outcome State Fault Refusal :=
  .next (match s.evPageMove with
    | some m => if m.stage < 2 then s.abandonMove m s.ev.addr else s
    | none => s)

/-! ### Agistment (R250 to R254, R419, R421) -/

namespace State

/-- Lease `idx` of the event. -/
def evLease (s : State) : Option AgistLease := s.hub.agist[s.ev.idx]?

/-- A lease this package holds as borrower: HELD or RETURNING. -/
def borrowed (a : AgistLease) : Bool := decide (5 ≤ a.state)

/-- A cleaning copy of a dirty lent page: the page is clean from the start of its copy; a page whose copy is under way
is copied to its backing (R250). -/
def cleanPage (s : State) (a : AgistLease) (i : Nat) : State :=
  if a.cleaning.contains i then
    let t := s.copyFrame (a.lender * 2 ^ 29 + a.lbase / 65536 + i) (s.hub.pkg * 2 ^ 29 + a.backing / 65536 + i)
    t.keepLease { a with cleaning := a.cleaning.filter (fun j => j ≠ i) }
  else if a.dirtyPages.contains i then
    s.keepLease { a with dirtyPages := a.dirtyPages.filter (fun j => j ≠ i), cleaning := a.cleaning ++ [i] }
  else s

/-- The last page is remapped: the demotion message, and the end of the lease (R225, R252). -/
def finishReturn (s : State) (a : AgistLease) : State := (s.demotionMessage a).endLease a

/-- A page is dirty, or its last bytes are not in its backing yet. -/
def dirtyLent (a : AgistLease) (i : Nat) : Bool := a.dirtyPages.contains i || a.cleaning.contains i

/-- One step of RETURNING: a page written back if it is dirty, and remapped; after the last one the lease ends. An access
under way performs on the backing, with the page's bytes (R226). A page whose cleaning copy is in flight is copied and counted as
a dirty one (R225; log 104). -/
def returnPage (s : State) (a : AgistLease) : Act State :=
  match a.placed with
  | [] => .ok (s.finishReturn a)
  | (i, asid, va) :: _ => do
    let dirty := dirtyLent a i
    let s := if dirty then s.copyFrame (lentFrame a i) (s.backingFrame a i) else s
    let s ← s.remapPage a i asid va
    let b := leaseRemapped (s.leaseNow a) i va dirty false
    let s := s.keepLease b
    .ok (if b.placed.isEmpty then s.finishReturn b else s)

/-- Every placed page remapped without a handshake; those that `bad` names are poisoned (R253, R254). -/
def remapAll (s : State) (a : AgistLease) (bad : Nat → Bool) : List (Nat × Nat × Nat) → Act State
  | [] => .ok s
  | (i, asid, va) :: t => do
    let s := if bad i then s.poisonFrame (s.backingFrame a i) else s
    let s ← s.remapPage a i asid va
    (s.keepLease (leaseRemapped (s.leaseNow a) i va false (bad i))).remapAll a bad t

/-- A place lies in the lent region of a lease. -/
def inLent (a : AgistLease) (p : Nat) : Bool :=
  decide (placeOf a.lender a.lbase ≤ p ∧ p < placeOf a.lender a.lbase + a.size)

/-- A borrower ends a lease whose lender is lost (R254): accesses that had left for the lender are lost. -/
def loseLender (s : State) (a : AgistLease) : Act State := do
  let s := (s.abandonPlacements a).loseAccesses (inLent a)
  let a := s.leaseNow a
  let s ← s.remapAll a (dirtyLent a) a.placed
  .ok (s.finishReturn (s.leaseNow a))

/-- Placements whose leaf has been switched to the lent frame stand as pages of the lease. -/
def standPlacements (s : State) (a : AgistLease) : State :=
  (s.hub.moves.filter (fun m => m.lease == some (a.lender * 2 ^ 32 + a.id) && m.stage == 2)).foldl resumePage s

/-- A restored borrower's hub remaps every page of a revoked lease and marks its lines poisoned (R253). -/
def restoreBorrower (s : State) (a : AgistLease) : Act State := do
  let s := ((s.standPlacements a).abandonPlacements a).loseAccesses (inLent a)
  let a := s.leaseNow a
  let s ← s.remapAll a (fun _ => true) a.placed
  .ok (s.endLease (s.leaseNow a))

/-- A package that the FENCE step has fenced, or that a circuit change has cut off (R254). -/
def cutOff (s : State) (pkg : Nat) : Bool := s.hub.fenced.contains pkg || !s.inPaddock pkg

/-- A lost or unreachable package (R253). -/
def lost (s : State) (pkg : Nat) : Bool := s.hub.failed.contains pkg || s.cutOff pkg

/-- The lent region zero-filled, back among the lender's free frames, and the lender's event (R252, R253). -/
def endZeroFill (s : State) (a : AgistLease) : State :=
  let lo := placeOf a.lender a.lbase
  let inside := fun (p : Nat) => decide (lo ≤ p ∧ p < lo + a.size)
  let s : State := { s with
    mem := s.mem.filter (fun e => !inside e.1), poison := s.poison.filter (fun l => !inside (64 * l)) }
  let s := if bit s.hub.ckdctl.toNat 0 then (lentFrames a).foldl (fun s f => s.markDirtyBit (65536 * f)) s else s
  let (src, s) := s.hubSource
  let s := s.hubMessage a.core a.dtag 7 src [a.id, bool1 a.revoked, a.notRemapped, 0, 0, 0]
  (s.giveFrames (lentFrames a)).freeLease a

/-- A take reaches the lender's hub, which is this package's, from a package of the paddock (R4): an offer with the same ID,
LBASE, SIZE and MWIN becomes LENT (R419). -/
def answerTake (s : State) (id lbase size mwin borrower : Nat) : State :=
  if !s.inPaddock borrower || borrower == s.hub.pkg then s
  else
  match s.hub.agist.find? (fun a => a.state == 1 && a.lender == s.hub.pkg && a.id == id && a.lbase == lbase &&
      a.size == size && a.mwin == mwin) with
  | some a => s.setLease { a with state := 2, borrower := borrower }
  | none => s

/-- The lender's answer to a take of a strand of this package (R419). -/
def takeAnswered (s : State) (k reason : Nat) : State :=
  match s.hub.takes.find? (fun t => t.hart == k) with
  | none => s
  | some t =>
    let u : State := { s with hub := { s.hub with takes := s.hub.takes.erase t } }
    let u := if t.orphan then u else u.setHart k { u.hartAt k with taken := (u.hartAt k).taken ++ [(t, reason)] }
    if reason = 0 then u.holdLease t.words t.recPlace
    else u.giveFrames (u.backingFrames (leaseOf t.words t.recPlace u.hub.pkg 5))

end State

/-- LEASE_PAGE_CLEAN (R250): page `aux` of lease `idx`. -/
def execLeasePageClean (s : State) : Host.Outcome State Fault Refusal :=
  .next (match s.evLease with
    | some a => if State.borrowed a then s.cleanPage a s.ev.aux else s
    | none => s)

/-- MUSTER_NOTICE_ARRIVE (R252): a borrower already in RETURNING ignores it (R421). -/
def execMusterNoticeArrive (s : State) : Host.Outcome State Fault Refusal :=
  .next (match s.evLease with
    | some a => if a.state = 5 then s.startReturn a else s
    | none => s)

/-- LEASE_PAGE_REMAP (R252): the next placed page of lease `idx`. -/
def execLeasePageRemap (s : State) : Host.Outcome State Fault Refusal :=
  finishEvent s (match s.evLease with
    | some a => if a.state = 6 then s.returnPage a else .error .wait
    | none => .error .wait)

/-- MUSTER_DONE_RECEIVED (R252, R421): a lender in MUSTERING, or still in LENT, begins to zero the region. -/
def execMusterDoneReceived (s : State) : Host.Outcome State Fault Refusal :=
  .next (match s.evLease with
    | some a => if a.state = 3 ∨ a.state = 2 then s.setLease { a with state := 4 } else s
    | none => s)

/-- ZERO_FILL_DONE (R252, R253). -/
def execZeroFillDone (s : State) : Host.Outcome State Fault Refusal :=
  .next (match s.evLease with
    | some a => if a.state = 4 then s.endZeroFill a else s
    | none => s)

/-- MUSTER_WINDOW_EXPIRE (R253): only of a borrower that has failed or is cut off. `val` is how many pages it has not
remapped. -/
def execMusterWindowExpire (s : State) : Host.Outcome State Fault Refusal :=
  .next (match s.evLease with
    | some a =>
      if a.state = 3 ∧ a.since + a.mwin * 1100 ≤ s.cycle ∧ s.lost a.borrower = true then
        s.setLease { a with state := 4, revoked := true, notRemapped := min s.ev.val (a.size / 65536) }
      else s
    | none => s)

/-- BORROWER_HUB_RESTORED (R253). -/
def execBorrowerHubRestored (s : State) : Host.Outcome State Fault Refusal :=
  finishEvent s (match s.evLease with
    | some a => if State.borrowed a then s.restoreBorrower a else .error .wait
    | none => .error .wait)

/-- LENDER_LOST (R254). -/
def execLenderLost (s : State) : Host.Outcome State Fault Refusal :=
  finishEvent s (match s.evLease with
    | some a => if State.borrowed a && s.cutOff a.lender then s.loseLender a else .error .wait
    | none => .error .wait)

/-- AGIST_TAKE_REQUEST (R419): at this package's hub as lender, of lease `idx`, LBASE `addr`, SIZE `val`, MWIN `aux`,
for the borrower `core`; or, where `list` names a hart of this package that waits in a take, at its lender's hub, which
accepts when `ok`. -/
def execAgistTakeRequest (s : State) : Host.Outcome State Fault Refusal :=
  .next (match s.ev.list with
    | k :: _ => s.takeAnswered k (if s.ev.ok then 0 else 4)
    | [] => s.answerTake s.ev.idx s.ev.addr s.ev.val s.ev.aux s.ev.core)

/-- LENDER_ANSWER_TIMEOUT (R419): the take of the event's strand has had no answer for 1 ms. -/
def execLenderAnswerTimeout (s : State) : Host.Outcome State Fault Refusal :=
  let k := s.evHart
  .next (match s.hub.takes.find? (fun t => t.hart == k) with
    | some t => if t.since + 1100000 ≤ s.cycle then s.takeAnswered k 5 else s
    | none => s)

/-! ### Flush markers and generations (R267, R270) -/

namespace State

/-- A packet sent to a place at `since` goes ahead of a flush marker on its plane (R267). -/
def aheadOf (s : State) (m : FlushMark) (place since : Nat) (r : Option Release) : Bool :=
  r.isNone && s.remote place && pkgOfPlace place == m.dest && s.planeOf place == some m.plane && decide (since ≤ m.since)

/-- A message of the package goes ahead of the markers to its destination: every message sent before them has arrived. -/
def messagesAhead (s : State) (m : FlushMark) : Bool :=
  s.cores.any (fun e => e.2.netWait.any (fun x => x.dest / 2 ^ 11 == m.dest && x.hart.isSome && decide (x.since ≤ m.since)))

/-- A flush marker arrives: every packet sent on its plane before it has arrived and performed. The last of a source's
markers is acknowledged (R267). -/
def markArrives (s : State) (m : FlushMark) : Act State :=
  if s.messagesAhead m then .error .wait
  else do
    let s ← s.drainWhere (fun t => s.aheadOf m t.place t.since t.release)
    let s ← s.settleAtomicsWhere (fun t => s.aheadOf m t.place t.since t.release)
    let marks := s.hub.flushMarks.erase m
    let last := !marks.any (fun x => x.hart == m.hart && x.dest == m.dest)
    .ok { s with hub := { s.hub with
      flushMarks := marks, flushAcks := if last then s.hub.flushAcks ++ [(m.hart, m.dest)] else s.hub.flushAcks } }

end State

/-- FLUSH_MARKER_ARRIVE (R267): marker `idx` arrives. -/
def execFlushMarkerArrive (s : State) : Host.Outcome State Fault Refusal :=
  finishEvent s (match s.hub.flushMarks[s.ev.idx]? with
    | none => .error .wait
    | some m => s.markArrives m)

/-- FLUSH_ACK_RETURN (R267): acknowledgement `idx` returns; its package leaves the hart's destination set. -/
def execFlushAckReturn (s : State) : Host.Outcome State Fault Refusal :=
  .next (match s.hub.flushAcks[s.ev.idx]? with
    | none => s
    | some (k, p) =>
      let h := s.hartAt k
      ({ s with hub := { s.hub with flushAcks := s.hub.flushAcks.erase (k, p) } } : State).setHart k
        { h with dests := h.dests.filter (fun q => q ≠ p) })

/-- MCG_GENERATION_RETIRE (R270): the oldest old generation of group `idx` leaves the switches, when no store is on its
way to one of its members. -/
def execMcgGenerationRetire (s : State) : Host.Outcome State Fault Refusal :=
  let g := s.groupAt s.ev.idx
  .next (match g.old with
    | [] => s
    | (_, members) :: t =>
      if s.stores.any (fun x => members.contains x.pkg) then s
      else { s with hub := { s.hub with groups := Store.set {} s.hub.groups s.ev.idx { g with old := t } } })

end Sys2Proof.Machine
end

