-- ==== Sys2Proof/Machine/VTime.lean ====
section
/-!
DEFINITION. Virtual-time instructions: events, rollback, commit and the core's floor state (R279 to R282, R313, R315,
R344 to R350).
-/

namespace Sys2Proof.Machine

/-! ### Agent descriptors (R313) -/

/-- The four words of an agent descriptor that the instructions maintain. -/
structure Agent where
  addr : Nat
  lvt : Nat
  chain : Nat
  last : Nat
  word : Nat
deriving DecidableEq, Repr

namespace Agent

/-- OPEN. -/
def opened (d : Agent) : Bool := bit d.word 63
/-- Bits [62:32] of the word at 0x18 are zero. -/
def clean (d : Agent) : Bool := bits d.word 32 31 == 0
/-- The count of uncommitted events. -/
def count (d : Agent) : Nat := d.word % 2 ^ 32

end Agent

namespace State

/-- A descriptor read and written as one atomic step (R313): its 64 bytes under R127. -/
def readAgent (s : State) (a : Nat) : Act (State × Agent) := do
  let s ← s.settleAccesses s.hart
  let (s, l) ← s.readBytes s.whoMe .block a 64 64
  let w := splitLanes 64 8 (ofBytes l)
  .ok (s, ⟨a, nth w 0, nth w 1, nth w 2, nth w 3⟩)

/-- The maintained words written back. -/
def writeAgent (s : State) (d : Agent) : Act State := do
  let (s, cs) ← s.check s.whoMe .block d.addr 32 8
  let s ← s.ownFirst s.hart cs
  s.writeOwn s.hart s.whoMe.user d.addr cs (wordBytes [d.lvt, d.chain, d.last, d.word])

/-- Checks 1 to 4 of R345: collecting mode, alignment, access, OPEN and the reserved bits. -/
def agentOperand (s : State) (a : Nat) : Act (State × Agent) := do
  s.refuseCollecting
  let (s, d) ← s.readAgent a
  if !d.clean then .error (.trap 0x08 a)
  else if d.opened then .error (.trapFree 0x08)
  else .ok (s, d)

/-! ### Events (R279, R345) -/

/-- The event opened (R279): VT, the frame, the RECV entry of the latched message, and OPEN. -/
def openEvent (s : State) (d : Agent) (t cap : Nat) : Act State := do
  let s := s.setMe { s.me with vt := BitVec.ofNat 64 t }
  let (s, _) ← s.openFrame cap d.chain 2 0 d.addr t
  let s ← (match s.me.latch with
    | some m => s.recordEntries [recvEntry m.words]
    | none => .ok s)
  s.writeAgent { d with word := d.word + 2 ^ 63 }

/-- `evbegin` (R345): the checks in order. Held by a poisoned fence, its accesses do not perform (R275). -/
def beginEvent (s : State) (a t : Nat) : Act State := do
  let (s, d) ← s.agentOperand a
  let cap := s.me.ecapdef.toNat
  if t = allOnes64 then .error (.trap 0x08 t)
  else if t < d.lvt then .error (.trap 0x0A d.lvt)
  else if !capacityOk cap then .error (.trap 0x08 cap)
  else do
    let s ← s.blockFree
    if s.me.latch.isSome ∧ cap < 5 then .error (.trap 0x09 cap)
    else if s.me.releaseHeld ≠ 0 then .ok s
    else s.openEvent d t cap

/-- `evend` (R279, R345); held by a poisoned fence, its accesses do not perform (R275). -/
def endEvent (s : State) : Act State := do
  let (s, h) ← s.frameOfKind 2
  let (s, d) ← s.readAgent h.ret
  if !d.clean then .error (.trap 0x08 d.addr)
  else if s.me.releaseHeld ≠ 0 then .ok s
  else do
    let s ← s.closeFrame h 0
    s.writeAgent { d with
      chain := h.handle, last := h.handle, lvt := s.me.vt.toNat, word := (d.count + 1) % 2 ^ 32 }

end State

/-- `evbegin` (R345). -/
def execEvbegin (a b _sc : Nat) (s : State) : Host.Outcome State Fault Refusal :=
  finish s (s.beginEvent (s.rs a) (s.rs b))

/-- `evend` (R345). -/
def execEvend (_sc : Nat) (s : State) : Host.Outcome State Fault Refusal := finish s s.endEvent

/-! ### Rollback (R280, R346, R347) -/

/-- The anti-message of a SENT entry (R280, R346). -/
def antiOf (asid slot colour : Nat) (e : Entry) : Msg :=
  let route := e.w0 % 2 ^ 37
  let x := nth e.words 2
  { ts := e.w1, hdr := headerWord (x % 2 ^ 22) (bits x 22 26) colour 1 (bits route 34 3) (bits route 26 8),
    payload := [0, 0, 0, 0, 0, 0], dest := route % 2 ^ 26, asid := asid, slot := slot }

namespace State

/-- The flock of the issuing strand drains for pre-emption (R398). -/
def draining (s : State) : Bool :=
  match s.flockOf s.hart with
  | some f => f.status == 2
  | none => false

/-- A message of a draining flock's `rollback` is written with the flock's image (R347). -/
def keepLate (s : State) (core : Nat) (m : Msg) : State :=
  match s.me.slot with
  | some n => s.updateFlock n s.me.flock (fun f => { f with late := f.late ++ [(core, m)] })
  | none => s

/-- An anti-message joins the outbound queue of the core that sent its positive; it counts as sent in the issuing core's
colour (R346, R347). A full queue is waited for, unless the flock drains: none. -/
def sendAnti (s : State) (e : Entry) : Option State :=
  let m := { antiOf s.me.asid (s.me.slot.getD 0) (s.colourOf s.coreNo s.me.slot) e with hart := some s.hart, since := s.cycle }
  let core := m.src % 2 ^ 11
  let count := fun (s : State) => (if m.timed && s.mySociety.isSome then s.countSent s.coreNo m.slot m.ts else s).noteDest s.hart m.pkg
  if (s.coreAt core).outbound.length < 32 then some (count (s.queueOut core m))
  else if s.draining then some (count (s.keepLate core m))
  else none

/-- A logged message enters the issuing core's inbox again (R280): it counts as sent and received at once (R314). A slot is
waited for, unless the flock drains: none. -/
def reinject (s : State) (e : Entry) : Option State :=
  let w := e.words.drop 2
  let m : Msg :=
    { ts := nth w 0, hdr := nth w 1, payload := w.drop 2, dest := s.endpoint s.coreNo, asid := s.me.asid,
      slot := s.me.slot.getD 0, reinjected := true }
  (s.enterInbox s.coreNo m true).or (if s.draining then some (s.keepLate s.coreNo m) else none)

/-- The messages of a rollback from one on: where one must wait, those before it have been made, and how many (R347). -/
def rollMessages (s : State) : Nat → List Entry → State × Option Nat
  | _, [] => (s, none)
  | i, e :: t =>
    match if e.kind = 3 then s.sendAnti e else s.reinject e with
    | some u => u.rollMessages (i + 1) t
    | none => (s, some i)

/-- The lists of a chain at or after a time, newest first (R280), with their messages: of each list the SENT entries and then
the RECV entries; and the chain left with its newest list's timestamp. -/
def rollLists (s : State) (t : Nat) : Nat → Nat → Act (State × List ListHead × List Entry × Nat × Nat)
  | 0, h => .ok (s, [], [], h, 0)
  | k + 1, h =>
    if h = 0 then .ok (s, [], [], 0, 0)
    else do
      let (s, x) ← s.openHandle h
      if x.ts < t then .ok (s, [], [], h, x.ts)
      else do
        let (s, es) ← s.entriesOf x
        let (s, ls, ms, r) ← s.rollLists t k x.base
        .ok (s, x :: ls, es.filter (fun e => e.kind == 3) ++ es.filter (fun e => e.kind == 4) ++ ms, r)

/-- Lists freed in turn. -/
def freeLists (s : State) : List ListHead → Act State
  | [] => .ok s
  | x :: t => do
    let s ← s.freeList x
    s.freeLists t

/-- `rollback` (R280, R347): the state, and the number of lists dropped. A message that finds no room makes it wait; what it
has sent and re-injected stays. Held by a poisoned fence, its accesses and its messages do not perform: none (R275). -/
def rollbackOp (s : State) (a t : Nat) : Act (State × Option Nat) := do
  let (s, d) ← s.agentOperand a
  if s.me.releaseHeld ≠ 0 then return (s, none)
  let (s, ls, ms, chain, ts) ← s.rollLists t s.arenaBlocks d.chain
  match s.rollMessages s.me.rolled (ms.drop s.me.rolled) with
  | (u, some i) => .error (.waitIn (u.setMe { u.me with rolled := i }))
  | (s, none) => do
    let s ← (s.setMe { s.me with rolled := 0 }).freeLists ls
    let s ← s.writeAgent { d with
      lvt := ts, chain := chain, last := chain, word := (d.count + (2 ^ 32 - ls.length % 2 ^ 32)) % 2 ^ 32 }
    .ok (s, some ls.length)

end State

/-- `rollback` (R280). -/
def execRollback (d a b _sc : Nat) (s : State) : Host.Outcome State Fault Refusal :=
  finish s (do
    let (s', n) ← s.rollbackOp (s.rs a) (s.rs b)
    .ok (match n with
      | some n => s'.longS d n
      | none => s'.long []))

/-! ### Commit (R282, R348) -/

namespace State

/-- The lists of a chain, newest first; a base that no longer names a list ends the chain. -/
def chainHeads (s : State) : Nat → Nat → Act (State × List ListHead)
  | 0, _ => .ok (s, [])
  | n + 1, h =>
    if h = 0 then .ok (s, [])
    else do
      let (s, x) ← s.openHandle h
      let (s, r) ← s.chainHeads n x.base
      .ok (s, x :: r)

/-- Lists applied oldest first and freed, each leaving the next newer list without a base (R282, R348). `newer` is the
list after the last of them. -/
def commitLists (s : State) (newer : Option ListHead) : List ListHead → Act (State × Option Stop)
  | [] => .ok (s, none)
  | x :: t => do
    let (s, es) ← s.entriesOf x
    let (s, stop) ← s.applyList x es
    match stop with
    | some e => .ok (s, some e)
    | none => do
      let s ← s.freeList x
      let s ← (match t.head?.or newer with
        | some y => s.lwrite (y.addr + 0x38) 8 0
        | none => .ok s)
      s.commitLists newer t

/-- `commit` (R282, R348): the state, and what stopped an apply. Held by a poisoned fence, its applies do not perform
(R275). -/
def commitOp (s : State) (a bound : Nat) : Act (State × Option Stop) := do
  let (s, d) ← s.agentOperand a
  if s.myFloor < bound then .error (.trap 0x08 bound)
  else if s.me.releaseHeld ≠ 0 then .ok (s, none)
  else do
    let (s, hs) ← s.chainHeads s.arenaBlocks d.chain
    let keep := hs.filter (fun h => decide (bound ≤ h.ts))
    let gone := (hs.filter (fun h => decide (h.ts < bound))).reverse
    let (s, stop) ← s.commitLists keep.getLast? gone
    match stop with
    | some e => .ok (s, some e)
    | none => do
      let h := (keep.head?.map ListHead.handle).getD 0
      let s ← s.writeAgent { d with chain := h, last := h, word := keep.length % 2 ^ 32 }
      .ok (s, none)

end State

/-- `commit` (R348). -/
def execCommit (a b _sc : Nat) (s : State) : Host.Outcome State Fault Refusal :=
  match s.commitOp (s.rs a) (s.rs b) with
  | .error x => finish s (.error x)
  | .ok (u, some x) => finish u (.error x)
  | .ok (u, none) => .next u

/-! ### The core's floor state (R315, R350) -/

namespace State

/-- The timestamp of a timed record of a launch in a deque (R35). -/
def recordTime (s : State) (p slot : Nat) : Option Nat :=
  let ts := s.readAt (p + 8) 8
  if recordSlotNo (splitLanes 64 8 (s.readAt p 64)) = slot ∧ ts ≠ allOnes64 then some ts else none

/-- The timestamp of a timed record of a launch on a ready queue that the launch unit does not track: a program built it
(R327). -/
def readyTime (s : State) (core slot : Nat) (e : Nat × Nat) : Option Nat :=
  if e.2 ≠ slot ∨ s.hub.conts.any (fun k => k.recAddr == e.1 && k.slot == slot) then none
  else
    match s.readBytes (s.whoLaunch (8 * core) slot) .read e.1 64 64 with
    | .ok (_, l) =>
      let ts := nth (splitLanes 64 8 (ofBytes l)) 1
      if ts = allOnes64 then none else some ts
    | .error _ => none

/-- Re-injected messages that wait before a core's inbox, or with a saved flock's image (R281, R347). -/
def lateMessages (s : State) (core slot : Nat) : List Msg :=
  (s.coreAt core).netWait.filter (fun m => m.reinjected) ++
    (match s.launchAt slot with
     | some l => l.flocks.flatMap (fun f => (f.late.filter (fun e => e.1 == core)).map (·.2))
     | none => [])

/-- A message in a core's inbox is of the launch's society, or waits for a handler of the launch (R281). -/
def ownMessage (s : State) (core slot : Nat) (m : Msg) : Bool :=
  (s.coreAt core).tableOwner == some slot || s.messageSlot core m == some slot

/-- Timestamps of the unprocessed timed work of a launch at a core (R281, R315): the inbox's timed messages and those that
wait to be re-injected, and the timed continuations it runs or that wait in its cluster's structures. -/
def unprocessed (s : State) (core slot : Nat) : List Nat :=
  let c := s.coreAt core
  let x := s.clusterAt (clusterOf core)
  (c.inbox.filter (fun m => m.msg.timed && s.ownMessage core slot m.msg)).map (fun m => m.msg.ts) ++
  ((s.lateMessages core slot).filter (fun m => m.timed)).map (fun m => m.ts) ++
  x.ready.filterMap (s.readyTime core slot) ++
  ((upFrom (8 * core) 4).map s.hartAt).filterMap (fun h =>
    if h.occ && h.slot == some slot && h.vt != BitVec.allOnes 64 then some h.vt.toNat else none) ++
  s.hub.conts.filterMap (fun k =>
    if k.slot = slot ∧ k.cluster = clusterOf core ∧ k.state ≠ .running ∧ k.vt ≠ BitVec.allOnes 64 then some k.vt.toNat
    else none) ++
  (upFrom c.dqHead c.dqCount).filterMap (fun i => s.recordTime (dequePlace core i) slot) ++
  (upFrom x.cdHead x.cdCount).filterMap (fun i => s.recordTime (clusterDequePlace (clusterOf core) i) slot)

/-- The lowest of them, all ones when there is none. -/
def lowestWork (s : State) (core slot : Nat) : Nat := (s.unprocessed core slot).foldl min allOnes64

/-- Sent minus received of a core in a colour, for the society of a launch (R315). -/
def floorDifference (s : State) (core slot colour : Nat) : Int :=
  (nth (s.tally core slot).sent colour : Int) - nth (s.tally core slot).received colour

end State

/-- `lqry` (R350). -/
def execLqry (d a : Nat) (s : State) : Host.Outcome State Fault Refusal :=
  let k := s.rs a
  let c := s.myCore
  let soc := s.mySociety.isSome
  let colour := s.colourOf s.coreNo s.me.slot
  finish s (if k = 0 then .ok (s.longS d (if soc then s.lowestWork s.coreNo (s.me.slot.getD 0) else allOnes64))
    else if k = 1 then .ok (s.longS d (if soc then wrap 64 (s.floorDifference s.coreNo (s.me.slot.getD 0) colour) else 0))
    else if k = 2 then .ok (s.longS d (c.inbox.filter (fun m => m.msg.timed)).length)
    else if k = 3 then .ok (s.longS d colour)
    else .error (.trap 0x08 k))

end Sys2Proof.Machine
end

