-- ==== Sys2Proof/Machine/TimeEvents.lean ====
section
/-!
DEFINITION. Steps of the fabric and the inboxes, of the floor units, of the wait tables and of hang detection (R99, R277,
R278, R281, R285, R289, R298, R312 to R317, R324, R331).
-/

namespace Sys2Proof.Machine

/-! ### Messages (R277, R278, R285, R289, R324) -/

namespace State

/-- The launch that holds a core's handler table. -/
def tableLaunch (s : State) (core : Nat) : Option Launch := (s.coreAt core).tableOwner.bind s.launchAt

/-- The destination accepts a message (R289, R324, R393): its table is held by a launch of the sender's ASID that is not
aborted, and some entry takes it. -/
def acceptsMessage (s : State) (core : Nat) (m : Msg) : Bool :=
  match s.tableLaunch core with
  | none => false
  | some l =>
    !l.himg.isEmpty && !l.aborted && (4096 ≤ m.asid || m.asid == l.asid) &&
      (if m.asid = floorAsid then (s.handlerEntry core m.tag).valid else (s.reachedEntry core m.tag).isSome)

/-- A message reaches a core: it is discarded, or enters the inbox; none where it finds no slot it may use (R285). -/
def arrive (s : State) (core : Nat) (m : Msg) : Option State :=
  if s.acceptsMessage core m then
    (s.enterInbox core m (m.serial == 0 || m.reinjected)).map (fun t => t.countReceived core m)
  else some (s.discardMessage core m)

/-- Message `i` before a core arrives, when no earlier one of its source waits (R277). -/
def arriveAt (s : State) (core i : Nat) (anti : Bool) : State :=
  let l := (s.coreAt core).netWait
  match l[i]? with
  | none => s
  | some m =>
    if m.anti != anti || (l.take i).any (fun x => x.src == m.src) then s
    else
      match s.arrive core m with
      | none => s
      | some t => t.setCore core { t.coreAt core with netWait := (t.coreAt core).netWait.eraseIdx i }

/-- A message from another package of the paddock comes to the network before a core: its eight words, and its sender's
ASID. A packet of a package outside the paddock is refused (R4). -/
def fromFabric (s : State) (core asid : Nat) (w : List Nat) : State :=
  let m : Msg :=
    { ts := nth w 0, hdr := nth w 1, payload := w.drop 2, dest := s.endpoint core, asid := asid, slot := noSlot }
  let c := s.coreAt core
  if s.inPaddock (m.src / 2 ^ 11) ∧ m.src / 2 ^ 11 ≠ s.hub.pkg then s.setCore core { c with netWait := c.netWait ++ [m] }
  else s

/-- A message leaves the head of a core's outbound queue (R322): for a core of this package it comes before that core;
for another package it has left this one, against a credit of its link (R428). -/
def depart (s : State) (core : Nat) : State :=
  match (s.coreAt core).outbound with
  | [] => s
  | m :: t =>
    if s.flowHeld .message m.pkg then s
    else
    let s := s.setCore core { s.coreAt core with outbound := t }
    if m.pkg = s.hub.pkg then
      s.setCore m.core { s.coreAt m.core with netWait := (s.coreAt m.core).netWait ++ [m] }
    else s

end State

/-- MESSAGE_ARRIVE (R285): message `idx` before the event's core; or one of another package, whose words `list` holds,
comes before it. -/
def execMessageArrive (s : State) : Host.Outcome State Fault Refusal :=
  .next (if s.ev.list.length = 8 then s.fromFabric s.ev.core s.ev.val s.ev.list else s.arriveAt s.ev.core s.ev.idx false)

/-- ANTI_MESSAGE_ARRIVE (R278): anti-message `idx` before the event's core. -/
def execAntiMessageArrive (s : State) : Host.Outcome State Fault Refusal := .next (s.arriveAt s.ev.core s.ev.idx true)

/-- MESSAGE_DEPART (R322). -/
def execMessageDepart (s : State) : Host.Outcome State Fault Refusal := .next (s.depart s.ev.core)

/-! ### Waiting continuations (R99, R281, R331) -/

namespace State

/-- A waiting continuation whose condition is met is placed on its ready queue (R327). -/
def wakeCont (s : State) (c : Cont) : State := s.makeReady c.recAddr c.slot (16 * c.cluster)

/-- The word that a `waitw` watches is read again (R331). A read that fails changes nothing. -/
def rereadWait (s : State) (c : Cont) : State :=
  match c.waits with
  | some (.word a v) =>
    (match s.readBytes (s.whoLaunch (128 * c.cluster) c.slot) .read a 8 8 with
     | .ok (t, l) => if ofBytes l = v.toNat then t else t.wakeCont c
     | .error _ => s)
  | _ => s

/-- Continuation `idx` of the event. -/
def evCont (s : State) : Option Cont :=
  match s.hub.conts[s.ev.idx]? with
  | some c => if c.state = .waiting then some c else none
  | none => none

end State

/-- SLEEP_EXPIRE (R99). -/
def execSleepExpire (s : State) : Host.Outcome State Fault Refusal :=
  .next (match s.evCont with
    | some c => (match c.waits with
      | some (.sleeping t) => if t ≤ s.cycle then s.wakeCont c else s
      | _ => s)
    | none => s)

/-- WAITW_TRIGGER (R331): a write to the watched line has performed in the package. -/
def execWaitwTrigger (s : State) : Host.Outcome State Fault Refusal :=
  .next (match s.evCont with
    | some c => s.rereadWait c
    | none => s)

/-- WAITW_POLL (R331): the poll of a word whose home is outside the package, or at tier 4 or 5. -/
def execWaitwPoll (s : State) : Host.Outcome State Fault Refusal :=
  .next (match s.evCont with
    | some c => s.rereadWait c
    | none => s)

/-! ### The floor (R281, R314 to R317) -/

namespace State

/-- A core keeps something for the society of a launch, or holds a timed message of it. -/
def keepsFor (slot : Nat) (c : Core) : Bool :=
  c.tallies.any (fun t => t.1 == slot) || c.inbox.any (fun m => m.msg.timed && m.msg.slot == slot)

/-- The cores that report for a launch's society (R314): those of its flocks; and those of other launches that its messages
have reached, so that every message is counted that has been sent (log 91). -/
def societyCores (s : State) (slot : Nat) : List Nat :=
  match s.launchAt slot with
  | none => []
  | some l =>
    let own := (l.flocks.filter (fun f => decide (1 ≤ f.status))).flatMap (fun f => f.strands.map (· / 8))
    (own ++ (s.cores.filter (fun e => keepsFor slot e.2)).map (·.1)).eraseDups

/-- The timestamps that saved flocks hold (R401). -/
def savedTimes (s : State) (slot : Nat) : List Nat :=
  match s.launchAt slot with
  | none => []
  | some l => (l.flocks.filter (fun f => f.status == 3)).flatMap (fun f => match f.images.getLast? with
    | some i => (i.harts.filter (fun e => e.2.occ && e.2.vt != BitVec.allOnes 64)).map (fun e => e.2.vt.toNat)
    | none => [])

/-- The sum of the differences in a colour (R315). -/
def floorSum (s : State) (slot colour : Nat) : Int :=
  ((s.societyCores slot).map (fun c => s.floorDifference c slot colour)).foldl (· + ·) 0

/-- The lower of the two minima that the cores report (R315). -/
def floorMin (s : State) (slot : Nat) : Nat :=
  ((s.societyCores slot).map (fun c => min (s.lowestWork c slot) (s.tally c slot).lowestSent) ++ s.savedTimes slot).foldl
    min allOnes64

/-- What every core of a society keeps for it changed. -/
def forCores (s : State) (slot : Nat) (g : Tally → Tally) : State :=
  (s.societyCores slot).foldl (fun s c => s.setTally c slot (g (s.tally c slot))) s

/-- A round starts: the colour flips, and each core's lowest-sent value is reset (R315). All cores switch in this one step
(log 105). -/
def startRound (s : State) (x : Society) : State :=
  let c := 1 - x.colour
  let s := s.forCores x.slot (fun k => { k with colour := c, lowestSent := allOnes64 })
  s.updateSociety x.slot (fun y => { y with colour := c, inRound := true, roundAt := s.cycle, reports := 1 })

/-- Continuations that wait for a floor now reached (R281). -/
def releaseFloor (s : State) (slot floor : Nat) : State :=
  (s.hub.conts.filter (fun c => c.slot == slot && c.state == .waiting && (match c.waits with
    | some (.floor b) => decide (b.toNat ≤ floor)
    | _ => false))).foldl wakeCont s

/-- The floor message (R317), to each core whose entry 255 is valid; with none there is no such message. -/
def floorMessage (s : State) (x : Society) (floor : Nat) : State :=
  let to_ := (s.societyCores x.slot).filter (fun c => (s.coreAt c).tableOwner == some x.slot && (s.handlerEntry c 255).valid)
  if x.delta = BitVec.allOnes 64 ∨ floor < x.lastMsg.toNat + x.delta.toNat ∨ to_.isEmpty then s
  else
    let s := to_.foldl (fun s c =>
      let k := s.coreAt c
      let m : Msg :=
        { ts := allOnes64, hdr := headerWord 0 (s.endpoint c) (s.colourOf c (some x.slot)) 0 6 255,
          payload := [floor, x.lastMsg.toNat, x.id, 0, 0, 0], dest := s.endpoint c, asid := floorAsid, slot := x.slot }
      s.setCore c { k with netWait := k.netWait ++ [m] }) s
    s.updateSociety x.slot (fun y => { y with lastMsg := BitVec.ofNat 64 floor })

/-! ### Hangs (R297, R298) -/

/-- A continuation of the launch waits in the wait table (R297). -/
def inWaitTable (c : Cont) : Bool :=
  c.state == .suspended || (c.state == .waiting && (match c.waits with
    | some (.sleeping _) => false
    | _ => true))

/-- A message of the launch (R298). -/
def messageOf (s : State) (slot : Nat) (m : Msg) : Bool :=
  if m.pkg = s.hub.pkg then
    (match (s.coreAt m.core).tableOwner with
     | some n => n == slot
     | none => m.slot == slot && decide (m.asid < 4096))
  else m.slot == slot

/-- Continuations of the launch that wait. -/
def waitingCount (s : State) (slot : Nat) : Nat :=
  (s.hub.conts.filter (fun c => c.slot == slot && inWaitTable c)).length +
    (s.harts.filter (fun e => e.2.occ && e.2.slot == some slot && e.2.spawnWait)).length

/-- The launch is hung (R298). -/
def hung (s : State) (slot : Nat) : Bool :=
  decide (0 < s.waitingCount slot) &&
  s.harts.all (fun e => !e.2.occ || e.2.slot != some slot || e.2.spawnWait) &&
  s.hub.conts.all (fun c => c.slot != slot || c.state == .running || inWaitTable c) &&
  s.cores.all (fun e =>
    (upFrom 0 e.2.dqCount).all (fun j => recordSlotNo (s.recordAt (dequePlace e.1 (e.2.dqHead + j))) != slot) &&
    (e.2.tableOwner != some slot || e.2.inbox.isEmpty) &&
    (e.2.netWait ++ e.2.outbound).all (fun m => !s.messageOf slot m) &&
    e.2.moves.all (fun m => m.launch != some slot)) &&
  s.clusters.all (fun e =>
    (upFrom 0 e.2.cdCount).all (fun j => recordSlotNo (s.recordAt (clusterDequePlace e.1 (e.2.cdHead + j))) != slot) &&
    e.2.ready.all (fun r => r.2 != slot)) &&
  s.atomics.all (fun t => t.slot != some slot || t.long.isSome) &&
  (match s.launchAt slot with
   | some l => !l.aborted && l.flocks.all (fun f => f.status != 3 && f.late.isEmpty)
   | none => false)

/-- A floor round's test of a launch with a society (R298). -/
def testHang (s : State) (slot : Nat) : State :=
  match s.launchAt slot with
  | some l => s.setLaunch slot (some { l with hangRuns := if s.hung slot then l.hangRuns + 1 else 0 })
  | none => s

/-- A round ends: the new floor, the old colour's counts reset, the continuations and messages that the floor releases,
and the test for a hang (R281, R298, R315 to R317). -/
def endRound (s : State) (x : Society) : State :=
  let old := 1 - x.colour
  let low := s.floorMin x.slot
  let started := x.started || decide (low < allOnes64)
  let floor := if started then max x.floor.toNat low else x.floor.toNat
  let s := s.forCores x.slot (fun k => { k with sent := setNth k.sent old 0, received := setNth k.received old 0 })
  let s := s.updateSociety x.slot (fun y =>
    { y with floor := BitVec.ofNat 64 floor, started := started, inRound := false, rounds := y.rounds + 1 })
  ((s.releaseFloor x.slot floor).floorMessage x floor).testHang x.slot

/-- Society `idx` of the event. -/
def evSociety (s : State) : Option Society := s.hub.societies[s.ev.idx]?

end State

/-- FLOOR_ROUND_START (R315, R316): every FLOORINT, in nanoseconds at 1.1 cycles each. -/
def execFloorRoundStart (s : State) : Host.Outcome State Fault Refusal :=
  .next (match s.evSociety with
    | some x => if x.inRound = false ∧ x.roundAt + x.interval * 11 / 10 ≤ s.cycle then s.startRound x else s
    | none => s)

/-- FLOOR_REPORT_REPEAT (R315): while the sum is not zero, the cores report again. -/
def execFloorReportRepeat (s : State) : Host.Outcome State Fault Refusal :=
  .next (match s.evSociety with
    | some x =>
      if x.inRound = true ∧ s.floorSum x.slot (1 - x.colour) ≠ 0 then
        s.updateSociety x.slot (fun y => { y with reports := y.reports + 1 })
      else s
    | none => s)

/-- FLOOR_ROUND_END (R315). -/
def execFloorRoundEnd (s : State) : Host.Outcome State Fault Refusal :=
  .next (match s.evSociety with
    | some x => if x.inRound = true ∧ s.floorSum x.slot (1 - x.colour) = 0 then s.endRound x else s
    | none => s)

namespace State

/-- The launch has been hung for two rounds of its society, or for 64 µs without one (R298). -/
def hangDue (s : State) (slot : Nat) (l : Launch) : Bool :=
  s.hung slot &&
    (if l.society.isSome then decide (2 ≤ l.hangRuns)
     else match l.hungSince with
      | some t => decide (t + 70400 ≤ s.cycle)
      | none => false)

/-- The hang handler starts on an idle strand of the launch, with a record slot by which it is known (R298). It starts without
a record: its LEVEL of 0 is the model's choice (log 83). -/
def startHang (s : State) (slot : Nat) (l : Launch) (k : Nat) : Act State := do
  let n := s.waitingCount slot
  let h := s.hartAt k
  let (s, a) ← (({ s with hart := k } : State).setHart k { h with record := none }).recordSlot
  let p : Pick := { pc := l.onhang / 8 * 8, ts := allOnes64, saved := [(1, 0x12), (2, n)], cls := 7 }
  let g := h.pickUp l.frm p
  let g : Hart := { g with record := some a, level := 0, latch := none, heldAnti := none, handlerTag := none }
  let c : Cont :=
    { recAddr := a, slot := slot, flock := h.flock, cluster := clusterOf (k / 8), asid := h.asid, state := .running,
      hangHandler := true }
  .ok (((s.setHart k g).trackCont c).setLaunch slot
    (some { l with hungBefore := true, hangRuns := 0, hungSince := none }))

/-- A hang recorded when HANG status results (R386): cause 0x12 with address 0; the word and the strand that its record
names are free values (log 4). -/
def recordHang (s : State) (slot : Nat) : State :=
  let (pc, s) := s.freeValue
  let (at_, s) := s.freeValue
  s.recordIn (some slot)
    { cause := 0x12, async := false, defer := false, abort := false, pc := pc.toNat, addr := 0, progress := 0,
      core := bits at_.toNat 0 11, strand := bits at_.toNat 11 2, drover := bit at_.toNat 13, flock := bits at_.toNat 32 32 }

/-- A hang that is due (R298): the handler starts, or the launch ends with HANG status. -/
def hangNow (s : State) (slot : Nat) (l : Launch) : Act State :=
  if l.onhang = 0 ∨ l.hungBefore = true then
    .ok (((s.setLaunch slot (some { l with hang := true })).recordHang slot).abortLaunch slot)
  else
    match (l.flocks.filter (fun f => f.status == 1)).flatMap (fun f => f.strands) |>.find? (fun k => s.eligible k slot) with
    | some k => (s.startHang slot l k).map (fun t => { t with hart := s.hart })
    | none => .error .wait

end State

/-- HANG_DETECT (R298): the launch of slot `idx`. -/
def execHangDetect (s : State) : Host.Outcome State Fault Refusal :=
  finishEvent s (match s.launchAt s.ev.idx with
    | some l => if s.hangDue s.ev.idx l then s.hangNow s.ev.idx l else .error .wait
    | none => .error .wait)

end Sys2Proof.Machine
end

