-- ==== Sys2Proof/Machine/Launch.lean ====
section
/-!
DEFINITION. Host queues and their packets (R352 to R364), the launch record (R365 to R370), and the stages of a launch up
to placement (R371, R372, R240, R304, R312, R343, R379).
-/

namespace Sys2Proof.Machine

/-! ### Packets (R353, R354) -/

namespace State

/-- The packet obeys R353 and R354: its eight words. -/
def packetOk (w : List Nat) : Bool :=
  let z := fun (i : Nat) => nth w i == 0
  let type := bits (nth w 0) 0 8
  nth w 0 / 2 ^ 11 == 0 && nth w 1 % 8 == 0 &&
    (if type = 1 then nth w 2 % 256 == 0 && nth w 5 / 2 ^ 32 == 0 && z 6 && z 7
     else if type = 2 then
       nth w 2 % 64 == 0 && nth w 3 % 64 == 0 && nth w 4 % 64 == 0 && decide (1 ≤ nth w 4 ∧ nth w 4 ≤ 2 ^ 32) &&
         nth w 5 % 256 == 0 && z 6 && z 7
     else if type = 3 then ((w.drop 2).take 5).all (fun a => a % 8 == 0) && z 7
     else if type = 4 then decide (nth w 3 ≤ 1) && z 4 && z 5 && z 6 && z 7
     else if type = 5 then (w.drop 2).all (· == 0)
     else false)

/-- Where packet `i` of a queue lies (R352). -/
def packetAddr (x : Queue) (i : Nat) : Nat := (x.rbase + 64 * (i % 2 ^ x.logn)) % 2 ^ 64

/-- The packet at the read index of a queue may be read: the queue is ACTIVE and enabled, and the index is below the
doorbell value (R355, R362). -/
def queueRuns (x : Queue) : Bool := x.en && !x.error && decide (x.ridx < x.dbval)

/-- A packet whose words are known may start beside those of its queue that have started (R355). -/
def startsNow (s : State) (q : Nat) (w : List Nat) : Bool :=
  let mine := s.hub.packets.filter (fun p => p.queue == q)
  (!bit (nth w 0) 8 || mine.isEmpty) && mine.all (fun p => p.type != 3)

/-- The read index moves past a packet that starts. -/
def advance (s : State) (q : Nat) : State :=
  let x := s.queueAt q
  s.setQueue q { x with ridx := x.ridx + 1 }

/-! ### Completion (R356, R359) -/

/-- A step that reads and writes a signal word: one place, which is no multicast page (R131). -/
def signalChunk (s : State) (asid a : Nat) : Act (State × Chunk) := do
  let (s, cs) ← s.openRead (s.whoHub asid) (.load 8) a 8 8
  let (s, _) ← s.check (s.whoHub asid) .store a 8 8
  match cs with
  | [c] => if c.type = 1 ∧ c.leaf ≠ 0 then .error (.trap 0x07 a) else .ok (s, c)
  | _ => .error (.trap 0x07 a)

/-- `v` added to a signal, or stored, as one single-copy-atomic step at .sy (R356). A store passes R127 as a store. -/
def writeSignal (s : State) (asid a v : Nat) (store : Bool) : Act State :=
  if store then s.hubWrite asid a (bytesOf 8 v)
  else do
    let (s, c) ← s.signalChunk asid a
    if s.hubHeld c then .error .wait
    else do
      let old ← s.readChunk c
      s.performChunk false c (bytesOf 8 ((ofBytes old + v) % 2 ^ 64))

/-- Minus one in 64 bits. -/
def minusOne : Nat := 2 ^ 64 - 1

/-- A packet of a queue completes (R356, R359): in error with a cause and an address, or not; its signal is written, after
every write of the hub before it (R358), and it leaves the packets under way. -/
def completePacket (s : State) (q idx : Nat) (w : List Nat) (err : Option (Nat × Nat)) : Act State :=
  if s.stores.any (fun t => t.hart == hubAgent) then .error .wait
  else
  let s : State := { s with hub := { s.hub with packets := s.hub.packets.filter (fun p =>
    !(p.queue == q && p.index == idx)) } }
  let s := match err with
    | some (c, a) => s.queueError q idx c a
    | none => s
  let sig := nth w 1
  if sig = 0 then .ok s
  else
    let r := match err with
      | some _ => s.writeSignal (s.queueAt q).asid sig minusOne true
      | none =>
        if bits (nth w 0) 0 8 = 4 then s.writeSignal (s.queueAt q).asid sig (nth w 2) (nth w 3 == 1)
        else s.writeSignal (s.queueAt q).asid sig minusOne false
    match r with
    | .ok t => .ok t
    | .error e =>
      match e.trapped s with
      | some (t, _, _) => .ok (t.queueError q idx 0x42 sig)
      | none => .error e

/-- The packet at a queue's read index: its words when one of a type starts now. It is read once, as it starts (R352): an
earlier BARRIER holds it unread, and one that must wait for earlier packets has no effect. One that cannot be read, or is
malformed, puts the queue in ERROR and does not start (R359). -/
def headPacket (s : State) (q type : Nat) : Act (State × Option (List Nat)) :=
  let x := s.queueAt q
  let mine := s.hub.packets.filter (fun p => p.queue == q)
  if queueRuns x && mine.all (fun p => p.type != 3) then
    let a := packetAddr x x.ridx
    match s.hubRead x.asid a 64 64 with
    | .error e =>
      (match e.trapped s with
       | some (t, c, _) => .ok (t.queueError q x.ridx c a, none)
       | none => .error e)
    | .ok (t, l) =>
      let w := splitLanes 64 8 (ofBytes l)
      if bit (nth w 0) 8 && !mine.isEmpty then .error .wait
      else if !packetOk w then .ok (t.queueError q x.ridx 0x41 a, none)
      else if bits (nth w 0) 0 8 = type ∧ t.startsNow q w = true then .ok (t, some w)
      else .error .wait
  else .error .wait

/-- A packet of a type starts (R355): `go` has the state with the read index past it, its index and its words. -/
def startPacket (s : State) (q type : Nat) (go : State → Nat → List Nat → Act State) : Act State := do
  let (s, w) ← s.headPacket q type
  match w with
  | none => .ok s
  | some w => go (s.advance q) (s.queueAt q).ridx w

/-- A packet enters those under way. -/
def addPacket (s : State) (p : Packet) : State := { s with hub := { s.hub with packets := s.hub.packets ++ [p] } }

/-- A packet under way replaced. -/
def setPacket (s : State) (p : Packet) : State :=
  { s with hub := { s.hub with packets := s.hub.packets.map (fun x =>
    if x.queue = p.queue ∧ x.index = p.index then p else x) } }

/-- Packet `idx` of the event, when it is of a type. -/
def evPacket (s : State) (type : Nat) : Option Packet :=
  (s.hub.packets[s.ev.idx]?).bind (fun p => if p.type = type then some p else none)

end State

/-- DOORBELL_WRITE (R352, R359, R363): the value of the event to queue `idx`. -/
def execDoorbellWrite (s : State) : Host.Outcome State Fault Refusal :=
  .next (s.doorbell (s.ev.idx % 1024) (s.ev.val % 2 ^ 64))

/-- QUEUE_RESET (R364). -/
def execQueueReset (s : State) : Host.Outcome State Fault Refusal :=
  let q := s.ev.idx % 1024
  let x := s.queueAt q
  .next (s.setQueue q (State.writeQueueWord x (State.queueWord x + 2 ^ 63)))

/-- PACKET_NOP (R355, R356). -/
def execPacketNop (s : State) : Host.Outcome State Fault Refusal :=
  let q := s.ev.idx
  finishEvent s (s.startPacket q 5 (fun s i w => s.completePacket q i w none))

/-- PACKET_SIGNAL (R355, R356). -/
def execPacketSignal (s : State) : Host.Outcome State Fault Refusal :=
  let q := s.ev.idx
  finishEvent s (s.startPacket q 4 (fun s i w => s.completePacket q i w none))

/-! ### Barriers (R357) -/

namespace State

/-- What a pass over the pending signals of a barrier found: those still pending, or the error that ends it. -/
def readSignals (s : State) (asid : Nat) : List Nat → Act (State × List Nat × Option (Nat × Nat))
  | [] => .ok (s, [], none)
  | a :: t =>
    match s.readBytes (s.whoHub asid) (.load 8) a 8 8 with
    | .error e =>
      (match e.trapped s with
       | some (t, c, _) => .ok (t, [], some (c, a))
       | none => .error e)
    | .ok (u, l) =>
      let x := ofBytes l
      if 2 ^ 63 ≤ x then .ok (u, [], some (0x40, a))
      else do
        let (u, rest, e) ← u.readSignals asid t
        .ok (u, if x = 0 then rest else a :: rest, e)

/-- A pass of a barrier over its pending signals (R357). -/
def barrierPass (s : State) (p : Packet) : Act State := do
  let (s, pending, err) ← s.readSignals (s.queueAt p.queue).asid p.pending
  match err with
  | some e => s.completePacket p.queue p.index p.words (some e)
  | none =>
    if pending.isEmpty then s.completePacket p.queue p.index p.words none
    else .ok (s.setPacket { p with pending := pending })

end State

/-- PACKET_BARRIER (R357): it starts, and reads each signal it names. -/
def execPacketBarrier (s : State) : Host.Outcome State Fault Refusal :=
  let q := s.ev.idx
  finishEvent s (s.startPacket q 3 (fun s i w =>
    let p : Packet :=
      { queue := q, index := i, type := 3, words := w, pending := ((w.drop 2).take 5).filter (· ≠ 0) }
    (s.addPacket p).barrierPass p))

/-- BARRIER_SIGNAL_READ (R357): the pending signals of packet `idx` are read again. -/
def execBarrierSignalRead (s : State) : Host.Outcome State Fault Refusal :=
  finishEvent s (match s.evPacket 3 with
    | some p => s.barrierPass p
    | none => .error .wait)

/-! ### Copies (R361, R413) -/

/-- A LEASE word (R368). -/
def leaseOfWord (w : Nat) : Lease :=
  { base := bits w 0 39 * 65536, size := bits w 39 19 * 65536, maxTier := bits w 58 3, r := bit w 61, w := bit w 62,
    x := bit w 63 }

namespace State

/-- A COPY starts: its lease words are read, or it completes in error (R361). -/
def startCopy (s : State) (q i : Nat) (w : List Nat) : Act State :=
  let p : Packet := { queue := q, index := i, type := 2, words := w }
  match s.hubRead (s.queueAt q).asid ((nth w 5 + 0x80) % 2 ^ 64) 128 8 with
  | .ok (t, l) =>
    .ok (t.addPacket { p with leases := ((splitLanes 64 16 (ofBytes l)).filter (· ≠ 0)).map leaseOfWord })
  | .error e =>
    match e.trapped s with
    | some (t, c, a) => (t.addPacket p).completePacket q i w (some (c, a))
    | none => .error e

/-- The checkpoint-dirty bit of a source page is cleared as its copy starts (R402, R413). -/
def clearDirty (s : State) (p : Nat) : State :=
  let c := s.hub.ckdctl.toNat
  let loc := localOfPlace p
  let n := if localTier loc = 1 then some (loc / 65536)
    else if localTier loc = 3 then some (2 ^ 23 + (loc - 0x40000000000) / 65536) else none
  if bit c 2 && pkgOfPlace p == s.hub.pkg then
    match n with
    | some n =>
      let at_ := placeOf s.hub.pkg (bits c 16 29 * 65536 + n / 8)
      s.setByte at_ (s.byteAt at_ &&& (255 - 2 ^ (n % 8)))
    | none => s
  else s

/-- A COPY as the maker of its accesses (R361). -/
def whoCopy (s : State) (p : Packet) : Who := { s.whoHub (s.queueAt p.queue).asid with leases := some p.leases }

/-- The source and the destination of a COPY's next line. -/
def copySrc (p : Packet) : Nat := (nth p.words 2 + 64 * p.lines) % 2 ^ 64
def copyDst (p : Packet) : Nat := (nth p.words 3 + 64 * p.lines) % 2 ^ 64

/-- The next line of a COPY read whole (R361); the dirty bit of a page is cleared as its copy starts (R402). -/
def copyRead (s : State) (p : Packet) : Act (State × List Nat) := do
  let (s, cs) ← s.openRead (s.whoCopy p) .moveRead (copySrc p) 64 64
  let s := if p.lines = 0 ∨ copySrc p % 65536 = 0 then cs.foldl (fun s c => s.clearDirty c.place) s else s
  let l ← s.readChunks cs
  .ok (s, l)

/-- The line written at its destination: a lost home or path fails it (R396), a full dirty quota holds it (R250). -/
def copyWrite (s : State) (p : Packet) (l : List Nat) : Act State := do
  let (s, cs) ← s.check (s.whoCopy p) .moveWrite (copyDst p) 64 64
  if cs.any (fun c => (s.replicas c).any s.homeLost) then .error (.trap 0x0E (copyDst p))
  else if cs.any s.hubHeld then .error .wait
  else s.performChunks false cs l

/-- A COPY that stops by a fault completes in error (R361). -/
def copyFails (s : State) (p : Packet) (e : Stop) : Act State :=
  match e.trapped s with
  | some (t, c, a) => t.completePacket p.queue p.index p.words (some (c, a))
  | none => .error e

/-- A line that has been read, written: the COPY goes on, or completes. -/
def copyStep (s : State) (p : Packet) (l : List Nat) : Act State :=
  match s.copyWrite p l with
  | .ok t =>
    if 64 * (p.lines + 1) < nth p.words 4 then .ok (t.setPacket { p with lines := p.lines + 1 })
    else t.completePacket p.queue p.index p.words none
  | .error e => s.copyFails p e

/-- Another COPY under way whose next line is the same of the same address space: a drover makes both copies from one read
(R402). -/
def copyTwin (s : State) (p : Packet) : Option Packet :=
  s.hub.packets.find? (fun x => x.type == 2 && !(x.queue == p.queue && x.index == p.index) &&
    (s.queueAt x.queue).asid == (s.queueAt p.queue).asid && copySrc x == copySrc p)

/-- The next line of a COPY, and of one that reads the same line. The other goes on by itself where it may not read or write
now. -/
def copyLine (s : State) (p : Packet) : Act State :=
  match s.copyRead p with
  | .error e => s.copyFails p e
  | .ok (t, l) => do
    let u ← t.copyStep p l
    match s.copyTwin p with
    | some x =>
      (match u.check (u.whoCopy x) .moveRead (copySrc x) 64 64 with
       | .ok (v, _) => (match v.copyStep x l with
         | .ok r => .ok r
         | .error _ => .ok u)
       | .error _ => .ok u)
    | none => .ok u

end State

/-- PACKET_COPY (R361): it starts on a free one of the eight bulk drovers. -/
def execPacketCopy (s : State) : Host.Outcome State Fault Refusal :=
  let q := s.ev.idx
  finishEvent s (if 8 ≤ (s.hub.packets.filter (fun p => p.type == 2)).length then .error .wait
    else s.startPacket q 2 (fun s i w => s.startCopy q i w))

/-- COPY_LINE (R361): the next line of packet `idx`. -/
def execCopyLine (s : State) : Host.Outcome State Fault Refusal :=
  finishEvent s (match s.evPacket 2 with
    | none => .error .wait
    | some p => (s.eccAddr none State.hubAgent (s.queueAt p.queue).asid (State.copySrc p) 64).copyLine p)

/-! ### The launch record (R365 to R369) -/

/-- The LEVEL words of a record (R365). -/
def levelWords (w : List Nat) : List Nat := splitLanes 32 8 (joinLanes 64 ((w.drop 10).take 4))

/-- The children of each node of a level: its COUNT, or the packet's count (R367). -/
def levelCount (count w : Nat) : Nat := if bits w 0 24 = 0 then count else bits w 0 24

/-- The product of the counts of the used levels. -/
def flockTotal (levels : List Nat) (count : Nat) : Nat := (levels.map (levelCount count)).foldl (· * ·) 1

/-- The flocks of a launch (R367). -/
def Launch.total (l : Launch) : Nat := flockTotal l.levels l.count

/-- The strand indices of a core that can take strands of a flock beside nothing else (R108, R109). -/
def emptyCore (localBytes stack : Nat) : List Nat :=
  (upFrom 0 4).filter (fun j => decide (0xA000 + localBytes + (j + 1) * stack ≤ 0x80000))

/-- The run of strand indices that a core takes: as many as its free ones allow, up to `need`, consecutive, a run of two
from an even index; of equals the lowest (R375). -/
def pickRun (free : List Nat) (need : Nat) : List Nat :=
  let runs := ((upFrom 0 4).map (fun i => min 4 need - i)).flatMap (fun n =>
    if n = 0 then [] else
      (upFrom 0 4).filterMap (fun j =>
        if j + n ≤ 4 ∧ (n ≠ 2 ∨ j % 2 = 0) ∧ (upFrom j n).all free.contains = true then some (upFrom j n) else none))
  runs.headD []

/-- The strands that a core gives to a flock that still needs `need`: a flock of exactly two takes both on one core
(R159, R375). -/
def coreRun (strands : Nat) (free : List Nat) (need : Nat) : List Nat :=
  let r := pickRun free need
  if strands = 2 ∧ r.length ≠ 2 then [] else r

/-- A flock fits an empty cluster (R369). -/
def fitsEmpty (strands localBytes stack : Nat) : Bool :=
  (upFrom 0 16).foldl (fun need _ => need - (coreRun strands (emptyCore localBytes stack) need).length) strands == 0

/-- A LEASE word obeys R368. -/
def leaseWordOk (w : Nat) : Bool :=
  w == 0 || (bits w 61 3 != 0 && decide (1 ≤ bits w 58 3 ∧ bits w 58 3 ≤ 5) && bits w 39 19 != 0)

/-- The LEVEL words obey R367 for a depth. -/
def levelsOk (levels : List Nat) (depth : Nat) : Bool :=
  let used := levels.take (depth + 1)
  levels.all (fun w => w / 2 ^ 29 == 0) && (levels.drop (depth + 1)).all (· == 0) &&
    decide ((used.filter (fun w => bits w 0 24 == 0)).length ≤ 1) && decide (flockTotal used 1 < 2 ^ 32)

/-- The fields of a record's 32 words obey R365 to R369. -/
def recordOk (w : List Nat) : Bool :=
  let f := nth w 1
  let loc := bits (nth w 2) 0 32
  let clu := bits (nth w 2) 32 32
  let stack := bits f 16 6 * 4096
  nth w 0 % 8 == 0 && nth w 0 / 2 ^ 55 == 0 &&
    f / 2 ^ 31 == 0 && bits f 26 2 == 0 && bits f 22 2 == 0 && bits f 14 2 == 0 && !bit f 7 &&
    bits f 24 2 != 3 && decide (bits f 16 6 ≤ 32 ∧ bits f 8 2 ≤ 2 ∧ 1 ≤ bits f 0 7 ∧ bits f 0 7 ≤ 64) &&
    loc % 64 == 0 && clu % 64 == 0 && decide (loc ≤ 0x76000 ∧ clu ≤ 0x7F8000) &&
    nth w 3 / 2 ^ 20 == 0 && (!bit (nth w 3) 19 || decide (2 ≤ bits (nth w 3) 16 3 ∧ bits (nth w 3) 16 3 ≤ 6)) &&
    nth w 4 / 2 ^ 55 == 0 && (nth w 4 == 0 || bits (nth w 4) 0 16 != 0) &&
    nth w 5 % 8 == 0 && nth w 6 % 16 == 0 && nth w 9 % 128 == 0 && nth w 14 == 0 && nth w 15 == 0 &&
    levelsOk (levelWords w) (bits f 28 3) && ((w.drop 16).take 16).all leaseWordOk &&
    fitsEmpty (bits f 0 7) loc stack

/-- The launch that a record's words, its images and its packet describe. -/
def launchOfRecord (w packet cimg himg : List Nat) (queue index asid : Nat) : Launch :=
  let f := nth w 1
  { id := 0, queue := queue, index := index, asid := asid, recAddr := nth packet 2, entry := nth w 0,
    strands := bits f 0 7, acc := bits f 8 2, htw := bit f 10, proxy := bit f 11, frm := bits f 12 2,
    stackBytes := bits f 16 6 * 4096, cls := bits f 24 2, depth := bits f 28 3, localBytes := bits (nth w 2) 0 32,
    clusterBytes := bits (nth w 2) 32 32,
    society := if bit (nth w 3) 19 then some (bits (nth w 3) 0 16, bits (nth w 3) 16 3) else none,
    arenaBase := bits (nth w 4) 16 39 * 65536, arenaSize := bits (nth w 4) 0 16, cimg := cimg, himg := himg,
    tvec := nth w 7 / 8 * 8, onhang := nth w 8 / 8 * 8, complete := nth w 9,
    levels := (levelWords w).take (bits f 28 3 + 1),
    leases := (((w.drop 16).take 16).filter (· ≠ 0)).map leaseOfWord, count := bits (nth packet 5) 0 32,
    arg := nth packet 4, signal := nth packet 1 }

namespace State

/-- An image of a record read: its words, none for address 0; a failure makes the record malformed (R369). -/
def readImage (s : State) (asid a words align : Nat) : Act (State × List Nat) :=
  if a = 0 then .ok (s, [])
  else
    match s.hubRead asid a (8 * words) align with
    | .ok (t, l) => .ok (t, splitLanes 64 words (ofBytes l))
    | .error e =>
      match e.trapped s with
      | some _ => .error (.trap 0x44 0)
      | none => .error e

/-- READ (R371): the record, its checks, its images, and the completion record zeroed (R365, R369, R390). A trap carries
the cause and the address of the queue's error record; cause 0x44 names the record. -/
def readRecord (s : State) (q i : Nat) (p : List Nat) : Act (State × Launch) := do
  let asid := (s.queueAt q).asid
  let a := nth p 2
  let (s, l) ← s.hubRead asid a 256 256
  let w := splitLanes 64 32 (ofBytes l)
  if recordOk w then do
    let (s, cimg) ← s.readImage asid (nth w 5) 240 8
    let (s, himg) ← s.readImage asid (nth w 6) 512 16
    let x := launchOfRecord w p cimg himg q i asid
    let s ← if x.complete = 0 then .ok s
      else do
        let (s, cs) ← s.check (s.whoHub asid) .store x.complete 128 128
        s.hubPerformAll x.complete cs (List.replicate 128 0)
    .ok (s, x)
  else .error (.trap 0x44 a)

/-- SHAPE (R370, R371): the flock count, its word read as a load. -/
def readShape (s : State) (x : Launch) (p : List Nat) : Act (State × Launch) := do
  let a := nth p 3
  let (s, n) ← if a = 0 then .ok (s, x.count)
    else do
      let (s, l) ← s.readBytes (s.whoHub x.asid) (.load 8) a 8 8
      .ok (s, ofBytes l)
  if n / 2 ^ 32 ≠ 0 then .error (.trap 0x44 a)
  else if 2 ^ 32 ≤ flockTotal x.levels n then .error (.trap 0x44 x.recAddr)
  else .ok (s, { x with count := n })

/-- The STATUS of a launch at DONE (R392). -/
def launchStatus (l : Launch) : Nat :=
  if l.aborted && !l.hang then 2 else if l.hang then 3 else if l.fcount ≠ 0 then 1 else 0

/-- STATUS, TRANSIENT and END written at DONE, after fault fields that are still due (R390): the launch, with the failure of a
write kept. -/
def writeStatus (s : State) (l : Launch) : Act (State × Launch) :=
  if l.complete = 0 ∨ l.recFault.isSome then .ok (s, l)
  else
    let r : Act State := do
      let s ← if l.recordDue then s.hubWrite l.asid (l.complete + 8) (wordBytes l.faultWords) else .ok s
      let s ← s.hubWrite l.asid (l.complete + 0x38) (wordBytes [l.transient, s.cycleOf 0 % 2 ^ 64])
      s.hubWrite l.asid l.complete (bytesOf 8 (launchStatus l))
    match r with
    | .ok t => .ok (t, l)
    | .error e =>
      match e.trapped s with
      | some (t, c, a) => .ok (t, { l with recFault := some (c, a) })
      | none => .error e

/-- What the queue's error record holds for a launch that completes (R390, R392). -/
def launchError (l : Launch) : Option (Nat × Nat) :=
  match l.recFault with
  | some e => some e
  | none =>
    if launchStatus l = 0 then none
    else
      match l.first with
      | some f => some (f.cause, f.addr)
      | none => if l.hang then some (0x12, 0) else some (0, 0)

/-- A LAUNCH starts (R371): READ and SHAPE; a launch of no flocks completes at once (R370). -/
def startLaunch (s : State) (q i : Nat) (p : List Nat) : Act State :=
  let k : Packet := { queue := q, index := i, type := 1, words := p }
  let fails := fun (s : State) (e : Stop) => match e.trapped s with
    | some (t, c, a) => (t.addPacket k).completePacket q i p (some (c, a))
    | none => .error e
  match s.readRecord q i p with
  | .error (.trap 0x44 0) => (s.addPacket k).completePacket q i p (some (0x44, nth p 2))
  | .error e => fails s e
  | .ok (r, x) =>
    match r.readShape x p with
    | .error e => fails r e
    | .ok (t, x) =>
      if x.total = 0 then do
        let (t, x) ← t.writeStatus x
        (t.addPacket k).completePacket q i p (launchError x)
      else .ok (t.addPacket { k with record := some x })

end State

/-- PACKET_LAUNCH (R371): the packet at the read index of queue `idx` starts; a packet of any type that cannot be read or
is malformed puts its queue in ERROR (R359). -/
def execPacketLaunch (s : State) : Host.Outcome State Fault Refusal :=
  let q := s.ev.idx
  finishEvent s (s.startPacket q 1 (fun s i w => s.startLaunch q i w))

/-! ### SLOT and SOCIETY (R312, R372, R373) -/

namespace State

/-- A free launch slot; which one no rule says, so it is a free value (log 4). -/
def freeSlot (s : State) : Option (Nat × State) :=
  let (x, t) := s.freeValue
  ((upFrom 0 4096).find? (fun i => (s.launchAt ((x.toNat + i) % 4096)).isNone)).map (fun i => ((x.toNat + i) % 4096, t))

/-- The count of launches after one more (R372). -/
def nextCount (n : Nat) : Nat := if n + 1 = 2 ^ 48 then 1 else n + 1

/-- A launch takes a slot and its launch id (R372). -/
def takeLaunchSlot (s : State) (p : Packet) (x : Launch) (slot : Nat) : State :=
  let n := nextCount s.hub.launchCount
  let l := { x with id := s.hub.pkg * 2 ^ 48 + n, stage := if x.society.isSome then Stage.society else Stage.leases }
  let s := (s.setPacket { p with record := none }).setLaunch slot (some l)
  { s with hub := { s.hub with launchCount := n } }

/-- The round interval of a society's scope, in nanoseconds (R316). -/
def floorInterval (scope : Nat) : Nat := nth [0, 0, 1000, 2000, 4000, 10000, 20000] scope

/-- The launch of slot `idx` of the event, at a stage. -/
def evLaunch (s : State) (stage : Stage) : Option Launch :=
  (s.launchAt s.ev.idx).bind (fun l => if l.stage = stage then some l else none)

/-- A wait of a launch posts its event once, while its cause persists (R373). -/
def waitEvent (s : State) (slot : Nat) (l : Launch) (reason addr : Nat) : State :=
  if l.waiting = some (reason, addr) then s
  else (s.setLaunch slot (some { l with waiting := some (reason, addr) })).postEvent l.queue l.index reason addr

/-- SOCIETY (R312): the launch registers its society, or waits; no core keeps anything for it yet (R314). -/
def registerSociety (s : State) (slot : Nat) (l : Launch) (room : Bool) : State :=
  match l.society with
  | none => s.setLaunch slot (some { l with stage := .leases, waiting := none })
  | some (id, scope) =>
    if room && decide (s.hub.societies.length < 16) && s.hub.societies.all (fun x => x.id != id) then
      let x : Society := { id := id, scope := scope, slot := slot, interval := floorInterval scope, roundAt := s.cycle }
      let t := s.setLaunch slot (some { l with stage := .leases, waiting := none })
      let none_ := fun (c : Core) => { c with tallies := Store.set {} c.tallies slot {} }
      { t with hub := { t.hub with societies := t.hub.societies ++ [x] }, cores := mapUnits {} t.cores (fun _ c => none_ c) }
    else s.waitEvent slot l 3 id

end State

/-- LAUNCH_SLOT_ACQUIRE (R372): the launch of packet `idx`. -/
def execLaunchSlotAcquire (s : State) : Host.Outcome State Fault Refusal :=
  .next (match s.evPacket 1 with
    | some p =>
      (match p.record, s.freeSlot with
       | some x, some (slot, t) => t.takeLaunchSlot p x slot
       | _, _ => s)
    | none => s)

/-- SOCIETY_REGISTER (R312): the launch of slot `idx`; `ok` is false where another package of the paddock holds the id or
the last of its 16 societies. -/
def execSocietyRegister (s : State) : Host.Outcome State Fault Refusal :=
  .next (match s.evLaunch .society with
    | some l => s.registerSociety s.ev.idx l s.ev.ok
    | none => s)

/-! ### LEASES (R240, R243, R304, R343) -/

namespace State

/-- A free frame for a page of a range (R243): tier 1 of this package, else tier 3. -/
def freshFrame (s : State) (maxTier : Nat) : Option (State × Nat × Nat) :=
  match s.allocFrame s.hub.pkg 1 with
  | some (t, p) => some (t, p, 1)
  | none =>
    if 3 ≤ maxTier then (s.allocFrame s.hub.pkg 3).map (fun r => (r.1, r.2, 3)) else none

/-- A table page made where a path has none: an empty frame, and a pointer to it (R228). -/
def makeTable (s : State) (at_ : Nat) : Option (State × Nat) :=
  (s.freshFrame 3).map (fun (t, p, _) =>
    let inside := fun (a : Nat) => decide (p * 65536 ≤ a ∧ a < p * 65536 + 65536)
    let poison := t.poison.filter (fun l => l / 1024 ≠ p)
    let t : State := { t with mem := t.mem.filter (fun e => !inside e.1), poison := poison }
    ((t.markDirtyBit (p * 65536)).writeAt at_ 8 (1 + p * 65536), p * 65536))

/-- The table that an entry points to, made when the entry points to none. -/
def tableAt (s : State) (at_ : Nat) : Option (State × Nat) :=
  let e := s.readAt at_ 8
  if s.isPointer e then some (s, entryPage e) else s.makeTable at_

/-- The address of the L1 entry of an address, its tables made where they are missing. -/
def leafSlot (s : State) (asid va : Nat) : Option (State × Nat) := do
  let root := s.readAt (placeOf s.hub.pkg (bits s.hub.asidtab.toNat 16 29 * 65536 + 8 * asid)) 8
  let (s, l2) ← s.tableAt (entryPage root + 8 * bits va 42 13)
  let (s, l1) ← s.tableAt (l2 + 8 * bits va 29 13)
  some (s, l1 + 8 * bits va 16 13)

/-- The leaf that backs a page of a range (R240): R, W and X from the range, A = D = 0, TYPE 0. -/
def freshLeaf (x : Lease) (frame tier : Nat) : Nat :=
  1 + 2 * bool1 x.r + 4 * bool1 x.w + 8 * bool1 x.x + tier * 2 ^ 6 + frame * 2 ^ 16

/-- How one page of a range stands (R240). -/
inductive PageState where
  | resident
  /-- Its move is under way. -/
  | moves
  /-- The engine makes eight moves already. -/
  | full
  /-- It waits, for a reason of R373. -/
  | waits (reason : Nat)
deriving DecidableEq, Repr

/-- A page that has no valid leaf is backed (R240, R243). -/
def backPage (s : State) (asid va : Nat) (x : Lease) : State × PageState :=
  match s.freshFrame x.maxTier with
  | none => (s, .waits 1)
  | some (t, p, tier) =>
    match t.leafSlot asid va with
    | none => (s, .waits 1)
    | some (u, at_) => (u.writeAt at_ 8 (freshLeaf x p tier), .resident)

/-- A page at tier 3, 4 or 5 above the range's maximum is moved to the tier that R243 chooses (R240, R246). -/
def raisePage (s : State) (asid va e at_ : Nat) (x : Lease) : State × PageState :=
  if s.moving at_ then (s, .moves)
  else if 8 ≤ s.hub.moves.length then (s, .full)
  else
    match s.freshFrame x.maxTier with
    | none => (s, .waits 1)
    | some (t, p, tier) =>
      let m : PageMove :=
        { asid := asid, va := va, leafAddr := at_, leaf := e, src := entryPage e, dst := p * 65536, dstTier := tier }
      (t.startMove m, .moves)

/-- One page of a range made resident (R240). A large page cannot be moved by R246 and waits as a pinned one does. A page at
the backing of a held lease is accepted where it stands, as one in lent memory is: no such move touches it (R252; log 88); so
is one that another package of the paddock backs (R243). -/
def residePage (s : State) (asid va : Nat) (x : Lease) : Act (State × PageState) := do
  let (s, r) ← s.walk 0 asid va
  match r with
  | none => do
    let e ← s.leafWord asid va
    .ok (if s.leafElsewhere e then (s, .resident) else s.backPage asid va x)
  | some (e, at_, large) =>
    let tier := bits e 6 3
    if tier ≤ x.maxTier ∨ tier = 2 ∨ s.inAgist (bits e 16 44) = true then .ok (s, .resident)
    else if large || bit e 11 then .ok (s, .waits 2)
    else .ok (s.raisePage asid va e at_ x)

/-- The pages of a range, those that an address names. -/
def leasePageList (x : Lease) : List Nat :=
  ((upFrom (x.base / 65536) (x.size / 65536)).map (· * 65536)).filter (fun a => decide (a < 2 ^ 55))

/-- The pages of the ranges, in record order, with their ranges. -/
def allPages (l : Launch) : List (Nat × Lease) := l.ranges.flatMap (fun x => (leasePageList x).map (fun a => (a, x)))

/-- Pages made resident in order, up to the first that waits: its address and how it stands. -/
def resideAll (s : State) (asid : Nat) : List (Nat × Lease) → Act (State × Option (Nat × PageState))
  | [] => .ok (s, none)
  | (va, x) :: t => do
    let (s, p) ← s.residePage asid va x
    match p with
    | .resident => s.resideAll asid t
    | p => .ok (s, some (va, p))

/-- The frames of the leased pages, as their leaves name them. -/
def leasedFrames (s : State) (asid : Nat) : List (Nat × Lease) → Act (State × List Nat)
  | [] => .ok (s, [])
  | (va, _) :: t => do
    let (s, r) ← s.walk 0 asid va
    let e1 ← if r.isNone then s.leafWord asid va else .ok 0
    let (s, l) ← s.leasedFrames asid t
    .ok (s, match r with
      | some (e, _, large) => (if large then bits e 16 44 + va / 65536 % 8192 else bits e 16 44) :: l
      | none => if s.leafElsewhere e1 then bits e1 16 44 :: l else l)

/-- The lease counts of frames raised or lowered by one (R240). -/
def countLeases (s : State) (up : Bool) (l : List Nat) : State :=
  { s with hub := { s.hub with leaseCounts := l.foldl (fun t p =>
    let n := Store.get 0 t p
    Store.set 0 t p (if up then n + 1 else n - 1)) s.hub.leaseCounts } }

/-- A word of the arena written by the launch unit, through the page's leaf (R343). -/
def arenaWord (s : State) (asid va x : Nat) : Act State := do
  let (s, r) ← s.walk 0 asid va
  match r with
  | some (e, _, large) => s.hubPerform va ⟨leafPlace e va large, 8, e⟩ (bytesOf 8 x)
  | none => .ok s

/-- Words of the arena written. -/
def arenaWords (s : State) (asid : Nat) : List (Nat × Nat) → Act State
  | [] => .ok s
  | (va, x) :: t => do
    let s ← s.arenaWord asid va x
    s.arenaWords asid t

/-- The words that the launch unit writes into an arena: the header of the first block, and the words 0 and 1 of every
other, on the free list in address order (R304, R343). -/
def arenaImage (base size : Nat) : List (Nat × Nat) :=
  let n := size * 32
  [(base, base + 2048), (base + 8, n - 1)] ++ (upFrom 2 6).map (fun i => (base + 8 * i, 0)) ++
    (upFrom 1 (n - 1)).flatMap (fun i =>
      [(base + 2048 * i, 0), (base + 2048 * i + 8, if i + 1 < n then base + 2048 * (i + 1) else 0)])

/-- LEASES (R371): every page resident, the lease counts raised, the arena prepared; or the launch waits. The cause of an event
is gone when the page that it names moves, or another page waits in its place (R373). -/
def makeLeases (s : State) (slot : Nat) (l : Launch) : Act State := do
  let (s, r) ← s.resideAll l.asid (allPages l)
  match r with
  | some (va, .waits reason) => .ok (s.waitEvent slot l reason va)
  | some (va, .moves) => .ok (if l.waiting.map (·.2) = some va then s.setLaunch slot (some { l with waiting := none }) else s)
  | some _ => .ok s
  | none => do
    let (s, frames) ← s.leasedFrames l.asid (allPages l)
    let s := s.countLeases true frames
    let s ← if l.arenaSize = 0 then .ok s else s.arenaWords l.asid (arenaImage l.arenaBase l.arenaSize)
    let next : Launch :=
      { l with stage := if l.proxy then .proxy else .place, waiting := none, held := frames, placedAt := s.cycle }
    .ok (s.setLaunch slot (some next))

end State

/-- LEASE_RESIDENCY (R240): the launch of slot `idx`. -/
def execLeaseResidency (s : State) : Host.Outcome State Fault Refusal :=
  finishEvent s (match s.evLaunch .leases with
    | some l => s.makeLeases s.ev.idx l
    | none => .error .wait)

/-! ### PROXY (R379) -/

/-- The core is the proxy core of its die (R379). -/
def isProxyCore (c : Nat) : Bool := c % 384 == 383

namespace State

/-- The flocks that hold strands: resident or draining, with their slots and launches. -/
def residents (s : State) : List (Nat × Launch × Flock) :=
  s.hub.launches.flatMap (fun e => match e.2 with
    | some l => (l.flocks.filter (fun f => f.status == 1 || f.status == 2)).map (fun f => (e.1, l, f))
    | none => [])

/-- A launch at or past PROXY asks for the proxy cores, so no new flock goes there (R379). -/
def proxyTaken (s : State) : Bool :=
  s.hub.launches.any (fun e => match e.2 with
    | some l => l.proxy && (l.stage == .proxy || l.stage == .place || l.stage == .run)
    | none => false)

/-- No flock stands on a proxy core. -/
def proxyFree (s : State) : Bool := s.residents.all (fun r => r.2.2.strands.all (fun k => !isProxyCore (k / 8)))

end State

/-- PROXY_RESERVE (R379): the launch of slot `idx`. -/
def execProxyReserve (s : State) : Host.Outcome State Fault Refusal :=
  .next (match s.evLaunch .proxy with
    | some l =>
      if s.proxyFree then s.setLaunch s.ev.idx (some { l with stage := .place, placedAt := s.cycle }) else s
    | none => s)

/-- EVBASE_WRITE (R373). -/
def execEvbaseWrite (s : State) : Host.Outcome State Fault Refusal := .next (s.writeEvbase s.ev.val)

/-- PARTCTL_WRITE (R380). -/
def execPartctlWrite (s : State) : Host.Outcome State Fault Refusal := .next (s.writePartctl s.ev.val)

end Sys2Proof.Machine
end

