-- ==== Sys2Proof/Machine/Place.lean ====
section
/-!
DEFINITION. Placement of flocks and their start (R26, R27, R159, R292, R314, R360, R367, R374 to R377), their end (R378),
the end of a launch (R371, R390, R392), and the phase partitioner (R380, R381).
-/

namespace Sys2Proof.Machine

/-! ### What a core has free (R108, R109, R292, R375, R379) -/

/-- The stack slice of strand `j` (R109). -/
def sliceOf (stack j : Nat) : Nat × Nat := (0x80000 - (j + 1) * stack, 0x80000 - j * stack)

/-- Two byte ranges share a byte. -/
def overlap (a b : Nat × Nat) : Bool := decide (a.1 < b.2 ∧ b.1 < a.2)

/-- The unit of a DOMAIN that a core lies in (R367). -/
def domainUnit (domain core : Nat) : Nat :=
  if domain = 0 then core else if domain = 1 then clusterOf core else if domain = 2 then dieOf core else 0

namespace State

/-- Flocks that hold strands of a core, but for one. -/
def coreFlocks (s : State) (slot num c : Nat) : List (Launch × Flock) :=
  (s.residents.filter (fun r => !(r.1 == slot && r.2.2.num == num) && r.2.2.strands.any (fun k => k / 8 == c))).map
    (fun r => r.2)

/-- A saved flock has strands of a core to go back to (R400). -/
def savedOn (s : State) (c : Nat) : Bool :=
  s.hub.launches.any (fun e => match e.2 with
    | some l => l.flocks.any (fun f => f.status == 3 && f.strands.any (fun k => k / 8 == c))
    | none => false)

/-- Bytes of a core's program space that a flock holds: its local allotment, and the slices of its strands there. -/
def heldBytes (c : Nat) (r : Launch × Flock) : List (Nat × Nat) :=
  (if r.1.localBytes = 0 then [] else [(0xA000, 0xA000 + r.1.localBytes)]) ++
    (if r.1.stackBytes = 0 then []
     else (r.2.strands.filter (fun k => k / 8 == c)).map (fun k => sliceOf r.1.stackBytes (k % 8)))

/-- A flock with accumulators may use the core: no tile of it is allotted (R375). -/
def tilesFree (l : Launch) (c : Nat) (others : List (Launch × Flock)) : Bool :=
  l.acc == 0 || others.all (fun r => r.1.acc == 0 || r.2.strands.head?.map (· / 8) != some c)

/-- The handler table of the core may serve the launch (R292). -/
def tableFree (s : State) (slot : Nat) (l : Launch) (c : Nat) : Bool :=
  l.himg.isEmpty || (s.coreAt c).tableOwner.isNone || (s.coreAt c).tableOwner == some slot

/-- Strand indices of a core that flock `num` of a launch may take (R108, R109, R292, R375, R379). -/
def freeOn (s : State) (slot : Nat) (l : Launch) (num c : Nat) : List Nat :=
  let others := s.coreFlocks slot num c
  let held := others.flatMap (heldBytes c)
  let own := (0xA000, 0xA000 + l.localBytes)
  let top := others.foldl (fun t r => if r.1.localBytes = 0 then t else max t (0xA000 + r.1.localBytes)) own.2
  if (isProxyCore c && s.proxyTaken) || !s.tableFree slot l c || !tilesFree l c others ||
      (l.localBytes != 0 && held.any (overlap own)) then []
  else (upFrom 0 4).filter (fun j =>
    (s.hartAt (8 * c + j)).slot.isNone &&
      (l.stackBytes == 0 || (decide (top + (j + 1) * l.stackBytes ≤ 0x80000) &&
        !held.any (overlap (sliceOf l.stackBytes j)))))

/-! ### The cluster of a flock (R276, R367, R374, R375, R380) -/

/-- The class of a launch lets it be placed on a cluster (R380, R381). -/
def classOk (s : State) (l : Launch) (cl : Nat) : Bool :=
  let x := s.clusterAt cl
  !s.hub.parten || (!x.draining && (l.cls == 0 || l.cls == x.cls + 1))

/-- The cluster allotment is free of other flocks (R276). -/
def spadFree (s : State) (slot : Nat) (l : Launch) (num cl : Nat) : Bool :=
  l.clusterBytes == 0 || s.residents.all (fun r =>
    (r.1 == slot && r.2.2.num == num) || r.2.2.cluster != cl || r.2.1.clusterBytes == 0)

/-- Record slots of a cluster's pool region that no flock holds, lowest first (R375). -/
def freePool (s : State) (cl : Nat) : List Nat :=
  (upFrom 0 256).filter (fun i => (s.clusterAt cl).pool.all (fun e => e.1 != i))

/-- What a level asks of a core: the level's DOMAIN, the units that other children of the node stand in, once for each child,
and the number of them that a unit may hold. -/
structure Spread where
  domain : Nat
  units : List Nat
  limit : Nat

/-- The unit of a core holds too many other children of the level's node. -/
def Spread.crowded (u : Spread) (c : Nat) : Bool :=
  decide (u.limit < (u.units.filter (fun x => x == domainUnit u.domain c)).length)

/-- The strands of a cluster that a flock takes, when it fits: cores in ascending order, those of crowded units passed
over. -/
def fitCluster (s : State) (slot : Nat) (l : Launch) (num cl : Nat) (spread : List Spread) : Option (List Nat) :=
  if s.classOk l cl && s.spadFree slot l num cl && decide (4 * l.strands ≤ (s.freePool cl).length) then
    let got := (upFrom (16 * cl) 16).foldl (fun (got : List Nat) c =>
      if got.length = l.strands ∨ spread.any (fun u => u.crowded c) = true then got
      else got ++ (coreRun l.strands (s.freeOn slot l num c) (l.strands - got.length)).map (fun j => 8 * c + j)) []
    if got.length = l.strands then some got else none
  else none

/-- A flock's tuple (R367), from the counts of the levels. -/
def flockPath (counts : List Nat) (n : Nat) : List Nat :=
  (counts.reverse.foldl (fun (r : List Nat × Nat) c => (r.2 % c :: r.1, r.2 / c)) ([], n)).1

/-- The tuple of flock `n` of a launch. -/
def pathOf (l : Launch) (n : Nat) : List Nat := flockPath (l.levels.map (levelCount l.count)) n

/-- The cluster lies in the scope instance of another (R367). -/
def sameInstance (scope a b : Nat) : Bool :=
  if scope ≤ 2 then a == b else if scope = 3 then a / 24 == b / 24 else true

/-- Flocks placed before that descend from the same node of level `lv` (R367). -/
def kinAt (l : Launch) (path : List Nat) (lv : Nat) : List Flock :=
  l.flocks.filter (fun f => (pathOf l f.num).take lv == path.take lv)

/-- A cluster keeps every level's SCOPE beside the flocks already placed. -/
def scopesOk (l : Launch) (path : List Nat) (cl : Nat) : Bool :=
  (upFrom 0 l.levels.length).all (fun lv =>
    match kinAt l path lv with
    | f :: _ => sameInstance (bits (nth l.levels lv) 26 3) f.cluster cl
    | [] => true)

/-- The units of each level's DOMAIN where flocks of other children of the node stand, once for each child (R367). -/
def usedUnits (l : Launch) (path : List Nat) : List (Nat × List Nat) :=
  (upFrom 0 l.levels.length).map (fun lv =>
    let d := bits (nth l.levels lv) 24 2
    let others := (kinAt l path lv).filter (fun f => f.status != 4 && nth (pathOf l f.num) lv != nth path lv)
    (d, ((others.flatMap (fun f => f.strands.map (fun k =>
      (domainUnit d (k / 8), nth (pathOf l f.num) lv)))).eraseDups).map (·.1)))

/-- The lowest cluster of a list where a flock fits, and its strands there. -/
def firstFit (s : State) (slot : Nat) (l : Launch) (num : Nat) (clusters : List Nat) (spread : List Spread) :
    Option (Nat × List Nat) :=
  clusters.findSome? (fun cl => (s.fitCluster slot l num cl spread).map (fun strands => (cl, strands)))

/-- A level's units are shared as little as may be: the least number of other children in one unit with which the flock
still fits somewhere, beside the levels outside it (R367). -/
def spreadLevel (s : State) (slot : Nat) (l : Launch) (num : Nat) (clusters : List Nat) (outer : List Spread)
    (u : Nat × List Nat) : List Spread :=
  let at_ := fun t => outer ++ [({ domain := u.1, units := u.2, limit := t } : Spread)]
  at_ (((upFrom 0 u.2.length).find? (fun t => (s.firstFit slot l num clusters (at_ t)).isSome)).getD u.2.length)

/-- Where a new flock goes (R374, R375): the lowest cluster that qualifies, in units apart from those of the other children
of each of its nodes while such units are free, and beyond that in the units that the fewest share, the outermost level
first (R367; log 92). -/
def placeFor (s : State) (slot : Nat) (l : Launch) (num : Nat) : Option (Nat × List Nat) :=
  let path := pathOf l num
  let clusters := (upFrom 0 96).filter (scopesOk l path)
  s.firstFit slot l num clusters ((usedUnits l path).foldl (s.spreadLevel slot l num clusters) [])

/-- A saved flock goes back to its own strands and tiles, when they are free (R400, R401). -/
def mayRestore (s : State) (slot : Nat) (l : Launch) (f : Flock) : Bool :=
  s.classOk l f.cluster && s.spadFree slot l f.num f.cluster &&
    f.strands.all (fun k => (s.freeOn slot l f.num (k / 8)).contains (k % 8))

/-! ### The choice of a launch (R376, R377) -/

/-- The launch has flocks to place: unplaced ones, or saved ones. -/
def wantsPlace (l : Launch) : Bool :=
  (l.stage == .place || l.stage == .run) && !l.aborted &&
    (decide (l.flocks.length < l.total) || l.flocks.any (fun f => f.status == 3))

/-- The next flock of a launch: a saved one, or a new one (R381, R400). -/
def savedFlock (l : Launch) : Option Flock := l.flocks.find? (fun f => f.status == 3)

/-- The priority of a launch's next flock (R377). -/
def placePrio (s : State) (l : Launch) : Nat :=
  match savedFlock l with
  | some f => f.prio
  | none => (s.queueAt l.queue).prio

/-- The rank of a launch, the least first (R376). -/
def placeRank (s : State) (l : Launch) : List Nat :=
  if l.aged then [0, l.placedAt]
  else
    let prio := s.placePrio l
    [1, 7 - prio, (l.queue + 1023 - nth s.hub.rrQueues prio) % 1024, l.index]

/-- The next placement (R376): the first launch in order whose next flock can be placed; its cluster and strands. -/
def nextPlacement (s : State) : Option (Nat × Launch × Option Flock × Nat × List Nat) :=
  let all := s.hub.launches.filterMap (fun e => match e.2 with
    | some l => if wantsPlace l then some (e.1, l) else none
    | none => none)
  let order := sortBy (fun (a b : Nat × Launch) => !List.lex (s.placeRank b.2) (s.placeRank a.2) (fun x y => decide (x < y))) all
  order.findSome? (fun e =>
    match savedFlock e.2 with
    | some f => if s.mayRestore e.1 e.2 f then some (e.1, e.2, some f, f.cluster, f.strands) else none
    | none => (s.placeFor e.1 e.2 e.2.flocks.length).map (fun r => (e.1, e.2, none, r.1, r.2)))

/-- A launch after a flock of it, of a priority, has been placed: the queue is the one served last at that priority. -/
def notePlaced (s : State) (slot : Nat) (l : Launch) (prio : Nat) : State :=
  let l := { l with
    placedAt := s.cycle, aged := false,
    stage := if l.flocks.length = l.total ∧ l.flocks.all (fun f => f.status != 3) = true then Stage.run else l.stage }
  let t := s.setLaunch slot (some l)
  { t with hub := { t.hub with rrQueues := setNth t.hub.rrQueues prio l.queue } }

/-! ### The start of a flock (R26, R27, R221, R277, R291, R292, R314, R360) -/

/-- The sixteen identity words of a strand (R27). -/
def identityWords (s : State) (l : Launch) (num k : Nat) : List Nat :=
  let path := pathOf l num
  let core := k / 8
  (upFrom 0 8).map (nth path) ++
    [core, clusterOf core, dieOf core, s.hub.pkg, k % 8, l.strands, l.depth + 1, l.id]

/-- A strand's constant window: the image, and the identity words (R26). -/
def fillWindow (s : State) (l : Launch) (num k : Nat) : State :=
  let image := (upFrom 0 240).map (nth l.cimg)
  s.perform (placeLocal (k / 8) (0x800 * (k % 8))) (wordBytes (image ++ s.identityWords l num k))

/-- A strand at flock start (R360, R377, R407). No rule gives a continuation that starts without a record its LEVEL: 0 is
the model's choice (log 83). -/
def startHart (l : Launch) (slot num prio : Nat) (tile0 tile1 : Bool) : Hart :=
  let p : Pick := { pc := l.entry, ts := allOnes64, saved := [(1, l.arg), (2, 0), (3, 0), (4, 0), (31, 0)], cls := prio }
  let h : Hart := {}
  { h.pickUp l.frm p with
    slot := some slot, flock := num, level := 0, asid := l.asid, tvec := l.tvec, tile0 := tile0, tile1 := tile1 }

/-- The tags whose entries of a handler image are valid, as a mask (R291). -/
def imageTags (himg : List Nat) : Nat :=
  joinLanes 1 ((upFrom 0 256).map (fun t =>
    bool1 (HandlerEntry.valid ⟨nth himg (2 * t), nth himg (2 * t + 1)⟩)))

/-- A core where a flock starts: its handler table when the launch does not hold it (R291, R292), its serials and tickets
when no other flock is resident (R117, R277); tickets also keep their numbers while a saved flock's stay valid (R400; log
106); its consumed count when the flock holds tiles (R221), and its colour when
the launch has no other flock there (R314). -/
def startCore (s : State) (slot : Nat) (l : Launch) (num c : Nat) (tiles : Bool) : State :=
  let alone := (s.coreFlocks slot num c).isEmpty
  let fresh := alone && !s.savedOn c
  let first := l.flocks.all (fun f => f.num == num || f.status == 4 || f.strands.all (fun k => k / 8 != c))
  let table := !l.himg.isEmpty && (s.coreAt c).tableOwner != some slot
  let s := if table then s.perform (placeLocal c 0x6000) (wordBytes l.himg) else s
  let x := s.coreAt c
  let x := if table then
    { x with tableOwner := some slot, tagen := BitVec.ofNat 256 (imageTags l.himg), tagpnd := 0 } else x
  let x := if alone then { x with serial := 1 } else x
  let x := if fresh then { x with nextSeq := 1, moveFaults := [] } else x
  let x := if tiles then { x with consumed := 0 } else x
  let x := match s.societyOf (some slot) with
    | some y => if first then { x with tallies := Store.set {} x.tallies slot { colour := y.colour } } else x
    | none => x
  s.setCore c x

/-- Scratchpad lines that a flock may write: its windows, local allotments, slices and cluster allotment (R399). -/
def flockLine (l : Launch) (f : Flock) (line : Nat) : Bool :=
  let p := 64 * line
  let o := p % 2 ^ 56
  if p / 2 ^ 56 = 0xF4 then
    let c := o / 2 ^ 19
    let x := o % 2 ^ 19
    (decide (x < 0x2000) && f.strands.contains (8 * c + x / 0x800)) ||
      (f.strands.any (fun k => k / 8 == c) && decide (0xA000 ≤ x ∧ x < 0xA000 + l.localBytes)) ||
      f.strands.any (fun k => k / 8 == c && decide ((sliceOf l.stackBytes (k % 8)).1 ≤ x ∧ x < (sliceOf l.stackBytes (k % 8)).2))
  else p / 2 ^ 56 == 0xF5 && o / 2 ^ 23 == f.cluster && decide (o % 2 ^ 23 < l.clusterBytes)

/-- A new flock placed and started (R374, R375): pool slots, windows, handler tables and strands. -/
def startFlock (s : State) (slot : Nat) (l : Launch) (cl : Nat) (strands : List Nat) : State :=
  let num := l.flocks.length
  let prio := (s.queueAt l.queue).prio
  let pool := (s.freePool cl).take (4 * l.strands)
  let f : Flock := { num := num, status := 1, cluster := cl, strands := strands, pool := pool, prio := prio }
  let l := { l with flocks := l.flocks ++ [f] }
  let x := s.clusterAt cl
  let s := s.setCluster cl { x with
    pool := x.pool ++ pool.map (fun i => (i, slot, num)), poolBusy := x.poolBusy.filter (fun i => !pool.contains i) }
  let s : State := { s with written := s.written.filter (fun line => !flockLine l f line) }
  let s := strands.foldl (fun s k => s.fillWindow l num k) s
  let lead := strands.headD 0
  let s := (strands.map (· / 8)).eraseDups.foldl (fun s c =>
    s.startCore slot l num c (decide (1 ≤ l.acc) && c == lead / 8)) s
  let s := strands.foldl (fun s k => s.setHart k
    (startHart l slot num prio (decide (1 ≤ l.acc) && k == lead) (l.acc == 2 && k == lead))) s
  s.notePlaced slot l prio

end State

/-- FLOCK_PLACE (R374, R376): the next flock that the launch unit can place is a new one. -/
def execFlockPlace (s : State) : Host.Outcome State Fault Refusal :=
  .next (match s.nextPlacement with
    | some (slot, l, none, cl, strands) => s.startFlock slot l cl strands
    | _ => s)

/-- PLACE_AGED (R376): the launch of slot `idx` has waited 8 ms since its last placement, or since it entered PLACE without one
(log 111). -/
def execPlaceAged (s : State) : Host.Outcome State Fault Refusal :=
  .next (match s.launchAt s.ev.idx with
    | some l =>
      if State.wantsPlace l && decide (l.placedAt + 8800000 ≤ s.cycle) then s.setLaunch s.ev.idx (some { l with aged := true })
      else s
    | none => s)

/-! ### The end of a flock (R378) -/

namespace State

/-- A message of the launch is in an inbox of the flock's cores, or on its way to them (R298, R378). -/
def messagesFor (s : State) (slot : Nat) (f : Flock) : Bool :=
  let cores := f.strands.map (· / 8)
  cores.any (fun c =>
    let x := s.coreAt c
    x.inbox.any (fun m => s.messageOf slot m.msg) || x.netWait.any (s.messageOf slot)) ||
  s.cores.any (fun e => e.2.outbound.any (fun m =>
    m.pkg == s.hub.pkg && cores.contains m.core && s.messageOf slot m))

/-- A resident or draining flock has ended (R378). -/
def flockOver (s : State) (slot : Nat) (f : Flock) : Bool :=
  (f.status == 1 || f.status == 2) &&
    f.strands.all (fun k => !(s.hartAt k).occ) &&
    f.pool.all (fun i => !(s.clusterAt f.cluster).poolBusy.contains i) &&
    (f.strands.map (· / 8)).all (fun c =>
      (s.coreAt c).moves.all (fun m => !(m.launch == some slot && m.flock == f.num)) &&
        (s.coreAt c).droverOwner != some (slot, f.num)) &&
    !s.messagesFor slot f

/-- The strands of a flock given back. -/
def releaseStrands (s : State) (f : Flock) : State := f.strands.foldl (fun s k => (s.disown k).setHart k {}) s

/-- The handler tables of a flock's cores released, where the launch has no other flock (R292). -/
def releaseTables (s : State) (slot : Nat) (l : Launch) (f : Flock) : State :=
  (f.strands.map (· / 8)).eraseDups.foldl (fun s c =>
    let x := s.coreAt c
    if x.tableOwner = some slot ∧
        l.flocks.all (fun g => g.num == f.num || g.status == 4 || g.strands.all (fun k => k / 8 != c)) = true then
      s.setCore c { x with tableOwner := none }
    else s) s

/-- The record slots of a flock given back. -/
def releasePool (s : State) (slot : Nat) (f : Flock) : State :=
  let x := s.clusterAt f.cluster
  s.setCluster f.cluster { x with pool := x.pool.filter (fun e => !(e.2.1 == slot && e.2.2 == f.num)) }

/-- A flock ends (R378): everything it holds is released. -/
def endFlock (s : State) (slot : Nat) (l : Launch) (f : Flock) : State :=
  let s := ((s.releaseStrands f).releasePool slot f).releaseTables slot l f
  (s.updateFlock slot f.num (fun g => { g with status := 4, images := [] })).clearBusy slot f.num

/-- The flock that the event names: number `aux` of slot `idx`. -/
def evFlock (s : State) : Option (Launch × Flock) :=
  (s.launchAt s.ev.idx).bind (fun l => (l.flocks.find? (fun f => f.num == s.ev.aux)).map (fun f => (l, f)))

/-! ### The end of a launch (R144, R355, R371, R390 to R394) -/

/-- Every flock of a launch has been placed and has ended. -/
def allEnded (l : Launch) : Bool :=
  (l.stage == .place || l.stage == .run || (l.aborted && l.flocks.isEmpty)) && (l.aborted || l.flocks.length == l.total) &&
    l.flocks.all (fun f => f.status == 4)

/-- Every store and `red` of a launch has performed (R144, R355, R394). -/
def accessesDone (s : State) (slot : Nat) : Bool :=
  s.stores.all (fun t => t.slot != some slot) && s.atomics.all (fun t => t.slot != some slot)

/-- What a launch held in the units is released, and its slot is free (R371). -/
def releaseLaunch (s : State) (slot : Nat) (l : Launch) : State :=
  let s := s.countLeases false l.held
  let cores := mapUnits {} s.cores (fun _ c =>
    { c with
      tableOwner := if c.tableOwner = some slot then none else c.tableOwner
      joins := c.joins.filter (fun j => j.2.2 ≠ slot) })
  let clusters := mapUnits {} s.clusters (fun _ c =>
    { c with pool := c.pool.filter (fun e => e.2.1 ≠ slot), ready := c.ready.filter (fun e => e.2 ≠ slot) })
  let s := ({ s with cores := cores, clusters := clusters } : State).setLaunch slot none
  let s : State := { s with hub := { s.hub with
    preqJob := if s.hub.preqJob.map (·.1) = some slot then none else s.hub.preqJob } }
  { s with hub := { s.hub with
    societies := s.hub.societies.filter (fun x => x.slot ≠ slot), conts := s.hub.conts.filter (fun c => c.slot ≠ slot) } }

/-- DONE (R371): the completion record, the launch's holdings, and the packet's completion. -/
def endLaunch (s : State) (slot : Nat) (l : Launch) : Act State := do
  let (s, l) ← s.writeStatus l
  let words := ((s.hub.packets.find? (fun p => p.queue == l.queue && p.index == l.index)).map (·.words)).getD [1, l.signal]
  (s.releaseLaunch slot l).completePacket l.queue l.index words (launchError l)

end State

/-- FLOCK_END (R378): flock `aux` of slot `idx`. -/
def execFlockEnd (s : State) : Host.Outcome State Fault Refusal :=
  .next (match s.evFlock with
    | some (l, f) => if s.flockOver s.ev.idx f then s.endFlock s.ev.idx l f else s
    | none => s)

/-- LAUNCH_DONE (R371): the launch of slot `idx`. Until it is done, fault fields of its record that are due are written
(R390). -/
def execLaunchDone (s : State) : Host.Outcome State Fault Refusal :=
  finishEvent s (match s.launchAt s.ev.idx with
    | some l => if State.allEnded l && s.accessesDone s.ev.idx then s.endLaunch s.ev.idx l
      else if l.recordDue then .ok (s.writeFaults s.ev.idx l) else .error .wait
    | none => .error .wait)

/-! ### The phase partitioner (R380, R381) -/

/-- The quotient rounded to the nearest, ties to even. -/
def roundHalfEven (a b : Nat) : Nat :=
  let q := a / b
  let r := a % b
  if 2 * r < b then q else if b < 2 * r then q + 1 else if q % 2 = 0 then q else q + 1

namespace State

/-- The unplaced flocks of the launches of a class in PLACE (R381). -/
def unplaced (s : State) (cls : Nat) : Nat :=
  (s.hub.launches.map (fun e => match e.2 with
    | some l =>
      if l.cls = cls ∧ wantsPlace l = true then
        (l.total - l.flocks.length) + (l.flocks.filter (fun f => f.status == 3)).length
      else 0
    | none => 0)).foldl (· + ·) 0

/-- The decode clusters of a die (R381). -/
def decodeCount (pmin dp dd : Nat) : Nat := max pmin (min (24 - pmin) (roundHalfEven (24 * dd) (dp + dd)))

/-- A cluster takes its target: a drain begins, or is cancelled (R381). -/
def retarget (s : State) (c target : Nat) : State :=
  let x := s.clusterAt c
  s.setCluster c (if target = x.cls then { x with target := target, draining := false, drainAt := 0, drainDue := false }
    else if x.draining then { x with target := target }
    else { x with target := target, draining := true, drainAt := s.cycle, drainDue := false })

/-- The count of the partitioner (R381). -/
def partition (s : State) : State :=
  let dp := s.unplaced 1
  let dd := s.unplaced 2
  let s : State := { s with hub := { s.hub with partAt := s.cycle } }
  if dp + dd = 0 then s
  else
    let nd := decodeCount s.hub.pmin dp dd
    (upFrom 0 96).foldl (fun s c => s.retarget c (if 24 - nd ≤ c % 24 then 1 else 0)) s

/-- Flocks of a draining cluster's old class that stand on it, with their slots (R381). -/
def oldFlocks (s : State) (c : Nat) : List (Nat × Flock) :=
  (s.residents.filter (fun r => r.2.2.cluster == c && r.2.1.cls == (s.clusterAt c).cls + 1)).map (fun r => (r.1, r.2.2))

end State

/-- PARTITION_TICK (R381): every 1 ms while the partitioner is enabled. -/
def execPartitionTick (s : State) : Host.Outcome State Fault Refusal :=
  .next (if s.hub.parten && decide (s.hub.partAt + 1100000 ≤ s.cycle) then s.partition else s)

/-- DRAIN_TIMEOUT (R381): 200 µs into the drain of cluster `idx`, its flocks of the old class are pre-empted. One whose image has
no room is asked for once (log 112). -/
def execDrainTimeout (s : State) : Host.Outcome State Fault Refusal :=
  let c := s.ev.idx
  let x := s.clusterAt c
  .next (if x.draining && !x.drainDue && decide (x.drainAt + 220000 ≤ s.cycle) then
      ((s.oldFlocks c).filter (fun r => r.2.status == 1)).foldl (fun s r => (s.startDrain r.1 r.2.num false).1)
        (s.setCluster c { x with drainDue := true })
    else s)

/-- CLUSTER_DRAINED (R381): cluster `idx` holds no flock of its old class. -/
def execClusterDrained (s : State) : Host.Outcome State Fault Refusal :=
  let c := s.ev.idx
  let x := s.clusterAt c
  .next (if x.draining && (s.oldFlocks c).isEmpty then
      s.setCluster c { x with cls := x.target, draining := false, drainAt := 0, drainDue := false }
    else s)

end Sys2Proof.Machine
end

