-- ==== Sys2Proof/Machine/Preempt.lean ====
section
/-!
DEFINITION. Traps and aborts as steps of their own (R382, R388, R393), pre-emption: drain, image, save and restore (R397
to R401), and the launch state that a checkpoint saves (R404).
-/

namespace Sys2Proof.Machine

/-! ### Traps and aborts (R382, R388, R393, R298) -/

/-- TRAP_ENTRY (R382): a precise trap of the event's hart at its next word, with cause `val` and TVAL `addr`. -/
def execTrapEntry (s : State) : Host.Outcome State Fault Refusal :=
  let k := s.evHart
  let h := s.hartAt k
  if h.occ && !h.halted && !h.parked && !h.waitSlot && s.flockIssues k then
    s.asHart k (fun u => finishEvent u (u.takeTrap (u.ev.val % 256) u.ev.addr))
  else .next s

/-- LAUNCH_ABORT (R388, R393): a further trap of the event's hart, with cause `val` and TVAL `addr`, in a handler or with
no usable vector; where `ok` is false, the HANG status of the launch of slot `idx` (R298). -/
def execLaunchAbort (s : State) : Host.Outcome State Fault Refusal :=
  if s.ev.ok then
    let k := s.evHart
    let h := s.hartAt k
    if h.occ && k % 8 != 4 && (h.tstatus % 2 == 1 || h.tvec == 0 || decide (2 ^ 55 ≤ h.tvec)) then
      s.asHart k (fun u => finishEvent u (u.takeTrap (u.ev.val % 256) u.ev.addr))
    else .next s
  else
    .next (match s.launchAt s.ev.idx with
      | some l =>
        if s.hangDue s.ev.idx l && (l.onhang == 0 || l.hungBefore) then
          ((s.setLaunch s.ev.idx (some { l with hang := true })).recordHang s.ev.idx).abortLaunch s.ev.idx
        else s
      | none => s)

/-- PREEMPT_REQUEST (R397): PREQ is written with the event's value. -/
def execPreemptRequest (s : State) : Host.Outcome State Fault Refusal := .next (s.writePreq s.ev.val)

/-! ### The drain (R398) -/

namespace State

/-- The harts of a flock: its strands, and the drover programs that it issued. -/
def flockHarts (s : State) (slot : Nat) (f : Flock) : List Nat :=
  f.strands ++ (((f.strands.map (· / 8)).eraseDups.filter (fun c =>
    (s.coreAt c).droverOwner == some (slot, f.num))).map (fun c => 8 * c + 4))

/-- A hart stands at a bundle boundary, or at a suspension point that waits for a record slot (R40), with every long instruction
returned, no `rollback` begun, and nothing of it is under way in the fabric or the hub (R398). -/
def hartStill (s : State) (k : Nat) : Bool :=
  let h := s.hartAt k
  !h.occ || ((h.word == 0 || h.resumed1 || h.waitSlot) && h.rolled == 0 && !h.parked && h.longs.all (fun r => r.returned) &&
    !(s.issuing && s.hart == k) &&
    s.hub.flushMarks.all (fun m => m.hart != k) && s.hub.flushAcks.all (fun m => m.1 != k) &&
    s.hub.takes.all (fun t => t.hart != k || t.orphan))

/-- Every part of a flock has stopped (R398): no page-in of it is under way. -/
def drained (s : State) (slot : Nat) (f : Flock) : Bool :=
  (s.flockHarts slot f).all s.hartStill &&
    (f.strands.map (· / 8)).all (fun c => (s.coreAt c).moves.all (fun m =>
      !(m.launch == some slot && m.flock == f.num && (match m.kind with
        | .pageIn _ => m.active
        | _ => false)))) &&
    (f.strands.map (· / 8)).all (fun c => (s.coreAt c).products.all (fun p => !f.strands.contains p.hart))

/-! ### The image (R399 to R401) -/

/-- Lines of a list that an image holds, with their bytes. -/
def imageLines (s : State) (keep : Nat → Bool) : List (Nat × List Nat) :=
  (s.written.filter keep).map (fun line => (line, s.bytesAt (64 * line) 64))

/-- Moves of a flock, by core. -/
def flockMoves (s : State) (slot : Nat) (f : Flock) : List (Nat × Move) :=
  (f.strands.map (· / 8)).eraseDups.flatMap (fun c =>
    ((s.coreAt c).moves.filter (fun m => m.launch == some slot && m.flock == f.num)).map (fun m => (c, { m with old := [] })))

/-- The fault status is of the flock's move. -/
def ownFault (slot num : Nat) (m : MoveFault) : Bool := m.launch == some slot && m.flock == num

/-- The registers of a hart whose dirty bits are set (R399). -/
def dirtyRegs (h : Hart) : List RegWrite :=
  ((upFrom 1 31).filter (bit h.dirty)).map (fun n => RegWrite.s n (Store.get 0 h.s n)) ++
    ((upFrom 0 32).filter (fun n => bit h.dirty (32 + n))).map (fun n => RegWrite.f n (Store.get 0 h.f n)) ++
    ((upFrom 0 32).filter (fun n => bit h.dirty (64 + n))).map (fun n => RegWrite.v n (Store.get 0 h.v n)) ++
    ((upFrom 1 7).filter (fun n => bit h.dirty (96 + n))).map (fun n => RegWrite.m n (Store.get 0 h.m n))

/-- A hart without its registers. -/
def bareHart (h : Hart) : Hart := { h with s := [], f := [], v := [], m := [], dirty := 0 }

/-- The tiles of a core that have been written. -/
def dirtyTiles (c : Nat) (x : Core) : List (Nat × Nat × Tile) :=
  (if bit x.zaDirty 0 then [(c, 0, x.za0)] else []) ++ (if bit x.zaDirty 1 then [(c, 1, x.za1)] else [])

/-- A line of a flock's allotments, or for a checkpoint of a record in its pool slots (R399). -/
def imageLine (l : Launch) (f : Flock) (line : Nat) : Bool :=
  flockLine l f line ||
    (f.ckpt && (poolIndex (64 * line)).any (fun r => r.1 == f.cluster && f.pool.contains r.2))

/-- The image of a drained flock: what has been written since its last one, or since it started (R399). A checkpoint's
image also holds the launch's messages in the inboxes of its cores, and the records in its pool slots. -/
def imageOf (s : State) (slot : Nat) (l : Launch) (f : Flock) : Image :=
  let cores := (f.strands.map (· / 8)).eraseDups
  let harts := s.flockHarts slot f
  { harts := harts.map (fun k => (k, bareHart (s.hartAt k))),
    regs := harts.flatMap (fun k => (dirtyRegs (s.hartAt k)).map (fun r => (k, r))),
    moves := s.flockMoves slot f,
    faults := cores.flatMap (fun c => ((s.coreAt c).moveFaults.filter (ownFault slot f.num)).map (fun m => (c, m))),
    counts := cores.map (fun c => (c, (s.coreAt c).nextSeq, (s.coreAt c).consumed)),
    za := if l.acc = 0 then [] else
      (f.strands.take 1).flatMap (fun k => dirtyTiles (k / 8) (s.coreAt (k / 8))),
    msgs := if f.ckpt then cores.flatMap (fun c =>
      ((s.coreAt c).inbox.filter (fun m => s.messageOf slot m.msg)).map (fun m => (c, m))) else [],
    lines := s.imageLines (imageLine l f),
    bad := s.written.filter (fun line => imageLine l f line && s.poison.contains line),
    mails := (cores.filter (fun c => (s.coreAt c).droverOwner == some (slot, f.num))).filterMap (fun c =>
      (s.coreAt c).mailWait.map (fun x => (c, x))),
    ckpt := f.ckpt }

/-- The strands and moves of a saved flock leave their units (R401). -/
def vacate (s : State) (slot : Nat) (f : Flock) : State :=
  let s := (f.strands.map (· / 8)).eraseDups.foldl (fun s c =>
    let x := s.coreAt c
    let mine := x.droverOwner == some (slot, f.num)
    let s := if mine then s.setHart (8 * c + 4) {} else s
    s.setCore c { x with
      moves := x.moves.filter (fun m => !(m.launch == some slot && m.flock == f.num)),
      moveFaults := x.moveFaults.filter (fun m => !ownFault slot f.num m),
      mailWait := if mine then none else x.mailWait,
      droverOwner := if mine then none else x.droverOwner }) s
  f.strands.foldl (fun s k => s.setHart k {}) s

/-- Doublewords that no rule gives: free values (log 4). -/
def freeWords (s : State) : Nat → List Nat → State × List Nat
  | 0, l => (s, l)
  | n + 1, l => s.freeValue.2.freeWords n (l ++ [s.freeValue.1.toNat])

/-- Lines of free bytes written from an address on, with the lines that were written: one whose write fails is not. -/
def writeFree (s : State) (asid : Nat) : Nat → Nat → Act (State × List (Nat × List Nat))
  | 0, _ => .ok (s, [])
  | n + 1, a =>
    let (s, l) := s.freeWords 8 []
    match s.hubWrite asid a (wordBytes l) with
    | .ok t => (t.writeFree asid n (a + 64)).map (fun r => (r.1, (a, wordBytes l) :: r.2))
    | .error (.trap _ _) => s.writeFree asid n (a + 64)
    | .error e => .error e

/-- An image, or a launch's state, is written in the image region, in the queue's address space (R399, R404, R413). Neither its
place there nor its form is stated: some run of the region's lines takes bytes that are free, and the model keeps what they
stand for (log 93). -/
def writeRegion (s : State) (l : Launch) : Act (State × List (Nat × List Nat)) :=
  let r := s.hub.imgbase.toNat
  let size := 1024 * bits r 0 16
  let (s, w) := s.freeWords 2 []
  let first := if size = 0 then 0 else nth w 0 % size
  s.writeFree (s.queueAt l.queue).asid (if size = 0 then 0 else nth w 1 % (size - first)) (bits r 16 39 * 2 ^ 16 + 64 * first)

/-- A drained flock's image is written, and the flock is SAVED (R399, R401). Its accesses perform first, one allowed
timing. The lines of the image are clean from then on. -/
def saveFlock (s : State) (slot : Nat) (l : Launch) (f : Flock) : Act State := do
  let s ← s.settleHarts (s.flockHarts slot f)
  let image := s.imageOf slot l f
  let (s, _) ← s.writeRegion l
  let s := s.vacate slot f
  let s : State := { s with written := s.written.filter (fun line => !imageLine l f line) }
  .ok ((s.updateFlock slot f.num (fun g => { g with status := 3, images := g.images ++ [image] })).clearBusy slot f.num)

/-- A saved hart as it goes on: its registers as the images have them, the base first and then each delta; its bundles are
fetched again. -/
def restoredHart (images : List Image) (k : Nat) (h : Hart) : Hart :=
  { (((images.flatMap (fun i => i.regs)).filter (fun e => e.1 == k)).map (·.2)).foldl Hart.applyWrite h with
    dirty := 0, fetch := [] }

/-- The lines of images written back, the base first and then each delta, with their poison: those of the flock's allotments;
its records have stayed in their place (R400). They are clean. -/
def restoreLines (s : State) (l : Launch) (f : Flock) (images : List Image) : State :=
  let s := images.foldl (fun s i =>
    let s := (i.lines.filter (fun e => flockLine l f e.1)).foldl (fun s e => s.perform (64 * e.1) e.2) s
    ({ s with poison := s.poison ++ i.bad.filter (fun line => flockLine l f line && !s.poison.contains line) } : State)) s
  { s with written := s.written.filter (fun line => !flockLine l f line) }

/-- The tiles of images back in their cores; they are clean. -/
def restoreTiles (s : State) (images : List Image) : State :=
  (images.flatMap (fun i => i.za)).foldl (fun s e =>
    let x := s.coreAt e.1
    s.setCore e.1 (if e.2.1 = 0 then { x with za0 := e.2.2, zaDirty := 0 } else { x with za1 := e.2.2, zaDirty := 0 })) s

/-- A core's ticket sequence goes on past every ticket of the restored flock, and the flock that holds the tiles has its
count of consumed products again (R221, R400). -/
def restoreCounts (s : State) (tiles : Bool) (lead : Nat) (counts : List (Nat × Nat × Nat)) : State :=
  counts.foldl (fun s e =>
    let x := s.coreAt e.1
    s.setCore e.1 { x with
      nextSeq := max x.nextSeq e.2.1, consumed := if tiles ∧ e.1 = lead then e.2.2 else x.consumed }) s

/-- What a `rollback` wrote with the image enters its inbox or its queue, in its order (R347): a re-injection finds its slot
on arrival. -/
def restoreLate (s : State) (late : List (Nat × Msg)) : State :=
  late.foldl (fun s e =>
    let x := s.coreAt e.1
    s.setCore e.1 (if e.2.anti then { x with outbound := x.outbound ++ [e.2] }
      else { x with netWait := x.netWait ++ [{ e.2 with reinjected := true }] })) s

/-- A saved flock's image restored, before its first bundle issues (R399 to R401). The messages and records that a
checkpoint's image holds are those still in place. -/
def restoreFlock (s : State) (slot : Nat) (l : Launch) (f : Flock) : State :=
  match f.images.getLast? with
  | none => s
  | some i =>
    let s := s.restoreLines l f f.images
    let s := i.harts.foldl (fun s e => s.setHart e.1 (restoredHart f.images e.1 e.2)) s
    let s := (i.harts.filter (fun e => e.1 % 8 == 4)).foldl (fun s e =>
      s.setCore (e.1 / 8) { s.coreAt (e.1 / 8) with droverOwner := some (slot, f.num) }) s
    let s := i.mails.foldl (fun s e => s.setCore e.1 { s.coreAt e.1 with mailWait := some e.2 }) s
    let s := i.moves.foldl (fun s e =>
      s.setCore e.1 { s.coreAt e.1 with moves := (s.coreAt e.1).moves ++ [e.2] }) s
    let s := i.faults.foldl (fun s e =>
      s.setCore e.1 { s.coreAt e.1 with moveFaults := (s.coreAt e.1).moveFaults ++ [e.2] }) s
    let s := ((s.restoreTiles f.images).restoreCounts (decide (1 ≤ l.acc)) (f.strands.headD 0 / 8) i.counts).restoreLate f.late
    let flocks := l.flocks.map (fun g => if g.num = f.num then { g with status := 1, late := [] } else g)
    s.notePlaced slot { l with flocks := flocks } f.prio

/-! ### The state of a launch in a checkpoint (R404) -/

/-- What the launch unit writes of a launch (R404). -/
def savedLaunch (s : State) (slot : Nat) (l : Launch) : SavedLaunch :=
  { slot := slot, launch := l, conts := s.hub.conts.filter (fun c => c.slot == slot), society := s.societyOf (some slot),
    busy := l.flocks.flatMap (fun f => (f.pool.filter (fun i =>
      f.status == 3 && (s.clusterAt f.cluster).poolBusy.contains i)).map (fun i => (f.cluster, i))),
    packet := s.hub.packets.find? (fun p => p.queue == l.queue && p.index == l.index) }

/-- The request in progress asks for the state of a launch (R404). -/
def saveAsked (s : State) : Option (Nat × Launch) :=
  match s.hub.preqJob with
  | some (slot, num) => if num = noFlock then (s.launchAt slot).map (fun l => (slot, l)) else none
  | none => none

end State

/-- FLOCK_SAVED (R401): flock `aux` of slot `idx` has drained. -/
def execFlockSaved (s : State) : Host.Outcome State Fault Refusal :=
  finishEvent s (match s.evFlock with
    | some (l, f) =>
      if f.status = 2 ∧ s.flockOver s.ev.idx f = false ∧ s.drained s.ev.idx f = true then s.saveFlock s.ev.idx l f
      else .error .wait
    | none => .error .wait)

/-- FLOCK_RESTORE (R376, R401): the next flock that the launch unit can place is a saved one. -/
def execFlockRestore (s : State) : Host.Outcome State Fault Refusal :=
  .next (match s.nextPlacement with
    | some (slot, l, some f, _, _) => s.restoreFlock slot l f
    | _ => s)

/-- LAUNCH_STATE_SAVE (R404): the state of the launch that the request names is saved, and BUSY clears. -/
def execLaunchStateSave (s : State) : Host.Outcome State Fault Refusal :=
  finishEvent s (match s.saveAsked with
    | some (slot, l) => do
      let (t, lines) ← s.writeRegion l
      let x := { s.savedLaunch slot l with asid := (s.queueAt l.queue).asid, lines := lines }
      let t : State := { t with hub := { t.hub with savedLaunches := t.hub.savedLaunches ++ [x] } }
      .ok (t.clearBusy slot State.noFlock)
    | none => .ok s)

end Sys2Proof.Machine
end

