-- ==== Sys2Proof/Machine/Fabric.lean ====
section
/-!
DEFINITION. Steps of the fabric and of recovery (R396, R402 to R404, R424 to R432), of the host port (R433 to R435), and
writes of registers as steps of their own (R7, R407, R410 to R412, R415).
-/

namespace Sys2Proof.Machine

/-! ### Links and planes (R396, R428 to R432) -/

/-- The state of a port (R431). -/
def Link.usable (l : Link) : Nat := 96 - l.retired

namespace State

/-- A port replaced. -/
def setLink (s : State) (n : Nat) (l : Link) : State := { s with hub := { s.hub with links := Store.set {} s.hub.links n l } }

/-! #### Packets that are lost (R396, R426) -/

/-- Near-memory operations to places that are lost fail at their markers. -/
def loseNears (s : State) (gone : Nat → Bool) : State :=
  let hit := fun (t : PendingNear) => (s.accessPlaces t.hart t.addr).any gone
  let lost := s.nears.filter hit
  lost.foldl (fun s t => s.faultLong t.hart (some t.long) 0x0E t.addr)
    { s with nears := s.nears.filter (fun t => !hit t) }

/-- A load whose packet was lost has 0x0E at its marker: a reduce-load has one to every member of its group (R269). -/
def loseLoad (s : State) (k : Nat) (gone : Nat → Bool) (r : LongRes) : LongRes :=
  let hit := fun a => (s.accessPlaces k a).any gone
  if r.returned then r
  else match r.src.find? hit with
    | some a => r.lose a
    | none => r

/-- Loads of the harts that have not come back from places that are lost. -/
def loseLoads (s : State) (gone : Nat → Bool) : State :=
  s.harts.foldl (fun t e =>
    if e.2.longs.all (fun r => r.src.isEmpty) then t
    else t.setHart e.1 { t.hartAt e.1 with longs := (t.hartAt e.1).longs.map (s.loseLoad e.1 gone) }) s

/-- Every access whose packet was lost fails: loads and near-memory operations at their markers, stores and reductions
asynchronously (R396). -/
def losePackets (s : State) (gone : Nat → Bool) : State :=
  ((s.loseLoads gone).loseNears gone).loseAccesses gone

/-- Flush markers that are lost: nothing is ahead of them any more, and the last of a source's counts as acknowledged. -/
def loseMarks (s : State) (gone : FlushMark → Bool) : State :=
  let marks := s.hub.flushMarks.filter (fun m => !gone m)
  let pairs := ((s.hub.flushMarks.filter gone).map (fun m => (m.hart, m.dest))).eraseDups
  { s with hub := { s.hub with
    flushMarks := marks,
    flushAcks := s.hub.flushAcks ++ pairs.filter (fun e => !marks.any (fun m => m.hart == e.1 && m.dest == e.2)) } }

/-! #### The working sets (R428 to R430) -/

/-- Near-memory operations of a list of harts executed. -/
def settleNearHarts (s : State) : List Nat → Act State
  | [] => .ok s
  | k :: t => do
    let s ← s.settleNears k
    s.settleNearHarts t

/-- Every plane drained toward the packages that `dest` names, as the flush of R267 does before its hash changes: what is on
its way there has arrived and performed (R266, R430). -/
def flushPlanes (s : State) (dest : Nat → Bool) : Act State := do
  let goes := fun (p : Nat) => s.remote p && dest (pkgOfPlace p)
  let nears := s.nears.filter (fun t => (s.accessPlaces t.hart t.addr).any goes)
  let s ← s.settleSome (fun _ _ p => goes p)
  s.settleNearHarts (nears.map (·.hart)).eraseDups

/-- A destination leaves a plane to which no working link leads: what was on its way there is lost, and its lines are rehashed
over the other planes, after a flush of every plane toward it (R396, R430). -/
def destLeaves (s : State) (dest : Nat → Bool) (plane : Nat) : Act State :=
  let gone := fun (p : Nat) => s.remote p && dest (pkgOfPlace p) && s.planeOf p == some plane
  ((s.losePackets gone).loseMarks (fun m => dest m.dest && m.plane == plane)).flushPlanes dest

/-- A link leaves the working set of its plane (R429): an entry of the error log, and vector 3. Its flits that nothing has
acknowledged are sent again in order on another link of the plane: the accesses stay on their way, and the pairs are hashed
over the links left (R396, R430). Where none is left, every destination leaves the plane. -/
def linkLeaves (s : State) (n state : Nat) : Act State :=
  let leave := fun (s : State) =>
    ((s.setLink n { s.linkAt n with state := state }).logError logLink n state false).raiseVector 3
  if s.upLinks (n / 4) = [n] then (s.destLeaves (fun _ => true) (n / 4)).map (fun t => (leave t).raiseVector 3)
  else .ok (leave s)

/-- A link joins the working set of its plane, after a flush (R429, R430). -/
def linkJoins (s : State) (n : Nat) : Act State := do
  let s ← s.flushPlanes (fun _ => true)
  .ok (s.setLink n { s.linkAt n with state := 0 })

/-- No working link of a plane leads to a package any more (R430). -/
def planeLost (s : State) (pkg plane : Nat) : Act State :=
  if s.hub.awayPlanes.contains (pkg, plane) then .ok s
  else do
    let s ← s.destLeaves (fun p => p == pkg) plane
    .ok (({ s with hub := { s.hub with awayPlanes := s.hub.awayPlanes ++ [(pkg, plane)] } } : State).raiseVector 3)

/-- A plane leads to a package again, after a flush toward it (R430). -/
def planeBack (s : State) (pkg plane : Nat) : Act State := do
  let s ← s.flushPlanes (fun p => p == pkg)
  .ok { s with hub := { s.hub with awayPlanes := s.hub.awayPlanes.filter (fun e => e ≠ (pkg, plane)) } }

end State

/-- FLIT_REPLAY (R396): a flit of port `idx` fails its CRC and is replayed; `ok` is false where the replay fails too. A
flit that a retry delivers is a transient event of the launch of slot `aux` - 1 (R395). -/
def execFlitReplay (s : State) : Host.Outcome State Fault Refusal :=
  let n := s.ev.idx % 32
  let t := s.setLink n { s.linkAt n with replays := min ((s.linkAt n).replays + 1) 0xFFFF }
  if s.ev.ok then .next (t.countTransient (if s.ev.aux = 0 then none else some (s.ev.aux - 1)) logLink n 0)
  else finishEvent s (t.linkLeaves n 2)

/-- LINK_DEGRADE (R428, R429): the ECC check of a flit buffer of port `idx` fails. Where its retry passes (`aux` 1), the event is
transient; else the buffer is retired. With `aux` 2, the links of plane `idx` to package `val` fail at its side. -/
def execLinkDegrade (s : State) : Host.Outcome State Fault Refusal :=
  if s.ev.aux = 2 then finishEvent s (s.planeLost (s.ev.val % 2 ^ 15) (s.ev.idx % 8))
  else
    let n := s.ev.idx % 32
    let l := s.linkAt n
    if s.ev.aux = 1 then .next (s.countTransient none logLink n 0)
    else
      let l := { l with retired := min (l.retired + 1) 96 }
      let t := s.setLink n l
      if l.state = 0 ∧ l.usable < 24 then finishEvent s (t.linkLeaves n 1) else .next t

/-- LINK_RETRAIN (R429, R431): port `idx`, in training, rejoins its plane after a flush of it, when it passes (`ok`) with
24 usable buffers or more; `aux` 1 says that the port has no partner. With `aux` 2, plane `idx` leads to package `val` again. -/
def execLinkRetrain (s : State) : Host.Outcome State Fault Refusal :=
  if s.ev.aux = 2 then finishEvent s (s.planeBack (s.ev.val % 2 ^ 15) (s.ev.idx % 8))
  else
    let n := s.ev.idx % 32
    let l := s.linkAt n
    if l.state = 3 then
      if s.ev.aux = 1 then .next (s.setLink n { l with state := 4 })
      else if !s.ev.ok then .next (s.setLink n { l with state := 2 })
      else if l.usable < 24 then .next (s.setLink n { l with state := 1 })
      else finishEvent s (s.linkJoins n)
    else .next s

/-! ### Keepalives (R432): 5 ms are 5,500,000 cycles -/

namespace State

/-- A flit has come from a port of a package: the port is not silent. -/
def flitCame (s : State) (key : Nat) : State :=
  { s with hub := { s.hub with
    flitAt := Store.set 0 s.hub.flitAt key s.cycle, silent := s.hub.silent.filter (· ≠ key) } }

/-- A port of a package: 32 · package + port. -/
def portKey (s : State) : Nat := 32 * (s.ev.val % 2 ^ 15) + s.ev.idx % 32

end State

/-- KEEPALIVE_SEND (R428, R432): port `idx` sends its keepalive, every 5 ms, against a credit; with `aux` 1, a flit comes from
port `idx` of package `val`, and a report that it is silent ends (log 94). -/
def execKeepaliveSend (s : State) : Host.Outcome State Fault Refusal :=
  let n := s.ev.idx % 32
  .next (if s.ev.aux = 1 then s.flitCame s.portKey
    else if Store.get 0 s.hub.keptAt n + 5500000 ≤ s.cycle ∧ s.linkCredit n .control = true then
      { s with hub := { s.hub with keptAt := Store.set 0 s.hub.keptAt n s.cycle } }
    else s)

/-- KEEPALIVE_TIMEOUT (R432): nothing has come from port `idx` of package `val` for 80 ms, 88,000,000 cycles, and it is reported
silent; with all 32 reported, the package has failed. -/
def execKeepaliveTimeout (s : State) : Host.Outcome State Fault Refusal :=
  let p := s.ev.val % 2 ^ 15
  let key := s.portKey
  .next (if Store.get 0 s.hub.flitAt key + 88000000 ≤ s.cycle then
      let silent := if s.hub.silent.contains key then s.hub.silent else s.hub.silent ++ [key]
      let all := (upFrom (32 * p) 32).all silent.contains
      { s with hub := { s.hub with
        silent := silent,
        failed := if all && !s.hub.failed.contains p then s.hub.failed ++ [p] else s.hub.failed } }
    else s)

/-! ### Recovery (R253, R254, R402 to R404) -/

namespace State

/-- A list of leases whose lender is lost, ended one by one (R254). -/
def loseLenders (s : State) : List AgistLease → Act State
  | [] => .ok s
  | a :: t => do
    let s ← s.loseLender a
    s.loseLenders t

/-- Every lease with a package that is lost: those it lent to this one end, and those it borrowed are mustered, so that
they are revoked when their windows expire (R253, R254, R403, R426). -/
def endLeasesOf (s : State) (lost : Nat → Bool) : Act State :=
  let s := (s.hub.agist.filter (fun a => a.state == 2 && lost a.borrower)).foldl (fun s a => s.musterLease a) s
  s.loseLenders (s.hub.agist.filter (fun a => borrowed a && lost a.lender))

/-- The leases with packages that are fenced or outside the paddock end: a failure alone is not yet known (R254). -/
def endLostLeases (s : State) : Act State := s.endLeasesOf s.cutOff

/-- The harts of a launch emptied, and its moves dropped, as its saved state replaces what ran. -/
def clearLaunch (s : State) (slot : Nat) : State :=
  let mine := (s.harts.filter (fun e => e.2.slot == some slot)).map (·.1)
  let s := mine.foldl (fun s k => (s.disown k).setHart k {}) s
  let cores := mapUnits {} s.cores (fun _ c => { c with
    moves := c.moves.filter (fun m => m.launch ≠ some slot),
    products := c.products.filter (fun p => !mine.contains p.hart),
    droverOwner := match c.droverOwner with
      | some (n, f) => if n = slot then none else some (n, f)
      | none => none,
    inbox := if c.tableOwner = some slot then [] else c.inbox,
    tallies := Store.set {} c.tallies slot {},
    mailWait := if (c.droverOwner.map (·.1)) = some slot then none else c.mailWait,
    joins := c.joins.filter (fun j => j.2.2 ≠ slot) })
  let clusters := mapUnits {} s.clusters (fun _ c => { c with
    ready := c.ready.filter (fun e => e.2 ≠ slot), pool := c.pool.filter (fun e => e.2.1 ≠ slot) })
  { s with cores := cores, clusters := clusters, hub := { s.hub with
    conts := s.hub.conts.filter (fun c => c.slot ≠ slot), societies := s.hub.societies.filter (fun x => x.slot ≠ slot) } }

/-- A saved flock back in its units' tables: its record slots, its handler tables, and the messages and records that its
image holds (R399, R400). -/
def reinstallFlock (s : State) (slot : Nat) (l : Launch) (f : Flock) : State :=
  if f.status = 3 then
    let x := s.clusterAt f.cluster
    let s := s.setCluster f.cluster { x with pool := x.pool ++ f.pool.map (fun i => (i, slot, f.num)) }
    let s := (f.strands.map (· / 8)).eraseDups.foldl (fun s c =>
      if l.himg.isEmpty then s else s.setCore c { s.coreAt c with tableOwner := some slot }) s
    match f.images.getLast? with
    | some i =>
      let s := i.msgs.foldl (fun s e =>
        (s.setCore e.1 { s.coreAt e.1 with inbox := (s.coreAt e.1).inbox ++ [e.2] }).showMessage e.1 e.2) s
      ((f.images.flatMap (fun j => j.lines)).filter (fun e => (poolIndex (64 * e.1)).isSome)).foldl
        (fun s e => s.perform (64 * e.1) e.2) s
    | none => s
  else s

/-- The lease counts of the launch that a slot holds now give way to those of its saved state (R240, R404). -/
def reinstallCounts (s : State) (x : SavedLaunch) : State :=
  (match s.launchAt x.slot with
   | some l => s.countLeases false l.held
   | none => s).countLeases true x.launch.held

/-- A launch's state reinstalled from the image region (R404): its flocks are SAVED, and its packet has not completed. -/
def reinstall (s : State) (x : SavedLaunch) : State :=
  let s := (s.reinstallCounts x).clearLaunch x.slot
  let s := s.setLaunch x.slot (some x.launch)
  let s := x.launch.flocks.foldl (fun s f => s.reinstallFlock x.slot x.launch f) s
  let s := x.busy.foldl (fun s e =>
    let c := s.clusterAt e.1
    s.setCluster e.1 { c with poolBusy := c.poolBusy.filter (· ≠ e.2) ++ [e.2] }) s
  let s : State := { s with hub := { s.hub with
    packets := s.hub.packets.filter (fun p => !(p.queue == x.launch.queue && p.index == x.launch.index)) ++
      (match x.packet with
       | some p => [p]
       | none => []),
    conts := s.hub.conts ++ x.conts,
    societies := s.hub.societies ++ (match x.society with
      | some y => [y]
      | none => []) } }
  match x.society with
  | some y => s.forCores x.slot (fun t => { t with colour := y.colour })
  | none => s

/-- A saved launch state stands in the image region: its lines hold the bytes that were written (log 93). -/
def stands (s : State) (x : SavedLaunch) : Bool :=
  x.lines.all (fun e => match s.hubRead x.asid e.1 64 64 with
    | .ok (_, l) => l == e.2
    | .error _ => false)

/-- Of several saved states of a slot the last one. -/
def lastSaves : List SavedLaunch → List SavedLaunch
  | [] => []
  | x :: t => if t.any (fun y => y.slot == x.slot) then lastSaves t else x :: lastSaves t

end State

/-- RECOVERY_FENCE (R403): the switches drop the traffic of package `val`, which has failed; every lease with it ends. -/
def execRecoveryFence (s : State) : Host.Outcome State Fault Refusal :=
  let p := s.ev.val % 2 ^ 15
  if s.hub.failed.contains p && !s.hub.fenced.contains p && p != s.hub.pkg then
    finishEvent s (({ s with hub := { s.hub with fenced := s.hub.fenced ++ [p] } } : State).endLostLeases)
  else .next s

/-- RECOVERY_RECONFIGURE (R231, R403): a spare stands in the place of package `val`, with its id. What its memory holds, no
rule says; the model lists nothing of it (log 1). -/
def execRecoveryReconfigure (s : State) : Host.Outcome State Fault Refusal :=
  let p := s.ev.val % 2 ^ 15
  .next (if s.hub.fenced.contains p && p != s.hub.pkg then
      { s with
        mem := s.mem.filter (fun e => decide (2 ^ 63 ≤ e.1) || pkgOfPlace e.1 != p),
        poison := s.poison.filter (fun l => decide (2 ^ 57 ≤ l) || pkgOfPlace (64 * l) != p),
        hub := { s.hub with
          failed := s.hub.failed.filter (· ≠ p), fenced := s.hub.fenced.filter (· ≠ p),
          silent := s.hub.silent.filter (fun k => k / 32 ≠ p),
          flitAt := (upFrom (32 * p) 32).foldl (fun t k => Store.set 0 t k s.cycle) s.hub.flitAt } }
    else s)

/-- RECOVERY_RESTORE (R403, R404): the launch unit reinstalls the launches whose state stands in the image region; their flocks
become SAVED. -/
def execRecoveryRestore (s : State) : Host.Outcome State Fault Refusal :=
  .next ((State.lastSaves (s.hub.savedLaunches.filter s.stands)).foldl (fun s x => s.reinstall x) s)

/-! ### Circuits (R424 to R426) -/

/-- CIRCUIT_CHANGE (R424, R426): the circuits to the packages of the event's list are removed, and what is in flight on them is
lost; or, where `ok` is false, circuits lead to them again. A lease that spans the cut ends when PADDOCK tells of it (R254). -/
def execCircuitChange (s : State) : Host.Outcome State Fault Refusal :=
  let named := (s.ev.list.filter (· ≠ s.hub.pkg)).eraseDups
  let stay := s.hub.awayPlanes.filter (fun e => !named.contains e.1)
  .next (if s.ev.ok then
      let t : State := { s with hub := { s.hub with
        awayPlanes := stay ++ named.flatMap (fun p => (upFrom 0 8).map (fun n => (p, n))) } }
      (t.losePackets (fun p => t.remote p && named.contains (pkgOfPlace p))).loseMarks (fun m => named.contains m.dest)
    else { s with hub := { s.hub with awayPlanes := stay } })

/-- PADDOCK_WRITE (R424, R254, R426): PADDOCK takes the value of the event, its high half where `aux` is 1, and the leases
that the new membership cuts end. -/
def execPaddockWrite (s : State) : Host.Outcome State Fault Refusal :=
  finishEvent s (s.writePaddock (s.ev.aux == 1) s.ev.val).endLostLeases

/-! ### The host port (R433 to R435) -/

namespace State

/-- The host port takes accesses: the package is up (R439, R441). -/
def hostUp (s : State) : Bool := s.hub.booted && !s.hub.hostDown

/-- The alignment of a host access through the window: its size, when that is a power of two up to 8 (R127, R434). -/
def hostAlign (n : Nat) : Nat := if n = 2 ∨ n = 4 ∨ n = 8 then n else 1

/-- A failed host access enters the error log (R434); whether it counts as lasting, no rule says (log 4). -/
def hostError (s : State) (a cause : Nat) : State :=
  let (x, s) := s.freeValue
  s.logError logHost a cause (bit x.toNat 0)

/-- The virtual address of an offset into the host window (R434). -/
def hostAddr (s : State) (x : Nat) : Nat := (s.hub.hostwin.toNat / 2 ^ 40 % 2 ^ 15) * 2 ^ 40 + x

/-- The address space of host accesses. -/
def hostAsid (s : State) : Nat := s.hub.hostwin.toNat % 2 ^ 12

/-- A host write through BAR2 (R434): it performs in its turn, once it may (R250, R266, R435); at a lost home it fails. -/
def hostStore (s : State) (x : Nat) (data : List Nat) : Act State :=
  let r : Act State := do
    let (s, cs) ← s.check (s.whoHub s.hostAsid) .store (s.hostAddr x) data.length (hostAlign data.length)
    if cs.any (fun c => (s.replicas c).any s.homeLost) then .error (.trap 0x0E (s.hostAddr x))
    else if cs.any s.hubHeld then .error .wait else s.performChunks false cs data
  match r with
  | .error (.trap c a) => .ok (s.hostError a c)
  | r => r

/-- A host read's answer; none for Unsupported Request. -/
def answerHost (s : State) (l : Option (List Nat)) : State := { s with hub := { s.hub with hostAnswer := l } }

/-- A host read through BAR2 (R434). -/
def hostLoad (s : State) (x n : Nat) : Act State :=
  match s.readBytes (s.whoHub s.hostAsid) (.load n) (s.hostAddr x) n (hostAlign n) with
  | .ok (t, l) => .ok (t.answerHost (some l))
  | .error e =>
    match e.trapped s with
    | some (t, c, a) => .ok ((t.hostError a c).answerHost none)
    | none => .error e

/-- BAR0 accepts an access: 4 or 8 bytes, aligned, in its 1 MiB (R433). -/
def bar0Ok (x n : Nat) : Bool := (n == 4 || n == 8) && x % n == 0 && decide (x < 2 ^ 20)

/-! #### BAR4 (R433, R436): its layout is that of PCI Express, which the specification names (log 99) -/

/-- BAR4 accepts an access: 4 or 8 bytes, aligned, in its 64 KiB. -/
def bar4Ok (x n : Nat) : Bool := (n == 4 || n == 8) && x % n == 0 && decide (x < 2 ^ 16)

/-- A 4-byte word of BAR4: the table from 0 on, the pending bits at 0x8000, and zero elsewhere. -/
def readBar4 (s : State) (x : Nat) : Nat :=
  if x < 0x100 then s.hub.msixWord (x / 4) else if x = 0x8000 then s.hub.pendingBits % 2 ^ 32 else 0

/-- A 4-byte word written to BAR4: the table alone takes writes; a vector that is no longer masked has nothing pending. -/
def writeBar4 (s : State) (x v : Nat) : State :=
  if x < 0x100 then
    let i := x / 4
    let pending := if i % 4 = 3 ∧ v % 2 = 0 then setBits s.hub.pendingBits (i / 4) 1 0 else s.hub.pendingBits
    { s with hub := { s.hub with
      msix := Store.set (if i % 4 = 3 then 1 else 0) s.hub.msix i (v % 2 ^ 32), pendingBits := pending } }
  else s

/-- A host write to BAR4. -/
def hostTable (s : State) (x : Nat) (data : List Nat) : State :=
  let t := s.writeBar4 x (ofBytes (data.take 4))
  if data.length = 8 then t.writeBar4 (x + 4) (ofBytes (data.drop 4)) else t

/-- A host read of BAR4. -/
def readTable (s : State) (x n : Nat) : List Nat :=
  bytesOf 4 (s.readBar4 x) ++ (if n = 8 then bytesOf 4 (s.readBar4 (x + 4)) else [])

end State

/-- HOST_WRITE (R433 to R435): the bytes of `list` at offset `addr` of BAR `idx`. -/
def execHostWrite (s : State) : Host.Outcome State Fault Refusal :=
  let data := s.ev.list
  let x := s.ev.addr
  if !s.hostUp then .next s
  else if s.ev.idx = 0 then
    (if State.bar0Ok x data.length then finishEvent s (s.writeDevice true (0x8000000000 + x) data.length (ofBytes data)) else .next s)
  else if s.ev.idx = 2 ∧ x + data.length ≤ 2 ^ 40 then finishEvent s (s.hostStore x data)
  else if s.ev.idx = 4 then .next (if State.bar4Ok x data.length then s.hostTable x data else s)
  else .next s

/-- HOST_READ (R433 to R435): `val` bytes at offset `addr` of BAR `idx`. -/
def execHostRead (s : State) : Host.Outcome State Fault Refusal :=
  let n := s.ev.val
  let x := s.ev.addr
  if !s.hostUp then .next (s.answerHost none)
  else if s.ev.idx = 0 then
    (if State.bar0Ok x n then
      finishEvent s ((s.readDevice (0x8000000000 + x) n).map (fun v => s.answerHost (some (bytesOf n v))))
     else .next (s.answerHost none))
  else if s.ev.idx = 2 ∧ x + n ≤ 2 ^ 40 then finishEvent s (s.hostLoad x n)
  else if s.ev.idx = 4 then .next (s.answerHost (if State.bar4Ok x n then some (s.readTable x n) else none))
  else .next (s.answerHost none)

/-! ### Writes of registers (R7, R407, R410 to R412, R415) -/

/-- A write of a sysreg by the event's hart, where it may issue. -/
def State.regEvent (s : State) (n : Nat) : Host.Outcome State Fault Refusal :=
  let k := s.evHart
  let h := s.hartAt k
  if h.occ && !h.halted && k % 8 != 4 then s.asHart k (fun u => u.swrOp n u.ev.val) else .next s

/-- REGISTER_WRITE (R7): the sysreg that `list` names, by the event's hart; or the device register at `addr`. -/
def execRegisterWrite (s : State) : Host.Outcome State Fault Refusal :=
  match s.ev.list with
  | n :: _ => s.regEvent n
  | [] => finishEvent s (s.writeDevice true (s.ev.addr / 8 * 8) 8 s.ev.val)

/-- MCGSYNC_WRITE (R415). -/
def execMcgsyncWrite (s : State) : Host.Outcome State Fault Refusal := s.regEvent 0x208

/-- TAG_REGISTER_WRITE (R407): TAG register `idx`. -/
def execTagRegisterWrite (s : State) : Host.Outcome State Fault Refusal := s.regEvent (0x010 + s.ev.idx % 8)

/-- TSTATUS_WRITE (R410). -/
def execTstatusWrite (s : State) : Host.Outcome State Fault Refusal := s.regEvent 0x104

/-- ASID_WRITE (R411). -/
def execAsidWrite (s : State) : Host.Outcome State Fault Refusal := s.regEvent 0x200

/-- FLOORINT_WRITE (R412). -/
def execFloorintWrite (s : State) : Host.Outcome State Fault Refusal := s.regEvent 0x201

end Sys2Proof.Machine
end

