-- ==== Sys2Proof/Machine/Flags.lean ====
section
/-!
DEFINITION. The flags: DIVX of a division (R74, R408), and the floating-point flags, which are ORed into FFLAGS at the
marker that writes the result (R82, R179).
-/

namespace Sys2Proof.Machine

/-- A signed division: quotient, remainder, and whether DIVX is set (R74). -/
def divSigned (a b : Nat) : Nat × Nat × Bool :=
  let x := toSigned 64 a
  let y := toSigned 64 b
  if y = 0 then (if x < 0 then 2 ^ 63 else 2 ^ 63 - 1, 0, true)
  else if x = -(2 ^ 63 : Int) ∧ y = -1 then (2 ^ 63 - 1, 0, true)
  else (wrap 64 (Int.tdiv x y), wrap 64 (x - y * Int.tdiv x y), false)

/-- An unsigned division (R74). -/
def divUnsigned (a b : Nat) : Nat × Nat × Bool :=
  if b = 0 then (2 ^ 64 - 1, 0, true) else (a / b, a % b, false)

namespace State

/-- MSTATUS.DIVX (R408); a drover program has no MSTATUS (R74). -/
def setDivx (s : State) (hit : Bool) : State :=
  if hit && !s.isDrover then s.setMe { s.me with mstatus := s.me.mstatus ||| 2 ^ 17 } else s

/-- A short result with the DIVX flag of a division. -/
def shortDiv (s : State) (d x : Nat) (hit : Bool) : State := (s.setDivx hit).shortS d x

/-- The dynamic rounding mode (R81), read at issue. -/
def rmode (s : State) : RMode := RMode.ofCode s.me.frm

/-- A long FP result in an f register, with its flags (R22, R82). -/
def longFp (s : State) (d : Nat) (r : Nat × Nat) : State := s.longF d r.1 r.2

/-- A long FP truth value in an s register, with its flags (R85). -/
def longTruth (s : State) (d : Nat) (r : Bool × Nat) : State := s.longS d (bool1 r.1) r.2

/-- An f register as an operand of a precision: FP32 reads bits [31:0] (R22). -/
def fpArg (s : State) (n p : Nat) : Nat := if p = 0 then s.rf n % 2 ^ 32 else s.rf n

end State

end Sys2Proof.Machine
end

