-- ==== Sys2Proof/Machine/Fp.lean ====
section
/-!
DEFINITION. Scalar floating point: majors 0x27 and 0x28 (R81 to R89). Every instruction is long.
-/

namespace Sys2Proof.Machine

/-- `fadd`: R83, R84. -/
def execFadd (d a b p : Nat) (s : State) : Host.Outcome State Fault Refusal :=
  .next (s.longFp d (fpAdd (fmtOf p) s.rmode (s.fpArg a p) (s.fpArg b p)))

/-- `fsub`: R83, R84. -/
def execFsub (d a b p : Nat) (s : State) : Host.Outcome State Fault Refusal :=
  .next (s.longFp d (fpSub (fmtOf p) s.rmode (s.fpArg a p) (s.fpArg b p)))

/-- `fmul`: R83, R84. -/
def execFmul (d a b p : Nat) (s : State) : Host.Outcome State Fault Refusal :=
  .next (s.longFp d (fpMul (fmtOf p) s.rmode (s.fpArg a p) (s.fpArg b p)))

/-- `fdiv`: R83, R84. -/
def execFdiv (d a b p : Nat) (s : State) : Host.Outcome State Fault Refusal :=
  .next (s.longFp d (fpDiv (fmtOf p) s.rmode (s.fpArg a p) (s.fpArg b p)))

/-- `fsqrt`: R83, R84. -/
def execFsqrt (d a p : Nat) (s : State) : Host.Outcome State Fault Refusal :=
  .next (s.longFp d (fpSqrt (fmtOf p) s.rmode (s.fpArg a p)))

/-- `fmin`: R86. -/
def execFmin (d a b p : Nat) (s : State) : Host.Outcome State Fault Refusal :=
  .next (s.longFp d (fpMin (fmtOf p) (s.fpArg a p) (s.fpArg b p)))

/-- `fmax`: R86. -/
def execFmax (d a b p : Nat) (s : State) : Host.Outcome State Fault Refusal :=
  .next (s.longFp d (fpMax (fmtOf p) (s.fpArg a p) (s.fpArg b p)))

/-- `fneg`: the sign bit inverted (R83, R84). -/
def execFneg (d a p : Nat) (s : State) : Host.Outcome State Fault Refusal :=
  .next (s.longF d (fpNeg (fmtOf p) (s.fpArg a p)))

/-- `fabs`: the sign bit cleared (R83, R84). -/
def execFabs (d a p : Nat) (s : State) : Host.Outcome State Fault Refusal :=
  .next (s.longF d (fpAbs (fmtOf p) (s.fpArg a p)))

/-- `feq`: R85. -/
def execFeq (d a b p : Nat) (s : State) : Host.Outcome State Fault Refusal :=
  .next (s.longTruth d (fpEq (fmtOf p) (s.fpArg a p) (s.fpArg b p)))

/-- `flt`: R85. -/
def execFlt (d a b p : Nat) (s : State) : Host.Outcome State Fault Refusal :=
  .next (s.longTruth d (fpLt (fmtOf p) (s.fpArg a p) (s.fpArg b p)))

/-- `fle`: R85. -/
def execFle (d a b p : Nat) (s : State) : Host.Outcome State Fault Refusal :=
  .next (s.longTruth d (fpLe (fmtOf p) (s.fpArg a p) (s.fpArg b p)))

/-- `fcvts`: FP64 to FP32 by an explicit mode (R88). -/
def execFcvtS (d a r : Nat) (s : State) : Host.Outcome State Fault Refusal :=
  .next (s.longFp d (fpConvert Fmt.f64 Fmt.f32 (RMode.ofCode r) (s.rf a)))

/-- `fcvtd`: FP32 to FP64, exactly (R88). -/
def execFcvtD (d a : Nat) (s : State) : Host.Outcome State Fault Refusal :=
  .next (s.longFp d (fpConvert Fmt.f32 Fmt.f64 .rne (s.fpArg a 0)))

/-- A conversion to an integer of a range: the wrapped value and its flags (R88). -/
def toIntResult (p r : Nat) (lo hi : Int) (x : Nat) : Nat × Nat :=
  let (i, f) := fpToInt (fmtOf p) (RMode.ofCode r) lo hi x
  (wrap 64 i, f)

/-- `fcvti`: to a signed integer (R88). -/
def execFcvti (d a p r : Nat) (s : State) : Host.Outcome State Fault Refusal :=
  let x := toIntResult p r (-(2 ^ 63)) (2 ^ 63 - 1) (s.fpArg a p)
  .next (s.longS d x.1 x.2)

/-- `fcvtin`: to an unsigned integer (R88). -/
def execFcvtin (d a p r : Nat) (s : State) : Host.Outcome State Fault Refusal :=
  let x := toIntResult p r 0 (2 ^ 64 - 1) (s.fpArg a p)
  .next (s.longS d x.1 x.2)

/-- `ficvt`: from a signed integer (R88). -/
def execFicvt (d a p r : Nat) (s : State) : Host.Outcome State Fault Refusal :=
  .next (s.longFp d (fpOfInt (fmtOf p) (RMode.ofCode r) (toSigned 64 (s.rs a))))

/-- `ficvtn`: from an unsigned integer (R88). -/
def execFicvtn (d a p r : Nat) (s : State) : Host.Outcome State Fault Refusal :=
  .next (s.longFp d (fpOfInt (fmtOf p) (RMode.ofCode r) (s.rs a)))

/-- `fmvfs`: the bits of an f register (R84). -/
def execFmvfs (d a p : Nat) (s : State) : Host.Outcome State Fault Refusal :=
  .next (s.longS d (s.fpArg a p))

/-- `fmvsf`: the bits of an s register (R84). -/
def execFmvsf (d a p : Nat) (s : State) : Host.Outcome State Fault Refusal :=
  .next (s.longF d (if p = 0 then s.rs a % 2 ^ 32 else s.rs a))

/-- `fclass`: the class code (R87). -/
def execFclass (d a p : Nat) (s : State) : Host.Outcome State Fault Refusal :=
  .next (s.longS d (fpClass (fmtOf p) (s.fpArg a p)))

/-- `ffma`: (a × b) + c, rounded once (R89). -/
def execFfma (d a b c p : Nat) (s : State) : Host.Outcome State Fault Refusal :=
  .next (s.longFp d (fpFma (fmtOf p) s.rmode false false (s.fpArg a p) (s.fpArg b p) (s.fpArg c p)))

/-- `ffms`: (a × b) − c, rounded once (R89). -/
def execFfms (d a b c p : Nat) (s : State) : Host.Outcome State Fault Refusal :=
  .next (s.longFp d (fpFma (fmtOf p) s.rmode false true (s.fpArg a p) (s.fpArg b p) (s.fpArg c p)))

/-- `fnma`: −(a × b) + c, rounded once (R89). -/
def execFnma (d a b c p : Nat) (s : State) : Host.Outcome State Fault Refusal :=
  .next (s.longFp d (fpFma (fmtOf p) s.rmode true false (s.fpArg a p) (s.fpArg b p) (s.fpArg c p)))

/-- `fnms`: −(a × b) − c, rounded once (R89). -/
def execFnms (d a b c p : Nat) (s : State) : Host.Outcome State Fault Refusal :=
  .next (s.longFp d (fpFma (fmtOf p) s.rmode true true (s.fpArg a p) (s.fpArg b p) (s.fpArg c p)))

end Sys2Proof.Machine
end

