-- ==== Sys2Proof/Machine/Manage.lean ====
section
/-!
DEFINITION. Boot, resets, management and power (R439 to R442).
-/

namespace Sys2Proof.Machine

namespace State

/-! ### Resets (R104, R407, R441) -/

/-- A place of a die's scratchpads. -/
def onDie (d p : Nat) : Bool :=
  let o := p % 2 ^ 56
  (p / 2 ^ 56 == 0xF4 && o / 2 ^ 19 / 384 == d) || (p / 2 ^ 56 == 0xF5 && o / 2 ^ 23 / 24 == d) ||
    (p / 2 ^ 56 == 0xF6 && o / 2 ^ 27 == d)

/-- A launch holds a flock on a die (R441). -/
def onDieFlock (d : Nat) (f : Flock) : Bool := decide (1 ≤ f.status ∧ f.status ≤ 3) && f.cluster / 24 == d

/-- The launches that hold a flock on a die. -/
def launchesOn (s : State) (d : Nat) : List Nat :=
  s.hub.launches.filterMap (fun e => match e.2 with
    | some l => if l.flocks.any (onDieFlock d) then some e.1 else none
    | none => none)

/-- The flocks of a die have ended. -/
def endFlocksOn (s : State) (d slot : Nat) : State :=
  match s.launchAt slot with
  | some l => s.setLaunch slot (some { l with flocks := l.flocks.map (fun f =>
      if f.cluster / 24 = d ∧ f.status ≠ 0 then { f with status := 4, images := [] } else f) })
  | none => s

/-- A cluster after a reset of its die: the partitioner's state of it stays at the hub. -/
def resetCluster (c : Cluster) : Cluster :=
  { cls := c.cls, target := c.target, draining := c.draining, drainAt := c.drainAt, drainDue := c.drainDue }

/-- The scratchpads of a die zero, their poison gone. -/
def zeroDie (s : State) (d : Nat) : State :=
  { s with
    mem := s.mem.filter (fun e => !onDie d e.1), poison := s.poison.filter (fun l => !onDie d (64 * l)),
    written := s.written.filter (fun l => !onDie d (64 * l)) }

/-- A die's units as they are after a reset (R441). -/
def resetUnits (s : State) (d : Nat) : State :=
  let mine := (s.harts.filter (fun e => dieOf (e.1 / 8) == d)).map (·.1)
  let s := mine.foldl (fun s k => s.disown k) s
  { s with
    harts := s.harts.filter (fun e => dieOf (e.1 / 8) != d), cores := s.cores.filter (fun e => dieOf e.1 != d),
    clusters := mapUnits {} s.clusters (fun c x => if c / 24 = d then resetCluster x else x),
    tlbs := s.tlbs.filter (fun t => (if t.kind = 0 then dieOf t.unit else if t.kind = 1 then t.unit / 24 else t.unit) != d),
    walks := s.walks.filter (fun w => w.die != d), walkQueue := s.walkQueue.filter (fun q => q.1 != d),
    issuing := s.issuing && dieOf (s.hart / 8) != d,
    hub := { s.hub with
      cycles := Store.set 0 s.hub.cycles d s.cycle,
      flushMarks := s.hub.flushMarks.filter (fun m => dieOf (m.hart / 8) != d),
      flushAcks := s.hub.flushAcks.filter (fun m => dieOf (m.1 / 8) != d) } }

/-- A reset of one die (R441). -/
def resetDie (s : State) (d : Nat) : State :=
  let slots := s.launchesOn d
  let s := slots.foldl (fun s n => s.abortLaunch n) s
  let s := slots.foldl (fun s n => s.endFlocksOn d n) s
  (s.resetUnits d).zeroDie d

/-- The paddock a hub holds at reset: its own fold (R424). -/
def ownFold (pkg : Nat) : BitVec 128 := BitVec.ofNat 128 (2 ^ (pkg / 128 % 128))

/-- The hub at its boot state: what the management domain and the fuses keep, what the switches know of the packages' ports
(R432), and the rest at reset (R440, R441). Saved launches stand for lines of the image region, which lies in memory (R404). -/
def bootHub (u : Hub) : Hub :=
  { pkg := u.pkg, paddock := ownFold u.pkg, errorLog := u.errorLog, corrected := u.corrected, answers := u.answers,
    savedLaunches := u.savedLaunches, activeSlot := u.activeSlot, slots := u.slots, keyFuse := u.keyFuse, rollback := u.rollback,
    pcap := u.pcap, power := u.power, vectors := u.vectors, flitAt := u.flitAt, silent := u.silent, failed := u.failed,
    fenced := u.fenced }

/-- The package in its boot state (R439, R441): every unit and the hub reset, every scratchpad zero; not booted yet. -/
def bootState (s : State) : State :=
  { State.reset with
    mem := s.mem.filter (fun e => decide (e.1 < 2 ^ 63)), poison := s.poison.filter (fun l => decide (l < 2 ^ 57)),
    fresh := s.fresh, cycle := s.cycle, ev := s.ev, agenda := s.agenda,
    hub := { bootHub s.hub with
      booted := false, hostDown := true, cycles := [(0, s.cycle), (1, s.cycle), (2, s.cycle), (3, s.cycle)].filter
        (fun e => e.2 ≠ 0) } }

/-- The bundle passes stages 3 and 4 (R439): it is signed by the key whose hash is fused, and its version is not below the fused
anti-rollback counter. -/
def bundleOk (u : Hub) (b : Bundle) : Bool := b.signed && b.keyHash == u.keyFuse && decide (u.rollback ≤ b.version)

/-- The slot whose firmware the package runs: the active one, else the other (R439). -/
def bootSlot (u : Hub) : Option Nat :=
  let good := fun (i : Nat) => (u.slots[i]?).any (bundleOk u)
  if good u.activeSlot then some u.activeSlot
  else if good (1 - u.activeSlot) then some (1 - u.activeSlot)
  else none

/-- Stage 5 trains the links (R439): the STATE that each port comes up with, by `list`; 0 for one that it does not name. -/
def trainLinks (s : State) : State :=
  (upFrom 0 32).foldl (fun t n => t.setLink n { t.linkAt n with state := nth s.ev.list n % 5 }) s

end State

/-- POWER_ON (R439): stages 1 to 6; a package whose two slots fail, or whose training fails (`ok` false), stays in
reset. How each port's training ends is in `list`. -/
def execPowerOn (s : State) : Host.Outcome State Fault Refusal :=
  .next (if s.hub.booted then s
    else
      let t := s.bootState
      match State.bootSlot s.hub with
      | none => { t with hub := { t.hub with bootFail := true } }
      | some _ =>
        if s.ev.ok then
          let u := t.trainLinks
          { u with hub := { u.hub with booted := true, hostDown := false } }
        else t.logError logFirmware 5 0 false)

/-- PACKAGE_RESET (R441): every die, the hub and the host port return to their boot state; POWER_ON reruns the stages. -/
def execPackageReset (s : State) : Host.Outcome State Fault Refusal := .next s.bootState

/-- DIE_RESET (R441): die `idx`. -/
def execDieReset (s : State) : Host.Outcome State Fault Refusal := .next (s.resetDie (s.ev.idx % 4))

/-! ### Management (R439, R440) -/

namespace State

/-- An answer on the management port. -/
def answer (s : State) (l : List Nat) : State :=
  { s with hub := { s.hub with answers := l.map (BitVec.ofNat 64) } }

/-- `n` readings that no rule gives: free values (log 4). -/
def answerFree (s : State) : Nat → List Word → State
  | 0, l => { s with hub := { s.hub with answers := l } }
  | n + 1, l => s.freeValue.2.answerFree n (l ++ [s.freeValue.1])

/-- The fields of a log entry, in the order of R440. -/
def entryWords (e : LogEntry) : List Nat := [e.time, e.kind, e.location, e.cause, bool1 e.transient]

end State

/-- FIRMWARE_UPDATE (R439): the inactive slot is written with a bundle of version `val` under the key of hash `aux`, whose
signature verifies when `ok`; it is the active slot once stages 3 and 4 have passed it. -/
def execFirmwareUpdate (s : State) : Host.Outcome State Fault Refusal :=
  let other := 1 - s.hub.activeSlot
  let b : Bundle := { keyHash := s.ev.aux, signed := s.ev.ok, version := s.ev.val }
  .next { s with hub := { s.hub with
    slots := setNth s.hub.slots other b, activeSlot := if State.bundleOk s.hub b then other else s.hub.activeSlot } }

/-- READ_ERROR_LOG (R440). -/
def execReadErrorLog (s : State) : Host.Outcome State Fault Refusal :=
  .next (s.answer (s.hub.errorLog.flatMap State.entryWords))

/-- READ_SENSORS (R440): the power as it was last measured, and the temperatures of the five dies (R1) and the eight HBM stacks,
whose values no rule gives. -/
def execReadSensors (s : State) : Host.Outcome State Fault Refusal :=
  .next (s.answerFree 13 [BitVec.ofNat 64 s.hub.power])

/-- SET_POWER_CAP (R440, R442): the effecter reports the value held. -/
def execSetPowerCap (s : State) : Host.Outcome State Fault Refusal :=
  let cap := max 1000 (min 2800 (s.ev.val / 10 * 10))
  .next (({ s with hub := { s.hub with pcap := cap } } : State).answer [cap])

/-- NOTIFY_HOST (R440, R436). -/
def execNotifyHost (s : State) : Host.Outcome State Fault Refusal := .next (s.raiseVector 4)

/-- GET_MEASUREMENTS (R439, R440): the firmware images of the hub, the launch unit and the floor unit, the fuses, and the
signature; their values no rule gives. -/
def execGetMeasurements (s : State) : Host.Outcome State Fault Refusal := .next (s.answerFree 5 [])

/-! ### Power (R442) -/

namespace State

/-- The power of the package, averaged over 1 ms, is measured: `val`, in W (R442). -/
def measure (s : State) : State := { s with hub := { s.hub with power := s.ev.val } }

/-- The measured power exceeds the cap, or has fallen 5 % below it (R442). -/
def overCap (s : State) : Bool := decide (s.hub.pcap < s.hub.power)
def underCap (s : State) : Bool := decide (100 * s.hub.power ≤ 95 * s.hub.pcap)

/-- The clock of every die changes, or gating does (R442). -/
def setClock (s : State) (step : Nat) (gating : Bool) : State :=
  { s with hub := { s.hub with clockStep := step, gating := gating, powerAt := s.cycle } }

end State

/-- POWER_THROTTLE (R442): the power `val` is measured; above the cap, the clock falls a step, to no less than 8 sixteenths. -/
def execPowerThrottle (s : State) : Host.Outcome State Fault Refusal :=
  let t := s.measure
  .next (if t.overCap ∧ 8 < t.hub.clockStep then t.setClock (t.hub.clockStep - 1) t.hub.gating else t)

/-- ISSUE_GATING (R442): the power `val` is measured, and still exceeds the cap after 10 ms at 8 sixteenths, which are 5,500,000
cycles. -/
def execIssueGating (s : State) : Host.Outcome State Fault Refusal :=
  let t := s.measure
  .next (if t.overCap ∧ t.hub.clockStep = 8 ∧ t.hub.gating = false ∧ t.hub.powerAt + 5500000 ≤ t.cycle then
      ((({ t with hub := { t.hub with gating := true } } : State).logError logPower 0 0 true).raiseVector 5)
    else t)

/-- POWER_RECOVER (R442): the power `val` is measured; 5 % below the cap, gating ends first, and the clock then rises a step. -/
def execPowerRecover (s : State) : Host.Outcome State Fault Refusal :=
  let t := s.measure
  .next (if !t.underCap then t
    else if t.hub.gating then t.setClock t.hub.clockStep false
    else if t.hub.clockStep < 16 then t.setClock (t.hub.clockStep + 1) false
    else t)

end Sys2Proof.Machine
end

