-- ==== Sys2Proof/Machine/Matrix.lean ====
section
/-!
DEFINITION. Matrix products, accumulator and draw instructions of majors 0x31 and 0x32 (R192, R213 to R222).
-/

namespace Sys2Proof.Machine

/-! ### Products (R213 to R216) -/

namespace State

/-- The segment headers of a tile (R167): the address of the first that fails. -/
def badHeader (s : State) (c addr : Nat) : Option Nat :=
  ((upFrom 0 64).map (fun i => addr + segSize c * i)).find? (fun a =>
    !segHeaderOk c (s.bytesAt (placeLocal s.coreNo (a % 2 ^ 19)) 8))

/-- The first failure of a check over the tiles, with its value. -/
def firstTile (l : List (Nat × Nat)) (cause : Nat) (bad : Nat → Nat → Bool) : Act Unit :=
  match l.find? (fun t => bad t.1 t.2) with
  | some t => .error (.trap cause t.2)
  | none => .ok ()

/-- The checks of R214 after the bundle checks, in order. -/
def checkProduct (s : State) (scales : Nat) (a b : Nat) (l : List (Nat × Nat)) : Act Unit := do
  if scaleOk (scales % 2 ^ 32) && scaleOk (scales / 2 ^ 32) then .ok () else .error (.trap 0x10 scales)
  if a % 8 ≠ 0 then .error (.trap 0x04 a) else .ok ()
  if b % 8 ≠ 0 then .error (.trap 0x04 b) else .ok ()
  firstTile l 0x03 (fun c t => t / 2 ^ 56 != 0xF0 || decide (2 ^ 19 < t % 2 ^ 56 + 64 * segSize c))
  firstTile l 0x07 (fun c t => !s.me.sup && !s.rangeRight s.whoMe false (placeLocal s.coreNo (t % 2 ^ 56)) (64 * segSize c))
  match l.findSome? (fun t => s.badHeader t.1 t.2) with
  | some t => .error (.trap 0x0B t)
  | none => .ok ()

/-- A product enters the matrix unit's queue of four (R215, R224), after the strand's earlier stores to its operands. -/
def queueProduct (s : State) (tile a b c y x : Nat) (dual : Bool) : Act State := do
  let scales := s.rf c
  let k := scaleExp (scales % 2 ^ 32) + scaleExp (scales / 2 ^ 32) - 254 - (blockP x : Int) - (blockP y : Int)
  let p : Product :=
    { hart := s.hart, long := s.me.nextLong, fa := x, fb := y, a := s.rs a, b := s.rs b, k := k, tile := tile,
      dual := dual, since := s.cycle }
  let s ← s.productFirst s.coreNo p
  s.checkProduct scales p.a p.b (productTiles p)
  let core := s.myCore
  if 4 ≤ core.products.length then .error .wait
  else
    let s := s.pushLong { id := 0, waddr := 0, queued := true }
    .ok (s.setCore s.coreNo { core with products := core.products ++ [p] })

end State

/-- `mma` (R171, R213): formats `x` of A and `y` of B. -/
def execMma (t a b c y x : Nat) (s : State) : Host.Outcome State Fault Refusal :=
  finish s (s.queueProduct t a b c y x false)

/-- `mma2` (R174, R213). -/
def execMma2 (a b c y x : Nat) (s : State) : Host.Outcome State Fault Refusal :=
  finish s (s.queueProduct 0 a b c y x true)

/-! ### Accumulators (R217 to R221) -/

namespace State

/-- An accumulator tile of the core, as it stands after the last marker (R192). -/
def tileAt (s : State) (t : Nat) : Tile := if t = 0 then s.myCore.za0 else s.myCore.za1

/-- A change of a tile at the marker (R192). -/
def longTile (s : State) (o : TileOp) : State := s.pushLong { id := 0, waddr := 0, tiles := [o] }

/-- The row operand: bits above its fields must be zero (R219). -/
def rowOperand (s : State) (b n : Nat) : Act Nat :=
  let x := s.rs b
  if 2 ^ n ≤ x then .error (.trap 0x08 x) else .ok x

/-- A row of a tile read out in a format, with flags (R175). -/
def readRow (s : State) (F : Fmt) (t row : Nat) : List Nat × Nat :=
  let z := s.tileAt t
  let r := (upFrom 0 64).map (fun j => readout F z.anchor (Store.get {} z.els (64 * row + j)))
  (r.map (·.1), r.foldl (fun f x => f ||| x.2) 0)

end State

/-- `mzero` (R218). -/
def execMzero (a t : Nat) (s : State) : Host.Outcome State Fault Refusal :=
  let f := toSigned 64 (s.rs a)
  finish s (if f < -2048 ∨ 2047 < f then .error (.trap 0x08 (s.rs a)) else .ok (s.longTile (.zero t f)))

/-- An element in a 64-bit lane (R220). -/
def rawLane (e : Elem) : Nat := e.a.toNat + 2 ^ 56 * bool1 e.ov + 2 ^ 57 * bool1 e.nan

/-- `mrd` (R219, R220): a row in a format, or a quarter row as integers and flags. -/
def execMrd (d b t g : Nat) (s : State) : Host.Outcome State Fault Refusal :=
  finish s (
    if g = 3 then do
      let x ← s.rowOperand b 8
      let z := s.tileAt t
      .ok (s.longV d (ofLanes 64 ((upFrom 0 16).map (fun k =>
        rawLane (Store.get {} z.els (64 * (x % 64) + 16 * (x / 64) + k))))))
    else do
      let i ← s.rowOperand b 6
      let F := laneFmt g
      let r := s.readRow F t i
      .ok (if g = 0 then s.long (writePair32 d r.1) r.2 else s.longV d (ofLanes 16 r.1) r.2))

/-- `mrdq` (R219): the flags are those of the FP32 step. -/
def execMrdq (d b t g : Nat) (s : State) : Host.Outcome State Fault Refusal :=
  finish s (do
    let i ← s.rowOperand b 6
    let r := s.readRow Fmt.f32 t i
    .ok (s.longV d (ofLanes 8 (writeContainer g (quantise g r.1))) r.2))

/-- `mwr.raw` (R220): lane bits above 57 are ignored. -/
def execMwr (a b t : Nat) (s : State) : Host.Outcome State Fault Refusal :=
  finish s (do
    let x ← s.rowOperand b 8
    .ok (s.longTile (.put t (x % 64) (x / 64) (lanes 64 (s.rv a)))))

/-- `mstat` (R221). -/
def execMstat (d t : Nat) (s : State) : Host.Outcome State Fault Refusal :=
  let z := s.tileAt t
  .next (s.longS d (wrap 12 z.anchor + 2 ^ 16 * bool1 (z.els.any (fun e => e.2.ov)) +
    2 ^ 17 * bool1 (z.els.any (fun e => e.2.nan))))

/-- `mdraw` (R187, R222): DRAWEMPTY is set at the marker that writes the index. -/
def execMdraw (d a b : Nat) (s : State) : Host.Outcome State Fault Refusal :=
  let i := drawIndex s.me.rngseed.toNat s.me.rngstream.toNat (s.rs b) (s.pair32 a)
  .next (s.pushLong { id := 0, waddr := 0, writes := [.s d (BitVec.ofNat 64 i)], mstatus := if i = 64 then 2 ^ 16 else 0 })

/-- `mcons` (R221): the operands-consumed count at issue. -/
def execMcons (d : Nat) (s : State) : Host.Outcome State Fault Refusal := .next (s.longS d s.myCore.consumed)

end Sys2Proof.Machine
end

