-- ==== Sys2Proof/Machine/Scalar.lean ====
section
/-!
DEFINITION. The integer instructions of majors 0x20 to 0x26 (R73 to R80): all short (R75).
-/

namespace Sys2Proof.Machine

/-! ### Register forms (R73) -/

/-- An arithmetic shift right of 64 bits. -/
def sarWord (x n : Nat) : Nat := wrap 64 (toSigned 64 x / 2 ^ n)
/-- A rotation right of 64 bits. -/
def rorWord (x n : Nat) : Nat := x / 2 ^ n + x * 2 ^ (64 - n) % 2 ^ 64
/-- Signed order of 64-bit words. -/
def signedLt (x y : Nat) : Bool := decide (toSigned 64 x < toSigned 64 y)
/-- Signed minimum of 64-bit words. -/
def signedMin (x y : Nat) : Nat := if signedLt y x then y else x
/-- Signed maximum of 64-bit words. -/
def signedMax (x y : Nat) : Nat := if signedLt x y then y else x
/-- The bits of each byte in reverse order (R73, fn 31). -/
def bitReverseBytes (x : Nat) : Nat := ofBytes ((bytesOf 8 x).map (reverseBits 8))

/-- `add`: wrapping sum. -/
def execAdd (d a b : Nat) (s : State) : Host.Outcome State Fault Refusal :=
  .next (s.shortS d (s.rs a + s.rs b))

/-- `sub`: wrapping difference. -/
def execSub (d a b : Nat) (s : State) : Host.Outcome State Fault Refusal :=
  .next (s.shortS d (s.rs a + (2 ^ 64 - s.rs b)))

/-- `and`: AND. -/
def execAnd (d a b : Nat) (s : State) : Host.Outcome State Fault Refusal :=
  .next (s.shortS d (s.rs a &&& s.rs b))

/-- `or`: OR. -/
def execOr (d a b : Nat) (s : State) : Host.Outcome State Fault Refusal :=
  .next (s.shortS d (s.rs a ||| s.rs b))

/-- `xor`: exclusive OR. -/
def execXor (d a b : Nat) (s : State) : Host.Outcome State Fault Refusal :=
  .next (s.shortS d (s.rs a ^^^ s.rs b))

/-- `andn`: AND NOT. -/
def execAndn (d a b : Nat) (s : State) : Host.Outcome State Fault Refusal :=
  .next (s.shortS d (s.rs a &&& (allOnes64 - s.rs b)))

/-- `orn`: OR NOT. -/
def execOrn (d a b : Nat) (s : State) : Host.Outcome State Fault Refusal :=
  .next (s.shortS d (s.rs a ||| (allOnes64 - s.rs b)))

/-- `xnor`: NOT exclusive OR. -/
def execXnor (d a b : Nat) (s : State) : Host.Outcome State Fault Refusal :=
  .next (s.shortS d (allOnes64 - (s.rs a ^^^ s.rs b)))

/-- `shl`: shift left. -/
def execShl (d a b : Nat) (s : State) : Host.Outcome State Fault Refusal :=
  .next (s.shortS d (s.rs a * 2 ^ (s.rs b % 64)))

/-- `shr`: shift right, zero-filling. -/
def execShr (d a b : Nat) (s : State) : Host.Outcome State Fault Refusal :=
  .next (s.shortS d (s.rs a / 2 ^ (s.rs b % 64)))

/-- `sar`: shift right, copying bit 63. -/
def execSar (d a b : Nat) (s : State) : Host.Outcome State Fault Refusal :=
  .next (s.shortS d (sarWord (s.rs a) (s.rs b % 64)))

/-- `rol`: rotate left. -/
def execRol (d a b : Nat) (s : State) : Host.Outcome State Fault Refusal :=
  .next (s.shortS d (rorWord (s.rs a) ((64 - s.rs b % 64) % 64)))

/-- `ror`: rotate right. -/
def execRor (d a b : Nat) (s : State) : Host.Outcome State Fault Refusal :=
  .next (s.shortS d (rorWord (s.rs a) (s.rs b % 64)))

/-- `slt`: signed less-than. -/
def execSlt (d a b : Nat) (s : State) : Host.Outcome State Fault Refusal :=
  .next (s.shortS d (bool1 (signedLt (s.rs a) (s.rs b))))

/-- `sltn`: unsigned less-than. -/
def execSltn (d a b : Nat) (s : State) : Host.Outcome State Fault Refusal :=
  .next (s.shortS d (bool1 (decide (s.rs a < s.rs b))))

/-- `min`: signed minimum. -/
def execMin (d a b : Nat) (s : State) : Host.Outcome State Fault Refusal :=
  .next (s.shortS d (signedMin (s.rs a) (s.rs b)))

/-- `max`: signed maximum. -/
def execMax (d a b : Nat) (s : State) : Host.Outcome State Fault Refusal :=
  .next (s.shortS d (signedMax (s.rs a) (s.rs b)))

/-- `minn`: unsigned minimum. -/
def execMinn (d a b : Nat) (s : State) : Host.Outcome State Fault Refusal :=
  .next (s.shortS d (min (s.rs a) (s.rs b)))

/-- `maxn`: unsigned maximum. -/
def execMaxn (d a b : Nat) (s : State) : Host.Outcome State Fault Refusal :=
  .next (s.shortS d (max (s.rs a) (s.rs b)))

/-- `mul`: low half of the product. -/
def execMul (d a b : Nat) (s : State) : Host.Outcome State Fault Refusal :=
  .next (s.shortS d (s.rs a * s.rs b))

/-- `mulh`: high half of the signed product. -/
def execMulh (d a b : Nat) (s : State) : Host.Outcome State Fault Refusal :=
  .next (s.shortS d (wrap 64 (toSigned 64 (s.rs a) * toSigned 64 (s.rs b) / 2 ^ 64)))

/-- `mulhn`: high half of the unsigned product. -/
def execMulhn (d a b : Nat) (s : State) : Host.Outcome State Fault Refusal :=
  .next (s.shortS d (s.rs a * s.rs b / 2 ^ 64))

/-- `div` (R74). -/
def execDiv (d a b : Nat) (s : State) : Host.Outcome State Fault Refusal :=
  let r := divSigned (s.rs a) (s.rs b)
  .next (s.shortDiv d r.1 r.2.2)

/-- `divn` (R74). -/
def execDivn (d a b : Nat) (s : State) : Host.Outcome State Fault Refusal :=
  let r := divUnsigned (s.rs a) (s.rs b)
  .next (s.shortDiv d r.1 r.2.2)

/-- `rem` (R74). -/
def execRem (d a b : Nat) (s : State) : Host.Outcome State Fault Refusal :=
  let r := divSigned (s.rs a) (s.rs b)
  .next (s.shortDiv d r.2.1 r.2.2)

/-- `remn` (R74). -/
def execRemn (d a b : Nat) (s : State) : Host.Outcome State Fault Refusal :=
  let r := divUnsigned (s.rs a) (s.rs b)
  .next (s.shortDiv d r.2.1 r.2.2)

/-- `clz`: leading zero bits. -/
def execClz (d a : Nat) (s : State) : Host.Outcome State Fault Refusal :=
  .next (s.shortS d (64 - bitLength (s.rs a)))

/-- `ctz`: trailing zero bits. -/
def execCtz (d a : Nat) (s : State) : Host.Outcome State Fault Refusal :=
  .next (s.shortS d (lowestSet 64 (s.rs a)))

/-- `popc`: one bits. -/
def execPopc (d a : Nat) (s : State) : Host.Outcome State Fault Refusal :=
  .next (s.shortS d (popcount 64 (s.rs a)))

/-- `sextw`: low word sign-extended. -/
def execSextw (d a : Nat) (s : State) : Host.Outcome State Fault Refusal :=
  .next (s.shortS d (sext64 32 (s.rs a)))

/-- `zextw`: low word zero-extended. -/
def execZextw (d a : Nat) (s : State) : Host.Outcome State Fault Refusal :=
  .next (s.shortS d (s.rs a % 2 ^ 32))

/-- `brev8`: bits of each byte reversed. -/
def execBrev8 (d a : Nat) (s : State) : Host.Outcome State Fault Refusal :=
  .next (s.shortS d (bitReverseBytes (s.rs a)))

/-! ### Immediates, constants, shifts and bit fields (R76 to R80) -/

/-- `addi`: sum with a sign-extended immediate (R76). -/
def execAddi (d a : Nat) (i : Int) (s : State) : Host.Outcome State Fault Refusal :=
  .next (s.shortS d (wrap 64 ((s.rs a : Int) + i)))

/-- `li`: a sign-extended immediate (R77). -/
def execLi (d : Nat) (i : Int) (s : State) : Host.Outcome State Fault Refusal :=
  .next (s.shortS d (wrap 64 i))

/-- `lis`: the register shifted up, with 19 bits put in below (R77). -/
def execLis (d i : Nat) (s : State) : Host.Outcome State Fault Refusal :=
  .next (s.shortS d (s.rs d * 2 ^ 19 ||| i))

/-- `addk`: sum with a constant-window word (R78). -/
def execAddk (d a k : Nat) (s : State) : Host.Outcome State Fault Refusal :=
  s.withK k (fun s x => s.shortS d (s.rs a + x))

/-- `subk`: difference with a constant-window word (R78). -/
def execSubk (d a k : Nat) (s : State) : Host.Outcome State Fault Refusal :=
  s.withK k (fun s x => s.shortS d (s.rs a + (2 ^ 64 - x)))

/-- `andk`: AND with a constant-window word (R78). -/
def execAndk (d a k : Nat) (s : State) : Host.Outcome State Fault Refusal :=
  s.withK k (fun s x => s.shortS d (s.rs a &&& x))

/-- `ork`: OR with a constant-window word (R78). -/
def execOrk (d a k : Nat) (s : State) : Host.Outcome State Fault Refusal :=
  s.withK k (fun s x => s.shortS d (s.rs a ||| x))

/-- `xork`: exclusive OR with a constant-window word (R78). -/
def execXork (d a k : Nat) (s : State) : Host.Outcome State Fault Refusal :=
  s.withK k (fun s x => s.shortS d (s.rs a ^^^ x))

/-- `mulk`: low half of the product with a constant-window word (R78). -/
def execMulk (d a k : Nat) (s : State) : Host.Outcome State Fault Refusal :=
  s.withK k (fun s x => s.shortS d (s.rs a * x))

/-- `sltk`: signed less-than with a constant-window word (R78). -/
def execSltk (d a k : Nat) (s : State) : Host.Outcome State Fault Refusal :=
  s.withK k (fun s x => s.shortS d (bool1 (signedLt (s.rs a) x)))

/-- `mink`: signed minimum with a constant-window word (R78). -/
def execMink (d a k : Nat) (s : State) : Host.Outcome State Fault Refusal :=
  s.withK k (fun s x => s.shortS d (signedMin (s.rs a) x))

/-- `maxk`: signed maximum with a constant-window word (R78). -/
def execMaxk (d a k : Nat) (s : State) : Host.Outcome State Fault Refusal :=
  s.withK k (fun s x => s.shortS d (signedMax (s.rs a) x))

/-- `movk`: a constant-window word (R78). -/
def execMovk (d k : Nat) (s : State) : Host.Outcome State Fault Refusal :=
  s.withK k (fun s x => s.shortS d x)

/-- `shli`: shift left by a constant (R79). -/
def execShli (d a n : Nat) (s : State) : Host.Outcome State Fault Refusal :=
  .next (s.shortS d (s.rs a * 2 ^ n))

/-- `shri`: shift right, zero-filling by a constant (R79). -/
def execShri (d a n : Nat) (s : State) : Host.Outcome State Fault Refusal :=
  .next (s.shortS d (s.rs a / 2 ^ n))

/-- `sari`: shift right, copying bit 63 by a constant (R79). -/
def execSari (d a n : Nat) (s : State) : Host.Outcome State Fault Refusal :=
  .next (s.shortS d (sarWord (s.rs a) n))

/-- `rori`: rotate right by a constant (R79). -/
def execRori (d a n : Nat) (s : State) : Host.Outcome State Fault Refusal :=
  .next (s.shortS d (rorWord (s.rs a) n))

/-- `extr`: a field zero-extended (R80); `e` is the length minus 1. -/
def execExtr (d a p e : Nat) (s : State) : Host.Outcome State Fault Refusal :=
  .next (s.shortS d (bits (s.rs a) p (e + 1)))

/-- `extrs`: a field sign-extended (R80); `e` is the length minus 1. -/
def execExtrs (d a p e : Nat) (s : State) : Host.Outcome State Fault Refusal :=
  .next (s.shortS d (sext64 (e + 1) (bits (s.rs a) p (e + 1))))

/-- `insr`: a field replaced (R80); `e` is the length minus 1. -/
def execInsr (d a p e : Nat) (s : State) : Host.Outcome State Fault Refusal :=
  .next (s.shortS d (setBits (s.rs d) p (e + 1) (s.rs a)))

end Sys2Proof.Machine
end

