-- ==== Sys2Proof/Machine/Vector.lean ====
section
/-!
DEFINITION. Vector, mask, soft-maximum and random instructions of majors 0x29 to 0x30 and 0x33 (R191 to R212, R223): all
long, and without an access to memory.
-/

namespace Sys2Proof.Machine

/-! ### Lanes -/

/-- The lane width of a width code: 0 .i8 to 3 .i64 (R194). -/
def laneBits (w : Nat) : Nat := 8 * 2 ^ w

/-- Lane results with the flags of every lane. -/
def collect (l : List (Nat × Nat)) : List Nat × Nat := (l.map (·.1), l.foldl (fun f r => f ||| r.2) 0)

namespace State

/-- A long result from lanes of a width, with flags. -/
def longLanes (s : State) (d w : Nat) (l : List Nat) (flags : Nat := 0) : State := s.longV d (ofLanes w l) flags

/-- One function lane by lane on two registers. -/
def mapLanes2 (s : State) (d a b w : Nat) (g : Nat → Nat → Nat) : State :=
  s.longLanes d w (List.zipWith g (lanes w (s.rv a)) (lanes w (s.rv b)))

/-- One integer function lane by lane: width code `w`, results wrapped (R194). -/
def intLanes (s : State) (d a b w : Nat) (g : Nat → Nat → Nat → Nat) : State :=
  let n := laneBits w
  s.mapLanes2 d a b n (fun x y => g n x y % 2 ^ n)

/-- One floating-point function lane by lane (R195): format code `t`. -/
def fpLanes (s : State) (d a b t : Nat) (g : Fmt → Nat → Nat → Nat × Nat) : State :=
  let F := laneFmt t
  let r := collect (List.zipWith (g F) (lanes F.width (s.rv a)) (lanes F.width (s.rv b)))
  s.longLanes d F.width r.1 r.2

/-- One floating-point function of a register, lane by lane (R195, R199). -/
def fpLanes1 (s : State) (d a t : Nat) (g : Fmt → Nat → Nat × Nat) : State :=
  let F := laneFmt t
  let r := collect ((lanes F.width (s.rv a)).map (g F))
  s.longLanes d F.width r.1 r.2

/-- One fused function lane by lane (R196). -/
def fpLanes3 (s : State) (d t : Nat) (x y z : List Nat) (g : Fmt → Nat → Nat → Nat → Nat × Nat) : State :=
  let F := laneFmt t
  let r := collect (List.zipWith (fun p q => g F p.1 p.2 q) (List.zip x y) z)
  s.longLanes d F.width r.1 r.2

end State

/-! ### Integer vector arithmetic (R194) -/

/-- Signed minimum of two lanes of width `w`. -/
def laneMin (w x y : Nat) : Nat := if toSigned w y < toSigned w x then y else x
/-- Signed maximum of two lanes of width `w`. -/
def laneMax (w x y : Nat) : Nat := if toSigned w x < toSigned w y then y else x

/-- `vadd` (R194). -/
def execVadd (d a b w : Nat) (s : State) : Host.Outcome State Fault Refusal :=
  .next (s.intLanes d a b w (fun _ x y => x + y))

/-- `vsub` (R194). -/
def execVsub (d a b w : Nat) (s : State) : Host.Outcome State Fault Refusal :=
  .next (s.intLanes d a b w (fun n x y => x + (2 ^ n - y)))

/-- `vmul` (R194): the low half of the product. -/
def execVmul (d a b w : Nat) (s : State) : Host.Outcome State Fault Refusal :=
  .next (s.intLanes d a b w (fun _ x y => x * y))

/-- `vmulh` (R194): the high half of the signed product. -/
def execVmulh (d a b w : Nat) (s : State) : Host.Outcome State Fault Refusal :=
  .next (s.intLanes d a b w (fun n x y => wrap n (toSigned n x * toSigned n y / 2 ^ n)))

/-- `vand` (R194). -/
def execVand (d a b w : Nat) (s : State) : Host.Outcome State Fault Refusal :=
  .next (s.intLanes d a b w (fun _ x y => x &&& y))

/-- `vor` (R194). -/
def execVor (d a b w : Nat) (s : State) : Host.Outcome State Fault Refusal :=
  .next (s.intLanes d a b w (fun _ x y => x ||| y))

/-- `vxor` (R194). -/
def execVxor (d a b w : Nat) (s : State) : Host.Outcome State Fault Refusal :=
  .next (s.intLanes d a b w (fun _ x y => x ^^^ y))

/-- `vshl` (R194). -/
def execVshl (d a b w : Nat) (s : State) : Host.Outcome State Fault Refusal :=
  .next (s.intLanes d a b w (fun n x y => x * 2 ^ (y % n)))

/-- `vshr` (R194). -/
def execVshr (d a b w : Nat) (s : State) : Host.Outcome State Fault Refusal :=
  .next (s.intLanes d a b w (fun n x y => x / 2 ^ (y % n)))

/-- `vsar` (R194). -/
def execVsar (d a b w : Nat) (s : State) : Host.Outcome State Fault Refusal :=
  .next (s.intLanes d a b w (fun n x y => wrap n (toSigned n x / 2 ^ (y % n))))

/-- `vmin` (R194): signed. -/
def execVmin (d a b w : Nat) (s : State) : Host.Outcome State Fault Refusal :=
  .next (s.intLanes d a b w laneMin)

/-- `vmax` (R194): signed. -/
def execVmax (d a b w : Nat) (s : State) : Host.Outcome State Fault Refusal :=
  .next (s.intLanes d a b w laneMax)

/-- `vminn` (R194): unsigned. -/
def execVminn (d a b w : Nat) (s : State) : Host.Outcome State Fault Refusal :=
  .next (s.intLanes d a b w (fun _ x y => min x y))

/-- `vmaxn` (R194): unsigned. -/
def execVmaxn (d a b w : Nat) (s : State) : Host.Outcome State Fault Refusal :=
  .next (s.intLanes d a b w (fun _ x y => max x y))

/-- `vabs` (R194): the most negative lane keeps its value. -/
def execVabs (d a w : Nat) (s : State) : Host.Outcome State Fault Refusal :=
  .next (s.intLanes d a a w (fun n x _ => (toSigned n x).natAbs))

/-! ### Floating-point vector arithmetic (R195, R196) -/

/-- `vfadd` (R195). -/
def execVfadd (d a b t : Nat) (s : State) : Host.Outcome State Fault Refusal :=
  .next (s.fpLanes d a b t (fun F => fpAdd F .rne))

/-- `vfsub` (R195). -/
def execVfsub (d a b t : Nat) (s : State) : Host.Outcome State Fault Refusal :=
  .next (s.fpLanes d a b t (fun F => fpSub F .rne))

/-- `vfmul` (R195). -/
def execVfmul (d a b t : Nat) (s : State) : Host.Outcome State Fault Refusal :=
  .next (s.fpLanes d a b t (fun F => fpMul F .rne))

/-- `vfmax` (R195). -/
def execVfmax (d a b t : Nat) (s : State) : Host.Outcome State Fault Refusal :=
  .next (s.fpLanes d a b t fpMax)

/-- `vfmin` (R195). -/
def execVfmin (d a b t : Nat) (s : State) : Host.Outcome State Fault Refusal :=
  .next (s.fpLanes d a b t fpMin)

/-- `vfabs` (R195): a bit operation. -/
def execVfabs (d a t : Nat) (s : State) : Host.Outcome State Fault Refusal :=
  .next (s.fpLanes1 d a t (fun F x => (fpAbs F x, 0)))

/-- `vfneg` (R195): a bit operation. -/
def execVfneg (d a t : Nat) (s : State) : Host.Outcome State Fault Refusal :=
  .next (s.fpLanes1 d a t (fun F x => (fpNeg F x, 0)))

/-- `vfma` (R196). -/
def execVfma (d a b c t : Nat) (s : State) : Host.Outcome State Fault Refusal :=
  let w := (laneFmt t).width
  .next (s.fpLanes3 d t (lanes w (s.rv a)) (lanes w (s.rv b)) (lanes w (s.rv c)) (fun F => fpFma F .rne false false))

/-- `vfms` (R196). -/
def execVfms (d a b c t : Nat) (s : State) : Host.Outcome State Fault Refusal :=
  let w := (laneFmt t).width
  .next (s.fpLanes3 d t (lanes w (s.rv a)) (lanes w (s.rv b)) (lanes w (s.rv c)) (fun F => fpFma F .rne false true))

/-- `vfmas` (R196, R197): the second factor is the low bits of an f register in every lane. -/
def execVfmas (d a b c t : Nat) (s : State) : Host.Outcome State Fault Refusal :=
  let w := (laneFmt t).width
  .next (s.fpLanes3 d t (lanes w (s.rv a)) (List.replicate (1024 / w) (s.rf b % 2 ^ w)) (lanes w (s.rv c))
    (fun F => fpFma F .rne false false))

/-- `vsel` (R196): lanes of `a` where the mask bit is set, else of `b`. -/
def execVsel (d a b c t : Nat) (s : State) : Host.Outcome State Fault Refusal :=
  let w := (laneFmt t).width
  .next (s.longLanes d w (List.zipWith (fun m p => if m then p.1 else p.2) (s.maskBits c (1024 / w))
    (List.zip (lanes w (s.rv a)) (lanes w (s.rv b)))))

/-! ### Special functions, conversions and block formats (R198 to R205) -/

/-- `vexp2` (R199). -/
def execVexp2 (d a f : Nat) (s : State) : Host.Outcome State Fault Refusal := .next (s.fpLanes1 d a f fpExp2)

/-- `vlog2` (R199). -/
def execVlog2 (d a f : Nat) (s : State) : Host.Outcome State Fault Refusal := .next (s.fpLanes1 d a f fpLog2)

/-- `vrcp` (R199). -/
def execVrcp (d a f : Nat) (s : State) : Host.Outcome State Fault Refusal := .next (s.fpLanes1 d a f fpRcp)

/-- `vrsq` (R199). -/
def execVrsq (d a f : Nat) (s : State) : Host.Outcome State Fault Refusal := .next (s.fpLanes1 d a f fpRsq)

/-- `vsqrt` (R199). -/
def execVsqrt (d a f : Nat) (s : State) : Host.Outcome State Fault Refusal :=
  .next (s.fpLanes1 d a f (fun F => fpSqrt F .rne))

/-- One lane of `vcvt` (R200): code 3 is .i32. -/
def convertLane (f t x : Nat) : Nat × Nat :=
  if f = 3 then fpOfInt (laneFmt t) .rne (toSigned 32 x)
  else if t = 3 then
    let r := fpToInt (laneFmt f) .rne (-(2 ^ 31)) (2 ^ 31 - 1) x
    (wrap 32 r.1, r.2)
  else fpConvert (laneFmt f) (laneFmt t) .rne x

/-- The lane width of a code of `vcvt` (R200). -/
def cvtBits (c : Nat) : Nat := if c = 1 ∨ c = 2 then 16 else 32

/-- The lanes of an operand of `vcvt`: a pair when 32-bit lanes meet 16-bit lanes (R200). -/
def State.cvtSource (s : State) (a f t : Nat) : List Nat :=
  if cvtBits f = 16 then lanes 16 (s.rv a)
  else if cvtBits t = 16 then s.pair32 a
  else lanes 32 (s.rv a)

/-- `vcvt` (R200). -/
def execVcvt (d a f t : Nat) (s : State) : Host.Outcome State Fault Refusal :=
  let r := collect ((s.cvtSource a f t).map (convertLane f t))
  .next (if cvtBits f = 16 ∧ cvtBits t = 32 then s.long (writePair32 d r.1) r.2
    else s.longLanes d (cvtBits t) r.1 r.2)

/-- `vqblk` (R201). -/
def execVqblk (d a t : Nat) (s : State) : Host.Outcome State Fault Refusal :=
  .next (s.longLanes d 8 (writeContainer t (quantise t (s.pair32 a))))

/-- The bytes of a vector register. -/
def State.vbytes (s : State) (a : Nat) : List Nat := lanes 8 (s.rv a)

/-- The container of a register checked (R164): its fault is delivered at the marker (R193). A container whose parity fails
is read again: where the re-read matches, the read goes on with its bytes and counts as transient; else the error is lasting
(R395). `Hart.reread` says what the environment does to bytes that are sound in the register. The first failing check
decides. -/
def State.withContainer (s : State) (t a : Nat) (k : State → State) : State :=
  let late := fun (s : State) c => s.deferFault c (2 ^ 63 + a)
  let fault := containerFault t (s.vbytes a)
  let u := if s.me.reread = 0 then s else s.setMe { s.me with reread := 0 }
  if fault = some 0x0C ∨ s.me.reread = 2 then late (u.logError logParity s.coreNo 0x0C false) 0x0C
  else
    let u := if s.me.reread = 1 then u.countTransient s.me.slot logParity s.coreNo 0x0C else u
    match fault with
    | some c => late u c
    | none => k u

/-- `vdqblk` (R202). -/
def execVdqblk (d a t : Nat) (s : State) : Host.Outcome State Fault Refusal :=
  let b := readContainer t (s.vbytes a)
  .next (s.withContainer t a (fun u => u.long (writePair32 d ((upFrom 0 64).map (dequant t b)))))

/-- `vplane` (R203). -/
def execVplane (d a t : Nat) (s : State) : Host.Outcome State Fault Refusal :=
  .next (s.withContainer t a (fun u => u.longLanes d 8 (writeSegment t (readContainer t (s.vbytes a)))))

/-- `vtrip` (R204). -/
def execVtrip (d a : Nat) (s : State) : Host.Outcome State Fault Refusal :=
  .next (s.longLanes d 8 (packTrits ((s.pair32 a).map tritOfFp)))

/-- `vtriu` (R205). -/
def execVtriu (d a : Nat) (s : State) : Host.Outcome State Fault Refusal :=
  let b := readContainer 0 (s.vbytes a)
  .next (s.withContainer 0 a (fun u =>
    u.long (writePair32 d (List.zipWith (fun g m => tritFp (if m = 0 then 0 else 1 + g)) b.signs b.mags))))

/-! ### Reductions, scans and permutes (R206 to R208) -/

/-- The lane width of a reduction: integer or floating point (R206). -/
def redBits (w x : Nat) : Nat := if x = 0 then laneBits w else (laneFmt w).width

/-- The combination of a reduction: integer without flags, else in the format (R208). -/
def redOp (w x : Nat) (int : Nat → Nat → Nat → Nat) (fp : Fmt → Nat → Nat → Nat × Nat) : Nat → Nat → Nat × Nat :=
  if x = 0 then fun p q => (int (laneBits w) p q, 0) else fp (laneFmt w)

/-- The wrapping sum of two lanes. -/
def laneAdd (n x y : Nat) : Nat := (x + y) % 2 ^ n

namespace State

/-- A reduction in tree order into lane 0; the other lanes are zero (R207). -/
def reduceLanes (s : State) (d a w x : Nat) (op : Nat → Nat → Nat × Nat) : State :=
  let n := redBits w x
  let r := treeFold op 7 (lanes n (s.rv a))
  s.longLanes d n [r.1] r.2

/-- The scalar of a broadcast or an insertion: of an s or an f register (R206). -/
def scalarOf (s : State) (a x : Nat) : Nat := if x = 0 then s.rs a else s.rf a

end State

/-- `vredsum` (R207). -/
def execVredsum (d a w x : Nat) (s : State) : Host.Outcome State Fault Refusal :=
  .next (s.reduceLanes d a w x (redOp w x laneAdd (fun F => fpAdd F .rne)))

/-- `vredmax` (R207, R208): signed, or as `vfmax`. -/
def execVredmax (d a w x : Nat) (s : State) : Host.Outcome State Fault Refusal :=
  .next (s.reduceLanes d a w x (redOp w x laneMax fpMax))

/-- `vredmin` (R207, R208). -/
def execVredmin (d a w x : Nat) (s : State) : Host.Outcome State Fault Refusal :=
  .next (s.reduceLanes d a w x (redOp w x laneMin fpMin))

/-- `vscan` (R207): the inclusive prefix sum, from lane 0 up. -/
def execVscan (d a w x : Nat) (s : State) : Host.Outcome State Fault Refusal :=
  let n := redBits w x
  let r := scanLanes (redOp w x laneAdd (fun F => fpAdd F .rne)) (lanes n (s.rv a))
  .next (s.longLanes d n r.1 r.2)

/-- `vshuf` (R207). -/
def execVshuf (d a b w : Nat) (s : State) : Host.Outcome State Fault Refusal :=
  let n := laneBits w
  let x := lanes n (s.rv a)
  .next (s.longLanes d n ((lanes n (s.rv b)).map (fun j => nth x (j % (1024 / n)))))

/-- `vbcast` (R207). -/
def execVbcast (d a w x : Nat) (s : State) : Host.Outcome State Fault Refusal :=
  let n := laneBits w
  .next (s.longLanes d n (List.replicate (1024 / n) (s.scalarOf a x % 2 ^ n)))

/-- `vextr` (R207): lane k of a register, 0 beyond the last. -/
def execVextr (d a b w x : Nat) (s : State) : Host.Outcome State Fault Refusal :=
  let v := nth (lanes (laneBits w) (s.rv a)) (s.rs b)
  .next (if x = 0 then s.longS d v else s.longF d v)

/-- `vins` (R207): the register as read at issue with lane k replaced; none beyond the last. -/
def execVins (d a b w x : Nat) (s : State) : Host.Outcome State Fault Refusal :=
  let n := laneBits w
  .next (s.longLanes d n (setNth (lanes n (s.rv d)) (s.rs b) (s.scalarOf a x % 2 ^ n)))

/-- `vslup` (R207): lanes move up by k. -/
def execVslup (d a b w : Nat) (s : State) : Host.Outcome State Fault Refusal :=
  let n := laneBits w
  let k := min (s.rs b) (1024 / n)
  .next (s.longLanes d n ((List.replicate k 0 ++ lanes n (s.rv a)).take (1024 / n)))

/-- `vsldn` (R207): lanes move down by k. -/
def execVsldn (d a b w : Nat) (s : State) : Host.Outcome State Fault Refusal :=
  let n := laneBits w
  .next (s.longLanes d n ((lanes n (s.rv a)).drop (s.rs b)))

/-- `viota` (R207). -/
def execViota (d a w : Nat) (s : State) : Host.Outcome State Fault Refusal :=
  let n := laneBits w
  .next (s.longLanes d n ((upFrom 0 (1024 / n)).map (fun i => (s.rs a + i) % 2 ^ n)))

/-! ### Comparisons and masks (R209 to R211) -/

/-- A relation from an order: 0 eq, 1 ne, 2 lt, 3 le, 4 gt, 5 ge (R209). -/
def relation (c : Nat) (o : Ordering) : Bool :=
  if c = 0 then o == .eq else if c = 1 then o != .eq else if c = 2 then o == .lt else if c = 3 then o != .gt
  else if c = 4 then o == .gt else o != .lt

/-- One lane compared: integers signed, or floating point with its flags (R209). -/
def compareLane (c t f x y : Nat) : Bool × Nat :=
  if f = 0 then
    let n := laneBits t
    (relation c (if toSigned n x < toSigned n y then .lt else if toSigned n y < toSigned n x then .gt else .eq), 0)
  else
    let F := laneFmt t
    let fl := if c ≤ 1 then snanFlag [unpack F x, unpack F y] else nanFlag F x y
    if isNaN F x || isNaN F y then (c == 1, fl) else (relation c (fpCompare F x y), fl)

/-- `vcmp` (R209). -/
def execVcmp (d a b c t f : Nat) (s : State) : Host.Outcome State Fault Refusal :=
  let n := redBits t f
  let r := List.zipWith (compareLane c t f) (lanes n (s.rv a)) (lanes n (s.rv b))
  .next (s.longM d (ofBools (r.map (·.1))) (r.foldl (fun g x => g ||| x.2) 0))

/-- `mand` (R210). -/
def execMand (d a b : Nat) (s : State) : Host.Outcome State Fault Refusal := .next (s.longM d (s.rm a &&& s.rm b))

/-- `mor` (R210). -/
def execMor (d a b : Nat) (s : State) : Host.Outcome State Fault Refusal := .next (s.longM d (s.rm a ||| s.rm b))

/-- `mxor` (R210). -/
def execMxor (d a b : Nat) (s : State) : Host.Outcome State Fault Refusal := .next (s.longM d (s.rm a ^^^ s.rm b))

/-- `mnot` (R210). -/
def execMnot (d a : Nat) (s : State) : Host.Outcome State Fault Refusal := .next (s.longM d (2 ^ 128 - 1 - s.rm a))

/-- `mpop` (R210). -/
def execMpop (d a : Nat) (s : State) : Host.Outcome State Fault Refusal := .next (s.longS d (popcount 128 (s.rm a)))

/-- `mfirst` (R210): 128 when no bit is set. -/
def execMfirst (d a : Nat) (s : State) : Host.Outcome State Fault Refusal := .next (s.longS d (lowestSet 128 (s.rm a)))

/-- `mset` (R210). -/
def execMset (d a b : Nat) (s : State) : Host.Outcome State Fault Refusal :=
  .next (s.longM d (s.rs a + s.rs b * 2 ^ 64))

/-- `mget` (R210). -/
def execMget (d a h : Nat) (s : State) : Host.Outcome State Fault Refusal :=
  .next (s.longS d (bits (s.rm a) (64 * h) 64))

/-- `vrange` (R211): compared as unbounded signed integers. -/
def execVrange (d a b : Nat) (s : State) : Host.Outcome State Fault Refusal :=
  let x := toSigned 64 (s.rs a)
  let lo := toSigned 64 (s.rs b)
  let hi := toSigned 64 (s.rs (b + 1))
  .next (s.longM d (ofBools ((upFrom 0 128).map (fun (i : Nat) => decide (lo ≤ x + i ∧ x + i < hi)))))

/-! ### Soft maximum (R212, R182 to R186) -/

/-- `sminit` (R183). -/
def execSminit (d a : Nat) (s : State) : Host.Outcome State Fault Refusal :=
  let r := smInit (s.rf a % 2 ^ 32)
  .next (s.longLanes d 32 [r.1, r.2])

/-- `smupd` (R184): the state and the pair of scores. -/
def execSmupd (d a : Nat) (s : State) : Host.Outcome State Fault Refusal :=
  let st := lanes 32 (s.rv d)
  let (m, l, alpha, p) := smUpdate (nth st 0) (nth st 1) (s.pair32 a)
  .next (s.long (.v d (ofLanes 32 [m, l, alpha]) :: writePair32 a p))

/-- `smerge` (R185). -/
def execSmerge (d a b : Nat) (s : State) : Host.Outcome State Fault Refusal :=
  let x := lanes 32 (s.rv a)
  let y := lanes 32 (s.rv b)
  let (m, l, a1, a2) := smMerge (nth x 0) (nth x 1) (nth y 0) (nth y 1)
  .next (s.longLanes d 32 [m, l, a1, a2])

/-- `smout` (R186). -/
def execSmout (d a : Nat) (s : State) : Host.Outcome State Fault Refusal :=
  let l := nth (lanes 32 (s.rv a)) 1
  .next (s.longLanes d 32 [smOut l, l])

/-! ### Random instructions (R223, R189) -/

/-- The 32 random words of a counter under the strand's seed and stream (R188). -/
def State.randomWords (s : State) (c : Nat) : List Nat := rngWords s.me.rngseed.toNat s.me.rngstream.toNat c

/-- `rngb` (R189). -/
def execRngb (d a : Nat) (s : State) : Host.Outcome State Fault Refusal :=
  .next (s.longLanes d 32 (s.randomWords (s.rs a)))

/-- `rngm` (R189). -/
def execRngm (d a b : Nat) (s : State) : Host.Outcome State Fault Refusal :=
  let t := rngThreshold (s.rf b % 2 ^ 32)
  let u := splitLanes 16 64 (joinLanes 32 (s.randomWords (s.rs a)))
  .next (s.longM d (ofBools (u.map (fun x => decide (x < t)))))

end Sys2Proof.Machine
end

