-- ==== Sys2Proof/Machine/Dispatch.lean ====
section
/-!
DEFINITION. The one match of the machine: each instruction, and each step of another agent, to its meaning.
-/

namespace Sys2Proof.Machine

/-- The meaning of every constructor. -/
def exec (i : Instr) (s : State) : Host.Outcome State Fault Refusal :=
  match i with
  | .sleep n => Sys2Proof.Machine.execSleep n s
  | .trap n => Sys2Proof.Machine.execTrap n s
  | .herd n => Sys2Proof.Machine.execHerd n s
  | .srd d n => Sys2Proof.Machine.execSrd d n s
  | .swr a n => Sys2Proof.Machine.execSwr a n s
  | .br o => Sys2Proof.Machine.execBr o s
  | .call o => Sys2Proof.Machine.execCall o s
  | .jr a => Sys2Proof.Machine.execJr a s
  | .jrl d a => Sys2Proof.Machine.execJrl d a s
  | .beq a b o => Sys2Proof.Machine.execBeq a b o s
  | .bne a b o => Sys2Proof.Machine.execBne a b o s
  | .blt a b o => Sys2Proof.Machine.execBlt a b o s
  | .bge a b o => Sys2Proof.Machine.execBge a b o s
  | .bltn a b o => Sys2Proof.Machine.execBltn a b o s
  | .bgen a b o => Sys2Proof.Machine.execBgen a b o s
  | .loop a o => Sys2Proof.Machine.execLoop a o s
  | .ld d b z o => Sys2Proof.Machine.execLd d b z o s
  | .ldSigned d b z o => Sys2Proof.Machine.execLdSigned d b z o s
  | .st d b z o => Sys2Proof.Machine.execSt d b z o s
  | .fld d b z o => Sys2Proof.Machine.execFld d b z o s
  | .fst d b z o => Sys2Proof.Machine.execFst d b z o s
  | .vld d b o => Sys2Proof.Machine.execVld d b o s
  | .vst d b o => Sys2Proof.Machine.execVst d b o s
  | .vlds d a b k => Sys2Proof.Machine.execVlds d a b k s
  | .vsts d a b k => Sys2Proof.Machine.execVsts d a b k s
  | .tldx d a b k => Sys2Proof.Machine.execTldx d a b k s
  | .vstm d a k => Sys2Proof.Machine.execVstm d a k s
  | .vgatherW d a b c h => Sys2Proof.Machine.execVgatherW d a b c h s
  | .vgatherD d a b c h => Sys2Proof.Machine.execVgatherD d a b c h s
  | .vscatterW d a b c h => Sys2Proof.Machine.execVscatterW d a b c h s
  | .vscatterD d a b c h => Sys2Proof.Machine.execVscatterD d a b c h s
  | .amo d a b o z sc r => Sys2Proof.Machine.execAmo d a b o z sc r s
  | .casW d a b sc => Sys2Proof.Machine.execCasW d a b sc s
  | .casD d a b sc => Sys2Proof.Machine.execCasD d a b sc s
  | .cas2D d a b sc => Sys2Proof.Machine.execCas2D d a b sc s
  | .ldaq d a sc z => Sys2Proof.Machine.execLdaq d a sc z s
  | .strl a b sc z => Sys2Proof.Machine.execStrl a b sc z s
  | .fenceAcq sc => Sys2Proof.Machine.execFenceAcq sc s
  | .fenceRel sc => Sys2Proof.Machine.execFenceRel sc s
  | .fenceAr sc => Sys2Proof.Machine.execFenceAr sc s
  | .red a b o z sc r => Sys2Proof.Machine.execRed a b o z sc r s
  | .nmcas4 d a b => Sys2Proof.Machine.execNmcas4 d a b s
  | .nmenq d a b => Sys2Proof.Machine.execNmenq d a b s
  | .nmchase d a b => Sys2Proof.Machine.execNmchase d a b s
  | .tmov d a => Sys2Proof.Machine.execTmov d a s
  | .tmovp d a => Sys2Proof.Machine.execTmovp d a s
  | .bgath d a => Sys2Proof.Machine.execBgath d a s
  | .pgin d a => Sys2Proof.Machine.execPgin d a s
  | .fork a b => Sys2Proof.Machine.execFork a b s
  | .join d => Sys2Proof.Machine.execJoin d s
  | .twait a => Sys2Proof.Machine.execTwait a s
  | .dcons d => Sys2Proof.Machine.execDcons d s
  | .qbind d a => Sys2Proof.Machine.execQbind d a s
  | .qunbind d => Sys2Proof.Machine.execQunbind d s
  | .vpop d a => Sys2Proof.Machine.execVpop d a s
  | .spop d a => Sys2Proof.Machine.execSpop d a s
  | .qstat d a => Sys2Proof.Machine.execQstat d a s
  | .send d a b c => Sys2Proof.Machine.execSend d a b c s
  | .sends d a b c => Sys2Proof.Machine.execSends d a b c s
  | .tagen a => Sys2Proof.Machine.execTagen a s
  | .tagdis a => Sys2Proof.Machine.execTagdis a s
  | .tagpnd a => Sys2Proof.Machine.execTagpnd a s
  | .tagclr a => Sys2Proof.Machine.execTagclr a s
  | .tagrd d a => Sys2Proof.Machine.execTagrd d a s
  | .spawn a => Sys2Proof.Machine.execSpawn a s
  | .suspend a => Sys2Proof.Machine.execSuspend a s
  | .waitw a b => Sys2Proof.Machine.execWaitw a b s
  | .depset a b => Sys2Proof.Machine.execDepset a b s
  | .depdec a => Sys2Proof.Machine.execDepdec a s
  | .resume a => Sys2Proof.Machine.execResume a s
  | .callc d o => Sys2Proof.Machine.execCallc d o s
  | .ecollect d a b => Sys2Proof.Machine.execEcollect d a b s
  | .eclose d => Sys2Proof.Machine.execEclose d s
  | .ecat d a b => Sys2Proof.Machine.execEcat d a b s
  | .efilt d a b => Sys2Proof.Machine.execEfilt d a b s
  | .efiltx d a b => Sys2Proof.Machine.execEfiltx d a b s
  | .erebase d a b => Sys2Proof.Machine.execErebase d a b s
  | .eapply a sc n r => Sys2Proof.Machine.execEapply a sc n r s
  | .edrop a => Sys2Proof.Machine.execEdrop a s
  | .elen d a k => Sys2Proof.Machine.execElen d a k s
  | .egrow a b => Sys2Proof.Machine.execEgrow a b s
  | .etrunc a b => Sys2Proof.Machine.execEtrunc a b s
  | .evbegin a b sc => Sys2Proof.Machine.execEvbegin a b sc s
  | .evend sc => Sys2Proof.Machine.execEvend sc s
  | .rollback d a b sc => Sys2Proof.Machine.execRollback d a b sc s
  | .commit a b sc => Sys2Proof.Machine.execCommit a b sc s
  | .floorw b => Sys2Proof.Machine.execFloorw b s
  | .lqry d a => Sys2Proof.Machine.execLqry d a s
  | .tlbi a b sc => Sys2Proof.Machine.execTlbi a b sc s
  | .agist a => Sys2Proof.Machine.execAgist a s
  | .muster a => Sys2Proof.Machine.execMuster a s
  | .pgmig a b => Sys2Proof.Machine.execPgmig a b s
  | .add d a b => Sys2Proof.Machine.execAdd d a b s
  | .sub d a b => Sys2Proof.Machine.execSub d a b s
  | .and d a b => Sys2Proof.Machine.execAnd d a b s
  | .or d a b => Sys2Proof.Machine.execOr d a b s
  | .xor d a b => Sys2Proof.Machine.execXor d a b s
  | .andn d a b => Sys2Proof.Machine.execAndn d a b s
  | .orn d a b => Sys2Proof.Machine.execOrn d a b s
  | .xnor d a b => Sys2Proof.Machine.execXnor d a b s
  | .shl d a b => Sys2Proof.Machine.execShl d a b s
  | .shr d a b => Sys2Proof.Machine.execShr d a b s
  | .sar d a b => Sys2Proof.Machine.execSar d a b s
  | .rol d a b => Sys2Proof.Machine.execRol d a b s
  | .ror d a b => Sys2Proof.Machine.execRor d a b s
  | .slt d a b => Sys2Proof.Machine.execSlt d a b s
  | .sltn d a b => Sys2Proof.Machine.execSltn d a b s
  | .min d a b => Sys2Proof.Machine.execMin d a b s
  | .max d a b => Sys2Proof.Machine.execMax d a b s
  | .minn d a b => Sys2Proof.Machine.execMinn d a b s
  | .maxn d a b => Sys2Proof.Machine.execMaxn d a b s
  | .mul d a b => Sys2Proof.Machine.execMul d a b s
  | .mulh d a b => Sys2Proof.Machine.execMulh d a b s
  | .mulhn d a b => Sys2Proof.Machine.execMulhn d a b s
  | .div d a b => Sys2Proof.Machine.execDiv d a b s
  | .divn d a b => Sys2Proof.Machine.execDivn d a b s
  | .rem d a b => Sys2Proof.Machine.execRem d a b s
  | .remn d a b => Sys2Proof.Machine.execRemn d a b s
  | .clz d a => Sys2Proof.Machine.execClz d a s
  | .ctz d a => Sys2Proof.Machine.execCtz d a s
  | .popc d a => Sys2Proof.Machine.execPopc d a s
  | .sextw d a => Sys2Proof.Machine.execSextw d a s
  | .zextw d a => Sys2Proof.Machine.execZextw d a s
  | .brev8 d a => Sys2Proof.Machine.execBrev8 d a s
  | .addi d a n => Sys2Proof.Machine.execAddi d a n s
  | .li d n => Sys2Proof.Machine.execLi d n s
  | .lis d n => Sys2Proof.Machine.execLis d n s
  | .addk d a k => Sys2Proof.Machine.execAddk d a k s
  | .subk d a k => Sys2Proof.Machine.execSubk d a k s
  | .andk d a k => Sys2Proof.Machine.execAndk d a k s
  | .ork d a k => Sys2Proof.Machine.execOrk d a k s
  | .xork d a k => Sys2Proof.Machine.execXork d a k s
  | .mulk d a k => Sys2Proof.Machine.execMulk d a k s
  | .sltk d a k => Sys2Proof.Machine.execSltk d a k s
  | .mink d a k => Sys2Proof.Machine.execMink d a k s
  | .maxk d a k => Sys2Proof.Machine.execMaxk d a k s
  | .movk d k => Sys2Proof.Machine.execMovk d k s
  | .shli d a n => Sys2Proof.Machine.execShli d a n s
  | .shri d a n => Sys2Proof.Machine.execShri d a n s
  | .sari d a n => Sys2Proof.Machine.execSari d a n s
  | .rori d a n => Sys2Proof.Machine.execRori d a n s
  | .extr d a p e => Sys2Proof.Machine.execExtr d a p e s
  | .extrs d a p e => Sys2Proof.Machine.execExtrs d a p e s
  | .insr d a p e => Sys2Proof.Machine.execInsr d a p e s
  | .fadd d a b p => Sys2Proof.Machine.execFadd d a b p s
  | .fsub d a b p => Sys2Proof.Machine.execFsub d a b p s
  | .fmul d a b p => Sys2Proof.Machine.execFmul d a b p s
  | .fdiv d a b p => Sys2Proof.Machine.execFdiv d a b p s
  | .fsqrt d a p => Sys2Proof.Machine.execFsqrt d a p s
  | .fmin d a b p => Sys2Proof.Machine.execFmin d a b p s
  | .fmax d a b p => Sys2Proof.Machine.execFmax d a b p s
  | .fneg d a p => Sys2Proof.Machine.execFneg d a p s
  | .fabs d a p => Sys2Proof.Machine.execFabs d a p s
  | .feq d a b p => Sys2Proof.Machine.execFeq d a b p s
  | .flt d a b p => Sys2Proof.Machine.execFlt d a b p s
  | .fle d a b p => Sys2Proof.Machine.execFle d a b p s
  | .fcvtS d a r => Sys2Proof.Machine.execFcvtS d a r s
  | .fcvtD d a => Sys2Proof.Machine.execFcvtD d a s
  | .fcvti d a p r => Sys2Proof.Machine.execFcvti d a p r s
  | .fcvtin d a p r => Sys2Proof.Machine.execFcvtin d a p r s
  | .ficvt d a p r => Sys2Proof.Machine.execFicvt d a p r s
  | .ficvtn d a p r => Sys2Proof.Machine.execFicvtn d a p r s
  | .fmvfs d a p => Sys2Proof.Machine.execFmvfs d a p s
  | .fmvsf d a p => Sys2Proof.Machine.execFmvsf d a p s
  | .fclass d a p => Sys2Proof.Machine.execFclass d a p s
  | .ffma d a b c p => Sys2Proof.Machine.execFfma d a b c p s
  | .ffms d a b c p => Sys2Proof.Machine.execFfms d a b c p s
  | .fnma d a b c p => Sys2Proof.Machine.execFnma d a b c p s
  | .fnms d a b c p => Sys2Proof.Machine.execFnms d a b c p s
  | .vadd d a b w => Sys2Proof.Machine.execVadd d a b w s
  | .vsub d a b w => Sys2Proof.Machine.execVsub d a b w s
  | .vmul d a b w => Sys2Proof.Machine.execVmul d a b w s
  | .vmulh d a b w => Sys2Proof.Machine.execVmulh d a b w s
  | .vand d a b w => Sys2Proof.Machine.execVand d a b w s
  | .vor d a b w => Sys2Proof.Machine.execVor d a b w s
  | .vxor d a b w => Sys2Proof.Machine.execVxor d a b w s
  | .vshl d a b w => Sys2Proof.Machine.execVshl d a b w s
  | .vshr d a b w => Sys2Proof.Machine.execVshr d a b w s
  | .vsar d a b w => Sys2Proof.Machine.execVsar d a b w s
  | .vmin d a b w => Sys2Proof.Machine.execVmin d a b w s
  | .vmax d a b w => Sys2Proof.Machine.execVmax d a b w s
  | .vminn d a b w => Sys2Proof.Machine.execVminn d a b w s
  | .vmaxn d a b w => Sys2Proof.Machine.execVmaxn d a b w s
  | .vabs d a w => Sys2Proof.Machine.execVabs d a w s
  | .vfadd d a b t => Sys2Proof.Machine.execVfadd d a b t s
  | .vfsub d a b t => Sys2Proof.Machine.execVfsub d a b t s
  | .vfmul d a b t => Sys2Proof.Machine.execVfmul d a b t s
  | .vfmax d a b t => Sys2Proof.Machine.execVfmax d a b t s
  | .vfmin d a b t => Sys2Proof.Machine.execVfmin d a b t s
  | .vfabs d a t => Sys2Proof.Machine.execVfabs d a t s
  | .vfneg d a t => Sys2Proof.Machine.execVfneg d a t s
  | .vfma d a b c t => Sys2Proof.Machine.execVfma d a b c t s
  | .vfms d a b c t => Sys2Proof.Machine.execVfms d a b c t s
  | .vfmas d a b c t => Sys2Proof.Machine.execVfmas d a b c t s
  | .vsel d a b c t => Sys2Proof.Machine.execVsel d a b c t s
  | .vexp2 d a f => Sys2Proof.Machine.execVexp2 d a f s
  | .vlog2 d a f => Sys2Proof.Machine.execVlog2 d a f s
  | .vrcp d a f => Sys2Proof.Machine.execVrcp d a f s
  | .vrsq d a f => Sys2Proof.Machine.execVrsq d a f s
  | .vsqrt d a f => Sys2Proof.Machine.execVsqrt d a f s
  | .vcvt d a f t => Sys2Proof.Machine.execVcvt d a f t s
  | .vqblk d a t => Sys2Proof.Machine.execVqblk d a t s
  | .vdqblk d a t => Sys2Proof.Machine.execVdqblk d a t s
  | .vplane d a t => Sys2Proof.Machine.execVplane d a t s
  | .vtrip d a => Sys2Proof.Machine.execVtrip d a s
  | .vtriu d a => Sys2Proof.Machine.execVtriu d a s
  | .vredsum d a w x => Sys2Proof.Machine.execVredsum d a w x s
  | .vredmax d a w x => Sys2Proof.Machine.execVredmax d a w x s
  | .vredmin d a w x => Sys2Proof.Machine.execVredmin d a w x s
  | .vscan d a w x => Sys2Proof.Machine.execVscan d a w x s
  | .vshuf d a b w => Sys2Proof.Machine.execVshuf d a b w s
  | .vbcast d a w x => Sys2Proof.Machine.execVbcast d a w x s
  | .vextr d a b w x => Sys2Proof.Machine.execVextr d a b w x s
  | .vins d a b w x => Sys2Proof.Machine.execVins d a b w x s
  | .vslup d a b w => Sys2Proof.Machine.execVslup d a b w s
  | .vsldn d a b w => Sys2Proof.Machine.execVsldn d a b w s
  | .viota d a w => Sys2Proof.Machine.execViota d a w s
  | .vcmp d a b c t f => Sys2Proof.Machine.execVcmp d a b c t f s
  | .mand d a b => Sys2Proof.Machine.execMand d a b s
  | .mor d a b => Sys2Proof.Machine.execMor d a b s
  | .mxor d a b => Sys2Proof.Machine.execMxor d a b s
  | .mnot d a => Sys2Proof.Machine.execMnot d a s
  | .mpop d a => Sys2Proof.Machine.execMpop d a s
  | .mfirst d a => Sys2Proof.Machine.execMfirst d a s
  | .mset d a b => Sys2Proof.Machine.execMset d a b s
  | .mget d a h => Sys2Proof.Machine.execMget d a h s
  | .vrange d a b => Sys2Proof.Machine.execVrange d a b s
  | .sminit d a => Sys2Proof.Machine.execSminit d a s
  | .smupd d a => Sys2Proof.Machine.execSmupd d a s
  | .smerge d a b => Sys2Proof.Machine.execSmerge d a b s
  | .smout d a => Sys2Proof.Machine.execSmout d a s
  | .mma t a b c y x => Sys2Proof.Machine.execMma t a b c y x s
  | .mma2 a b c y x => Sys2Proof.Machine.execMma2 a b c y x s
  | .mzero a t => Sys2Proof.Machine.execMzero a t s
  | .mrd d b t g => Sys2Proof.Machine.execMrd d b t g s
  | .mrdq d b t g => Sys2Proof.Machine.execMrdq d b t g s
  | .mwr a b t => Sys2Proof.Machine.execMwr a b t s
  | .mstat d t => Sys2Proof.Machine.execMstat d t s
  | .mdraw d a b => Sys2Proof.Machine.execMdraw d a b s
  | .mcons d => Sys2Proof.Machine.execMcons d s
  | .rngb d a => Sys2Proof.Machine.execRngb d a s
  | .rngm d a b => Sys2Proof.Machine.execRngm d a b s
  | .nop => Sys2Proof.Machine.execNop s
  | .eret => Sys2Proof.Machine.execEret s
  | .ifence => Sys2Proof.Machine.execIfence s
  | .halt => Sys2Proof.Machine.execHalt s
  | .yield => Sys2Proof.Machine.execYield s
  | .endTask => Sys2Proof.Machine.execEnd s
  | .cret => Sys2Proof.Machine.execCret s
  | .coreIssue => Sys2Proof.Machine.execCoreIssue s
  | .strandAged => Sys2Proof.Machine.execStrandAged s
  | .fetchBlockDeliver => Sys2Proof.Machine.execFetchBlockDeliver s
  | .icacheMissFill => Sys2Proof.Machine.execIcacheMissFill s
  | .herdRelease => Sys2Proof.Machine.execHerdRelease s
  | .herdTimeout => Sys2Proof.Machine.execHerdTimeout s
  | .longResultReturn => Sys2Proof.Machine.execLongResultReturn s
  | .continuationPickup => Sys2Proof.Machine.execContinuationPickup s
  | .recordPoolSlotFree => Sys2Proof.Machine.execRecordPoolSlotFree s
  | .localMemArbitration => Sys2Proof.Machine.execLocalMemArbitration s
  | .clusterSpadArbitration => Sys2Proof.Machine.execClusterSpadArbitration s
  | .dieSpadSliceGrant => Sys2Proof.Machine.execDieSpadSliceGrant s
  | .tileMoveStart => Sys2Proof.Machine.execTileMoveStart s
  | .tileMoveRow => Sys2Proof.Machine.execTileMoveRow s
  | .tileMoveComplete => Sys2Proof.Machine.execTileMoveComplete s
  | .droverProgramFault => Sys2Proof.Machine.execDroverProgramFault s
  | .streamElementArrive => Sys2Proof.Machine.execStreamElementArrive s
  | .atomicExecute => Sys2Proof.Machine.execAtomicExecute s
  | .nearMemoryExecute => Sys2Proof.Machine.execNearMemoryExecute s
  | .storeAsyncFailure => Sys2Proof.Machine.execStoreAsyncFailure s
  | .tableWalk => Sys2Proof.Machine.execTableWalk s
  | .migrationEpochEnd => Sys2Proof.Machine.execMigrationEpochEnd s
  | .pageMoveCopy => Sys2Proof.Machine.execPageMoveCopy s
  | .pageMoveDrain => Sys2Proof.Machine.execPageMoveDrain s
  | .pageMoveSwitch => Sys2Proof.Machine.execPageMoveSwitch s
  | .pageMoveResume => Sys2Proof.Machine.execPageMoveResume s
  | .pageMoveAbandon => Sys2Proof.Machine.execPageMoveAbandon s
  | .leasePageClean => Sys2Proof.Machine.execLeasePageClean s
  | .musterNoticeArrive => Sys2Proof.Machine.execMusterNoticeArrive s
  | .leasePageRemap => Sys2Proof.Machine.execLeasePageRemap s
  | .musterDoneReceived => Sys2Proof.Machine.execMusterDoneReceived s
  | .zeroFillDone => Sys2Proof.Machine.execZeroFillDone s
  | .musterWindowExpire => Sys2Proof.Machine.execMusterWindowExpire s
  | .borrowerHubRestored => Sys2Proof.Machine.execBorrowerHubRestored s
  | .lenderLost => Sys2Proof.Machine.execLenderLost s
  | .agistTakeRequest => Sys2Proof.Machine.execAgistTakeRequest s
  | .flushMarkerArrive => Sys2Proof.Machine.execFlushMarkerArrive s
  | .flushAckReturn => Sys2Proof.Machine.execFlushAckReturn s
  | .mcgGenerationRetire => Sys2Proof.Machine.execMcgGenerationRetire s
  | .messageArrive => Sys2Proof.Machine.execMessageArrive s
  | .antiMessageArrive => Sys2Proof.Machine.execAntiMessageArrive s
  | .messageDepart => Sys2Proof.Machine.execMessageDepart s
  | .messageDeliver => Sys2Proof.Machine.execMessageDeliver s
  | .messageAged => Sys2Proof.Machine.execMessageAged s
  | .workSteal => Sys2Proof.Machine.execWorkSteal s
  | .hangDetect => Sys2Proof.Machine.execHangDetect s
  | .floorRoundStart => Sys2Proof.Machine.execFloorRoundStart s
  | .floorReportRepeat => Sys2Proof.Machine.execFloorReportRepeat s
  | .floorRoundEnd => Sys2Proof.Machine.execFloorRoundEnd s
  | .sleepExpire => Sys2Proof.Machine.execSleepExpire s
  | .waitwTrigger => Sys2Proof.Machine.execWaitwTrigger s
  | .waitwPoll => Sys2Proof.Machine.execWaitwPoll s
  | .mmaOperandsConsumed => Sys2Proof.Machine.execMmaOperandsConsumed s
  | .mmaFinish => Sys2Proof.Machine.execMmaFinish s
  | .doorbellWrite => Sys2Proof.Machine.execDoorbellWrite s
  | .packetLaunch => Sys2Proof.Machine.execPacketLaunch s
  | .packetCopy => Sys2Proof.Machine.execPacketCopy s
  | .copyLine => Sys2Proof.Machine.execCopyLine s
  | .packetBarrier => Sys2Proof.Machine.execPacketBarrier s
  | .barrierSignalRead => Sys2Proof.Machine.execBarrierSignalRead s
  | .packetSignal => Sys2Proof.Machine.execPacketSignal s
  | .packetNop => Sys2Proof.Machine.execPacketNop s
  | .launchSlotAcquire => Sys2Proof.Machine.execLaunchSlotAcquire s
  | .societyRegister => Sys2Proof.Machine.execSocietyRegister s
  | .leaseResidency => Sys2Proof.Machine.execLeaseResidency s
  | .proxyReserve => Sys2Proof.Machine.execProxyReserve s
  | .flockPlace => Sys2Proof.Machine.execFlockPlace s
  | .placeAged => Sys2Proof.Machine.execPlaceAged s
  | .flockEnd => Sys2Proof.Machine.execFlockEnd s
  | .launchDone => Sys2Proof.Machine.execLaunchDone s
  | .queueReset => Sys2Proof.Machine.execQueueReset s
  | .evbaseWrite => Sys2Proof.Machine.execEvbaseWrite s
  | .partctlWrite => Sys2Proof.Machine.execPartctlWrite s
  | .partitionTick => Sys2Proof.Machine.execPartitionTick s
  | .drainTimeout => Sys2Proof.Machine.execDrainTimeout s
  | .clusterDrained => Sys2Proof.Machine.execClusterDrained s
  | .preemptRequest => Sys2Proof.Machine.execPreemptRequest s
  | .launchStateSave => Sys2Proof.Machine.execLaunchStateSave s
  | .flockSaved => Sys2Proof.Machine.execFlockSaved s
  | .flockRestore => Sys2Proof.Machine.execFlockRestore s
  | .trapEntry => Sys2Proof.Machine.execTrapEntry s
  | .launchAbort => Sys2Proof.Machine.execLaunchAbort s
  | .flitReplay => Sys2Proof.Machine.execFlitReplay s
  | .linkDegrade => Sys2Proof.Machine.execLinkDegrade s
  | .linkRetrain => Sys2Proof.Machine.execLinkRetrain s
  | .keepaliveSend => Sys2Proof.Machine.execKeepaliveSend s
  | .keepaliveTimeout => Sys2Proof.Machine.execKeepaliveTimeout s
  | .recoveryFence => Sys2Proof.Machine.execRecoveryFence s
  | .recoveryReconfigure => Sys2Proof.Machine.execRecoveryReconfigure s
  | .recoveryRestore => Sys2Proof.Machine.execRecoveryRestore s
  | .circuitChange => Sys2Proof.Machine.execCircuitChange s
  | .paddockWrite => Sys2Proof.Machine.execPaddockWrite s
  | .hostWrite => Sys2Proof.Machine.execHostWrite s
  | .hostRead => Sys2Proof.Machine.execHostRead s
  | .registerWrite => Sys2Proof.Machine.execRegisterWrite s
  | .mcgsyncWrite => Sys2Proof.Machine.execMcgsyncWrite s
  | .tagRegisterWrite => Sys2Proof.Machine.execTagRegisterWrite s
  | .tstatusWrite => Sys2Proof.Machine.execTstatusWrite s
  | .asidWrite => Sys2Proof.Machine.execAsidWrite s
  | .floorintWrite => Sys2Proof.Machine.execFloorintWrite s
  | .powerOn => Sys2Proof.Machine.execPowerOn s
  | .firmwareUpdate => Sys2Proof.Machine.execFirmwareUpdate s
  | .readErrorLog => Sys2Proof.Machine.execReadErrorLog s
  | .readSensors => Sys2Proof.Machine.execReadSensors s
  | .setPowerCap => Sys2Proof.Machine.execSetPowerCap s
  | .notifyHost => Sys2Proof.Machine.execNotifyHost s
  | .getMeasurements => Sys2Proof.Machine.execGetMeasurements s
  | .dieReset => Sys2Proof.Machine.execDieReset s
  | .packageReset => Sys2Proof.Machine.execPackageReset s
  | .powerThrottle => Sys2Proof.Machine.execPowerThrottle s
  | .issueGating => Sys2Proof.Machine.execIssueGating s
  | .powerRecover => Sys2Proof.Machine.execPowerRecover s
  | .storePerformsAtHome => Sys2Proof.Machine.execStorePerformsAtHome s
  | .lenderAnswerTimeout => Sys2Proof.Machine.execLenderAnswerTimeout s

end Sys2Proof.Machine
end

