-- ==== Sys2Proof/Machine/Issue.lean ====
section
/-!
DEFINITION. The issue of a bundle: its fetch, the bundle checks, `herd`, the room in the return buffer, the words, the next
bundle and the marker (R10, R17 to R20, R31, R32, R43 to R51, R96, R122, R123, R383, R384).
-/

namespace Sys2Proof.Machine

namespace State

/-- The bundle that a drover reads is held until it has issued. -/
def latchBundle (s : State) (e : Fetched) : State := if s.isDrover then s.setMe { s.me with fetch := [e] } else s

/-! ### The end of a bundle (R31, R47, R48, R96) -/

/-- The slot is given up; what the word did stays (R17). -/
def yieldSlot (s : State) : State := { s with issuing := false }

/-- Words that have executed are counted in RETIRED. -/
def retire (s : State) (n : Nat) : State := s.setMe { s.me with retired := s.me.retired + BitVec.ofNat 64 n }

/-- The issuing hart runs the launch's hang handler, which is known by its record slot (R298). -/
def runsHangHandler (s : State) : Bool :=
  s.hub.conts.any (fun c => some c.recAddr == s.me.record && some c.slot == s.me.slot && c.hangHandler)

/-- A bundle of a continuation other than the hang handler has issued (R298); a drover program is no continuation. -/
def noteIssue (s : State) : State :=
  match if s.isDrover then none else s.me.slot with
  | none => s
  | some n =>
    match s.launchAt n with
    | none => s
    | some l => if l.hungBefore && !s.runsHangHandler then s.setLaunch n (some { l with hungBefore := false }) else s

/-- The address of the next bundle, and LC, after a bundle without trap and without taken transfer (R47, R96). -/
def nextPc (s : State) : Nat × Word :=
  let h := s.me
  if h.pc = h.lend ∧ h.lc ≠ 0 ∧ !h.loopWord then (if h.lc = 1 then (h.pc + 8, 0) else (h.lstart, h.lc - 1))
  else (h.pc + 8, h.lc)

/-- The next bundle becomes the one to issue; a taken transfer discards the buffered bundles (R94). -/
def goOn (s : State) : State :=
  let h := s.me
  if h.flow = .taken then
    s.setMe { h with pc := h.npc, word := 0, resumed1 := false, fetch := [], snap := none, herdPassed := false }
  else
    let (pc, lc) := s.nextPc
    s.setMe { h with
      pc := pc, npc := pc, lc := lc, word := 0, resumed1 := false, fetch := h.fetch.filter (fun e => e.addr ≠ h.pc),
      snap := none, herdPassed := false }

/-- The switch marker of a bundle (R31): without an outstanding result the strand goes on; with every result back they
are written; else it parks. -/
def switchMarker (s : State) : State :=
  let h := s.me
  if h.longs.isEmpty then s
  else if h.longs.all (fun r => r.returned) then s.marker s.wordAddr
  else s.setMe { h with parked := true }

/-- The end of a bundle whose last word has issued: `m` is its marker bit. -/
def endBundle (s : State) (m : Bool) : State :=
  let h := s.me
  let s := if h.flow = .seq ∨ h.flow = .taken then (if m then s.goOn.switchMarker else s.goOn) else s
  s.yieldSlot

/-- A word that a trap stopped has no effect (R384): whether the trap just taken resumes at `a`. -/
def stoppedAt (s : State) (a : Nat) : Bool := s.me.flow == .trap && s.me.tresume == a

end State

/-- An outcome continued. -/
def thenDo (r : Host.Outcome State Fault Refusal) (g : State → Host.Outcome State Fault Refusal) :
    Host.Outcome State Fault Refusal :=
  match r with
  | .next t => g t
  | .fault f => .fault f
  | .refused r => .refused r

/-- The word waits at issue and is not consumed (R14); a suspension that waits for a record slot has executed (R40). -/
def State.waits (s : State) : Bool := s.me.flow == .wait && !s.me.waitSlot

/-! ### Short results that come late (R14, R17, R29, R75) -/

namespace State

/-- Between the words of a lone bundle: the slot stays with the hart, but where word 1 waits for word 0's result (R17). -/
def keepSlot (s : State) (w1 : Nat) : State :=
  let t := s.setMe { s.me with word := 1, kept := true }
  if s.lateReads s.hart ((wordInstr w1).elim [] (sources s.isDrover)) then (t.setMe { t.me with kept := false }).yieldSlot else t

end State

/-! ### The words of a bundle (R10, R17, R45, R46) -/

/-- A lone word's instruction, at the word the hart stands at. -/
def runLone (i : Instr) (s : State) : Host.Outcome State Fault Refusal := exec i (s.setMe { s.me with flow := .seq })

/-- Word 0 of a lone bundle (R17, R46): a taken transfer skips word 1, and an all-zero word 1 needs no cycle of its
own. -/
def issueLone0 (i : Instr) (w0 w1 : Nat) (s : State) : Host.Outcome State Fault Refusal :=
  let a := s.me.pc
  thenDo (runLone i s) (fun t =>
    if t.waits then .next t.yieldSlot
    else if t.stoppedAt a then .next t.yieldSlot
    else
      let t := t.noteShort i (latency s i)
      if t.me.flow ≠ .seq then .next ((t.retire 1).endBundle (bit w0 30))
      else if w1 = 0 then .next ((t.retire 2).endBundle (bit w0 30))
      else .next ((t.retire 1).keepSlot w1))

/-- Word 1 of a lone bundle (R18). -/
def issueLone1 (i : Instr) (w0 : Nat) (s : State) : Host.Outcome State Fault Refusal :=
  let a := s.me.pc + 4
  thenDo (runLone i s) (fun t =>
    if t.waits then .next t.yieldSlot
    else if t.stoppedAt a then .next t.yieldSlot
    else .next (((t.noteShort i (latency s i)).retire 1).endBundle (bit w0 30)))

/-- The short result of a pair bundle's class A word: its destination and its value, when its major writes one. -/
def shortDest (i : Instr) (t : State) : Option (Nat × Nat) :=
  let w := encode i
  if 0x20 ≤ w % 64 ∧ w % 64 ≤ 0x26 then some (bits w 6 5, t.me.nowS (bits w 6 5)) else none

/-- MSTATUS.DIVX set by a pair bundle's class A word, beside a class C word that may write MSTATUS (R74, R408). -/
def withDivx (s : State) (x : Bool) : State :=
  if x then s.setMe { s.me with mstatus := s.me.mstatus ||| 2 ^ 17 } else s

/-- The class A word of a pair bundle has issued as `u`; the class C word takes effect after it, and the class A word's
short result and DIVX stand (R41, R74, R100). Where both words write one s register with short results (a `call`, `srd` or
`spop` beside an arithmetic word), no rule says which value stands: the class A word's is the model's choice (log 96). -/
def finishPair (c a : Instr) (w0 n : Nat) (divx : Bool) (u : State) : Host.Outcome State Fault Refusal :=
  thenDo (exec c u) (fun v =>
    let w := v.setMe { v.me with snap := none }
    if v.waits || v.stoppedAt u.me.pc then .next w.yieldSlot
    else
      let w := if v.me.flow = .seq ∨ v.me.flow = .taken then
        withDivx (match shortDest a u with
          | some (d, x) => w.shortS d x
          | none => w) divx
        else w
      .next ((((w.noteShort c 1).noteShort a n).retire 2).endBundle (bit w0 30)))

/-- Both words of a pair bundle issue together (R10, R45): each reads what stood before the bundle. Where either faults
precisely or waits, the other has no effect (R14, R384); else the class A word has executed before a class C word that
traps or suspends takes effect (R41, R100). -/
def issuePair (c a : Instr) (w0 : Nat) (s : State) : Host.Outcome State Fault Refusal :=
  let h := s.me
  let p : Snap := { s := h.s, mstatus := h.mstatus, longs := h.longs.length }
  let s := s.setMe { h with snap := some p, flow := .seq }
  thenDo (exec c s) (fun t =>
    if t.waits || t.stoppedAt h.pc then .next (t.setMe { t.me with snap := none }).yieldSlot
    else thenDo (exec a (s.setMe { s.me with mstatus := h.mstatus % 2 ^ 17 })) (fun u =>
      if u.me.flow ≠ .seq then .next (u.setMe { u.me with snap := none, mstatus := u.me.mstatus ||| h.mstatus }).yieldSlot
      else
        let divx := bit u.me.mstatus 17
        finishPair c a w0 (latency s a) divx (u.setMe { u.me with mstatus := u.me.mstatus ||| h.mstatus })))

/-! ### The issue of a word -/

namespace State

/-- The bundle holds a `herd` that has not released the strand (R20, R102): it waits there, from its arrival on. -/
def waitHerd (s : State) : State :=
  let h := s.me
  (s.setMe { h with flow := .wait, herd := some (h.herd.getD s.cycle) }).yieldSlot

/-- The bundle needs more entries than the return buffer has free: as though a marker stood before it (R32). -/
def parkFirst (s : State) : State :=
  let h := s.me
  (if h.longs.all (fun r => r.returned) then s.marker s.wordAddr else s.setMe { h with parked := true }).yieldSlot

/-- A precise fault that no word's own meaning raises: of the fetch or of the bundle checks. -/
def issueFault (s : State) (cause tval : Nat) : Host.Outcome State Fault Refusal :=
  thenDo (trapOutcome s (s.takeTrap cause tval)) (fun t => .next t.yieldSlot)

/-- A bundle that passed its checks issues from its first word. -/
def issueBundle (s : State) (w0 w1 : Nat) : Host.Outcome State Fault Refusal :=
  match wordInstr w0, wordInstr w1 with
  | some i, some j =>
    let s := s.noteIssue.setMe { s.me with loopWord := isLoop i || isLoop j }
    if bit w0 31 then issueLone0 i w0 w1 s else issuePair i j w0 s
  | _, _ => .next s.yieldSlot

/-- Word 0 of a fetched bundle is next to issue. -/
def issueFirst (s : State) (w0 w1 : Nat) : Host.Outcome State Fault Refusal :=
  let h := s.me
  match bundleFault h s.isDrover w0 w1 s.mySociety.isSome with
  | some (c, v) => s.issueFault c v
  | none =>
    if (wordIs isHerd w0 || wordIs isHerd w1) && !h.herdPassed then .next s.waitHerd
    else if !h.longs.isEmpty && decide (16 < h.entries + wordEntries w0 + wordEntries w1) then .next s.parkFirst
    else s.issueBundle w0 w1

/-- Word 1 of a lone bundle is next to issue: after its word 0, or entered by `eret` (R383), which checks it alone. -/
def issueSecond (s : State) (w0 w1 : Nat) : Host.Outcome State Fault Refusal :=
  let h := s.me
  let fault := if !h.resumed1 then none
    else if !bit w0 31 then some (0x01, s.wordAddr)
    else (word1Fault h s.isDrover w1 s.mySociety.isSome).map (fun c => (c, 2 ^ 32 + w1))
  match fault with
  | some (c, v) => s.issueFault c v
  | none =>
    if h.resumed1 && wordIs isHerd w1 && !h.herdPassed then .next s.waitHerd
    else if h.resumed1 && !h.longs.isEmpty && decide (16 < h.entries + wordEntries w1) then .next s.parkFirst
    else
      match wordInstr w1 with
      | some i =>
        issueLone1 i w0 (if h.resumed1 then s.noteIssue.setMe { h with loopWord := isLoop i } else s)
      | none => .next s.yieldSlot

/-- The hart that holds the issue slot issues the next word of its bundle (R17); no other agent's step is under way in it. -/
def issueWord (s : State) : Host.Outcome State Fault Refusal :=
  let s := { s.setMe { s.me with spawnWait := false, kept := false } with ev := {} }
  match s.bundleNow with
  | none => .next s.yieldSlot
  | some e =>
    match e.fault with
    | some (c, v) => s.issueFault c v
    | none =>
      let s := s.latchBundle e
      if s.me.word = 0 then s.issueFirst e.w0 e.w1 else s.issueSecond e.w0 e.w1

end State

end Sys2Proof.Machine
end

