-- ==== Sys2Proof/Machine/Background.lean ====
section
/-!
DEFINITION. The order in which the units of the package act, one step at a time: the operations of the other agents that
are enabled, in turn, and the cycle count (logs 3 and 5). Each is a row of the opcode table without an encoding, with the
operands it acts on; the environment's rows are made by the agenda alone.
-/

namespace Sys2Proof.Machine

namespace State

/-! ### The cycle (R286, R298) -/

/-- A message notes since when it has been deliverable (R286). -/
def noteDeliverable (s : State) (core : Nat) (x : InMsg) : InMsg :=
  if (s.deliverable core x).isSome then { x with since := some (x.since.getD s.cycle) }
  else { x with since := none, aged := false }

/-- A launch without a society notes since when it has been hung (R298). -/
def noteHung (s : State) (slot : Nat) (l : Launch) : Launch :=
  if l.society.isNone && s.hung slot then { l with hungSince := some (l.hungSince.getD s.cycle) }
  else { l with hungSince := none }

/-- One cycle passes. -/
def tick (s : State) : State :=
  let s := { s with cycle := s.cycle + 1 }
  let cores := s.cores.map (fun e =>
    if e.2.inbox.isEmpty then e else (e.1, { e.2 with inbox := e.2.inbox.map (s.noteDeliverable e.1) }))
  let launches := s.hub.launches.map (fun e => (e.1, e.2.map (s.noteHung e.1)))
  { s with cores := cores, hub := { s.hub with launches := launches } }

/-! ### What may happen next -/

/-- The steps of one unit for each place of a list. -/
def forEach {α : Type} (l : List α) (g : Nat → α → List (Instr × EvArgs)) : List (Instr × EvArgs) :=
  (List.zip (upFrom 0 l.length) l).flatMap (fun e => g e.1 e.2)

/-- A strand stands at an instruction that waits (R14): its issue would change nothing. -/
def stillHeld (s : State) (k : Nat) : Bool :=
  (s.hartAt k).flow == .wait &&
    (match ({ s with hart := k, issuing := true } : State).issueWord with
     | .next t => decide (({ t with hart := s.hart, issuing := s.issuing, ev := s.ev } : State) = s)
     | _ => false)

/-- Strands of a core that their next instruction holds at issue: they are not ready (R14). -/
def heldStrands (s : State) (c : Nat) : List Nat :=
  (upFrom 0 4).filter (fun j => s.canIssue (8 * c + j) && s.stillHeld (8 * c + j))

/-- The second cycle of a lone bundle that keeps the slot: the other ready strands wait on (R15, R17). -/
def ageOthers (s : State) : State :=
  if s.me.kept = true ∧ s.isDrover = false then
    s.ageStrands s.coreNo (s.readyStrands s.coreNo (s.heldStrands s.coreNo)) s.strandNo
  else s

/-- The issue slot of a core (R15). -/
def issueSteps (s : State) (c : Nat) : List (Instr × EvArgs) :=
  if (upFrom (8 * c) 4).any s.canIssue then [(.coreIssue, { core := c })]
  else []

/-- Steps of a hart. -/
def hartSteps (s : State) (k : Nat) (h : Hart) : List (Instr × EvArgs) :=
  let at_ : EvArgs := { core := k / 8, strand := k % 8 }
  let fetch : EvArgs := { core := clusterOf (k / 8), val := h.asid, addr := h.pc }
  let cached := (s.clusterAt (clusterOf (k / 8))).icache.any (fun l => l.1 == h.asid && l.2.1 == h.pc / 64)
  let draining := match s.flockOf k with
    | some f => f.status == 2
    | none => false
  (if s.wantsFetch k then [if cached then (.fetchBlockDeliver, fetch) else (.icacheMissFill, fetch)] else []) ++
  (if h.herd.isSome then [(.herdRelease, at_), (.herdTimeout, at_)] else []) ++
  (if h.parked || draining then forEach h.longs (fun i _ => [(.longResultReturn, { at_ with idx := i })]) else []) ++
  (if !h.occ && h.slot.isSome && decide (k % 8 < 4) then [(.continuationPickup, at_)] else []) ++
  (if h.waitSlot then [(.recordPoolSlotFree, at_)] else []) ++
  h.q.map (fun e => (.streamElementArrive, { at_ with idx := e.1 })) ++
  (if s.hub.takes.any (fun t => t.hart == k) then [(.lenderAnswerTimeout, at_)] else []) ++
  (if k % 8 = 4 ∧ h.occ = true ∧ s.stillHeld k = false then [(.coreIssue, at_)] else [])

/-- Steps of a core. -/
def coreSteps (s : State) (c : Nat) (x : Core) : List (Instr × EvArgs) :=
  let at_ : EvArgs := { core := c }
  (if x.mailWait.isSome || (x.mailbox.isSome && !x.joins.isEmpty) then [(.coreIssue, { at_ with strand := 4 })] else []) ++
  (if x.inbox.any (s.unreachable c) then [(.messageDeliver, { at_ with strand := 4 })] else []) ++
  (if x.moves.isEmpty then [] else
    (.tileMoveStart, at_) :: forEach x.moves (fun i m =>
      [(if m.row < m.total then .tileMoveRow else .tileMoveComplete, { at_ with idx := i })])) ++
  (if x.products.isEmpty then [] else [(.mmaFinish, at_), (.mmaOperandsConsumed, at_)]) ++
  forEach x.netWait (fun i m => [(if m.anti then .antiMessageArrive else .messageArrive, { at_ with idx := i })]) ++
  (if x.outbound.isEmpty then [] else [(.messageDepart, at_)]) ++
  forEach x.inbox (fun i m => if m.aged then [] else [(.messageAged, { at_ with idx := i })])

/-- Steps of memory and the fabric. -/
def fabricSteps (s : State) : List (Instr × EvArgs) :=
  forEach s.stores (fun i _ => [(.storePerformsAtHome, { idx := i })]) ++
  forEach s.atomics (fun i _ => [(.atomicExecute, { idx := i })]) ++
  forEach s.nears (fun i _ => [(.nearMemoryExecute, { idx := i })]) ++
  s.walkQueue.map (fun q => (.tableWalk, { core := 384 * q.1, val := q.2.1, addr := 65536 * q.2.2, aux := 1 })) ++
  forEach s.walks (fun i _ => [(.tableWalk, { idx := i, aux := 2, ok := false })]) ++
  forEach s.hub.flushMarks (fun i _ => [(.flushMarkerArrive, { idx := i })]) ++
  forEach s.hub.flushAcks (fun i _ => [(.flushAckReturn, { idx := i })]) ++
  s.hub.groups.flatMap (fun e => if e.2.old.isEmpty then [] else [(.mcgGenerationRetire, { idx := e.1 })]) ++
  forEach s.hub.moves (fun i m =>
    [(if m.stage = 0 then (if m.copied then .pageMoveDrain else .pageMoveCopy) else if m.stage = 1 then .pageMoveSwitch
      else .pageMoveResume, { idx := i })]) ++
  forEach s.hub.agist (fun i a =>
    (a.cleaning ++ a.dirtyPages).map (fun p => (.leasePageClean, { idx := i, aux := p })) ++
    [(.leasePageRemap, { idx := i }), (.zeroFillDone, { idx := i }), (.musterWindowExpire, { idx := i }),
     (.lenderLost, { idx := i })])

/-- Steps of the wait tables and the floor units. -/
def waitSteps (s : State) : List (Instr × EvArgs) :=
  forEach s.hub.conts (fun i c => match c.state, c.waits with
    | .waiting, some (.sleeping _) => [(.sleepExpire, { idx := i })]
    | .waiting, some (.word _ _) => [(.waitwTrigger, { idx := i })]
    | _, _ => []) ++
  forEach s.hub.societies (fun i x => if x.inRound then [(.floorRoundEnd, { idx := i }), (.floorReportRepeat, { idx := i })]
    else [(.floorRoundStart, { idx := i })])

/-- Steps of the queues and the packets under way; launches take their slots in the order in which their packets started. -/
def queueSteps (s : State) : List (Instr × EvArgs) :=
  s.hub.queues.flatMap (fun e => if e.2.en then
    [(.packetLaunch, { idx := e.1 }), (.packetCopy, { idx := e.1 }), (.packetBarrier, { idx := e.1 }),
     (.packetSignal, { idx := e.1 }), (.packetNop, { idx := e.1 })] else []) ++
  forEach s.hub.packets (fun i p =>
    if p.type = 1 then
      (if p.record.isSome && (s.hub.packets.take i).all (fun q => q.record.isNone) then [(.launchSlotAcquire, { idx := i })]
       else [])
    else if p.type = 2 then [(.copyLine, { idx := i })]
    else [(.barrierSignalRead, { idx := i })])

/-- Steps of the launch unit for a launch. -/
def launchSteps (slot : Nat) (l : Launch) : List (Instr × EvArgs) :=
  let at_ : EvArgs := { idx := slot }
  [(.hangDetect, at_), (.launchDone, at_), (.placeAged, at_)] ++
  (match l.stage with
   | .society => [(.societyRegister, at_)]
   | .leases => [(.leaseResidency, at_)]
   | .proxy => [(.proxyReserve, at_)]
   | _ => []) ++
  l.flocks.flatMap (fun f => [(.flockEnd, { at_ with aux := f.num }), (.flockSaved, { at_ with aux := f.num })])

/-- Steps of the launch unit and the hub. -/
def hubSteps (s : State) : List (Instr × EvArgs) :=
  let none_ : EvArgs := { idx := 0 }
  s.hub.launches.flatMap (fun e => match e.2 with
    | some l => launchSteps e.1 l
    | none => []) ++
  (if s.hub.launches.isEmpty then [] else [(.flockPlace, none_), (.flockRestore, none_)]) ++
  s.clusters.flatMap (fun e => if e.2.draining then [(.drainTimeout, { idx := e.1 }), (.clusterDrained, { idx := e.1 })]
    else []) ++
  [(.partitionTick, none_), (.migrationEpochEnd, none_)] ++
  (if s.hub.preqJob.isSome then [(.launchStateSave, none_)] else []) ++
  ((upFrom 0 32).filter (fun n => decide (Store.get 0 s.hub.keptAt n + 5500000 ≤ s.cycle))).map (fun n =>
    (.keepaliveSend, { idx := n }))

/-- Every step that some unit may take next, but for the environment's. -/
def possible (s : State) : List (Instr × EvArgs) :=
  let cores := (s.harts.map (fun e => e.1 / 8)).eraseDups
  s.harts.flatMap (fun e => s.hartSteps e.1 e.2) ++
  s.cores.flatMap (fun e => s.coreSteps e.1 e.2) ++
  cores.flatMap s.issueSteps ++ cores.map (fun c => (.workSteal, { core := c })) ++
  s.fabricSteps ++ s.waitSteps ++ s.queueSteps ++ s.hubSteps

/-- The operands of a step: the strands that wait at issue are those that the machine finds waiting (R14). -/
def evArgs (s : State) (e : Instr × EvArgs) : EvArgs :=
  if e.1 = .coreIssue then { e.2 with list := s.heldStrands e.2.core } else e.2

/-- A row of the table run with its operands. -/
def runEvent (s : State) (e : Instr × EvArgs) : Host.Outcome State Fault Refusal := exec e.1 { s with ev := s.evArgs e }

/-- The first of a list of steps that changes the state; where none does, the state stays (log 7). -/
def firstEnabled (s : State) : List (Instr × EvArgs) → Host.Outcome State Fault Refusal
  | [] => .next s
  | e :: t =>
    match s.runEvent e with
    | .next u => if ({ u with ev := s.ev } : State) = s then s.firstEnabled t else .next u
    | o => o

/-- The units act in turn: the place where the search for an enabled step begins moves over the list with the cycles, by the
golden section of its length, so that no loop of a program keeps it from a unit for ever (log 3). -/
def background (s : State) : Host.Outcome State Fault Refusal :=
  let l := s.possible
  let n := s.cycle * 2654435769 % 2 ^ 32 * l.length / 2 ^ 32
  s.firstEnabled (l.drop n ++ l.take n)

/-- The steps asked for come first: the head of the agenda happens with its operands. A row with an encoding is no step of
another agent, and is dropped. -/
def runAgenda (s : State) (e : Instr × EvArgs) (t : List (Instr × EvArgs)) : Host.Outcome State Fault Refusal :=
  let s := { s with agenda := t }
  if e.1.isInstruction then .next s else s.runEvent e

/-- One step of the package: a cycle passes, and then the agenda, the hart that holds the issue slot (but in a cycle in which
issue is gated, R442), or another unit. -/
def stepOnce (s : State) : Host.Outcome State Fault Refusal :=
  match s.agenda with
  | e :: t => s.tick.runAgenda e t
  | [] =>
    if s.issuing then (if s.tick.gated then .next s.tick else s.tick.ageOthers.issueWord) else s.tick.background

/-! ### A program in place of the fetch -/

/-- A bundle of one instruction stands in the fetch buffer of the hart that issues next: a lone bundle, with `nop` in
word 1. The hart is occupied and holds the issue slot, which is not gated; nothing else is asked for. -/
def placeBundle (s : State) (payload : Nat) : State :=
  let h := s.hartAt 0
  let t := { s with hart := 0, issuing := true, agenda := [], hub := { s.hub with gating := false } }
  t.setHart 0 { h with
    occ := true, halted := false, parked := false, waitSlot := false, herd := none, word := 0, resumed1 := false,
    fetch := [{ addr := h.pc, w0 := 2 ^ 31 + payload, w1 := 0 }] }

end State

end Sys2Proof.Machine
end

