-- ==== Sys2Proof/Machine/Step.lean ====
section
/-!
DEFINITION. One step of the machine, and the state with an instruction where the next step fetches it.
-/

namespace Sys2Proof.Machine

/-- One step: what `State.stepOnce` says. -/
def step (s : State) : Host.Outcome State Fault Refusal := s.stepOnce

/-- The state whose next step fetches and runs the instruction of a word of the opcode table: the word stands as word 0 of
a lone bundle in the fetch buffer of hart 0, at its PC. -/
def State.withFetchWord (s : State) (nbits w : Nat) : State := s.placeBundle (payload (w % 2 ^ nbits))

end Sys2Proof.Machine
end

