-- ==== Sys2Proof/Safety.lean ====
section
/-!
DEFINITION. The terms in which claims about the machine are made: what it is for an outcome to answer a state, for memory
to be canonical, for a run to be safe, and what a step leaves unchanged.
-/

namespace Sys2Proof.Machine

/-- The outcome is a next state with a property. -/
def Answers (o : Host.Outcome State Fault Refusal) (P : State → Prop) : Prop := ∃ t, o = .next t ∧ P t

/-- The outcome is a next state, without a fault or a refusal. -/
def Goes (o : Host.Outcome State Fault Refusal) : Prop := ∃ t, o = .next t

/-- `k` steps from a state, all of them without a fault or a refusal. -/
def SafeRun (k : Nat) (s : State) : Prop := Goes (core.run k s)

namespace State

/-- Memory is in its canonical form: addresses strictly rising, and no listed byte equal to what an unlisted one reads
as. -/
def MemCanonical (s : State) : Prop := MemoryWf s.mem

/-- Nothing but the record of the issuing hart differs (its registers, its PC, its return buffer, its own status). -/
def OnlyMe (s t : State) : Prop := t = s.setMe t.me

/-- Every byte of memory reads as before. -/
def SameMemory (s t : State) : Prop := ∀ p, t.byteAt p = s.byteAt p

/-- Every byte of memory outside `n` bytes from a place reads as before. -/
def SameMemoryBut (s t : State) (p n : Nat) : Prop := ∀ q, q < p ∨ p + n ≤ q → t.byteAt q = s.byteAt q

/-- The issuing hart executes a word on its own: not as part of a pair bundle. -/
def Alone (s : State) : Prop := s.me.snap = none

/-- No access of the issuing hart is on its way. -/
def NothingUnderWay (s : State) : Prop :=
  (∀ t ∈ s.stores, t.hart ≠ s.hart) ∧ (∀ t ∈ s.atomics, t.hart ≠ s.hart) ∧ ∀ t ∈ s.nears, t.hart ≠ s.hart

/-- The issuing hart may make any access at once: it runs in supervisor mode and outside collecting mode, nothing of it is
on its way, no poisoned release holds its accesses (R275), and no line of memory is poisoned (R132). -/
def Calm (s : State) : Prop :=
  s.me.sup = true ∧ s.collecting = false ∧ s.me.releaseHeld = 0 ∧ s.poison = [] ∧ s.NothingUnderWay

/-- No tile move of the issuing hart is pending, and no message of it is on its way (R264, R265). -/
abbrev NothingSent (s : State) : Prop :=
  ∀ e ∈ s.cores, (∀ m ∈ e.2.moves, m.hart ≠ s.hart) ∧ ∀ m ∈ e.2.outbound ++ e.2.netWait, m.hart ≠ some s.hart

/-- A release of the issuing hart performs at once: it is not poisoned (R274), none of its tile moves or messages is pending,
and it has written to no other package since its last flush (R267). -/
def ReleasesFreely (s : State) : Prop :=
  bit s.me.tstatus 4 = false ∧ s.NothingSent ∧ s.me.dests = [] ∧ s.me.destOverflow = false ∧ s.flushingOf s.hart = false

/-- The state at which the hart that holds the issue slot issues: a cycle has passed, in which the other ready strands waited
on where it keeps the slot for word 1 (R15, R17); it waits in no `spawn`, and no other agent's step is under way. -/
def atIssue (s : State) : State :=
  { s.tick.ageOthers.setMe { s.tick.ageOthers.me with spawnWait := false, kept := false } with ev := {} }

/-- The strand takes its traps at its vector: it is no drover program, is in no handler, and TVEC is usable (R388). -/
def TrapsToHandler (s : State) : Prop :=
  s.isDrover = false ∧ s.me.tstatus % 2 = 0 ∧ s.me.tvec ≠ 0 ∧ s.me.tvec < 2 ^ 55

end State

/-- The generic address of an offset of the own core's local memory (R105). -/
def ownLocal (low : Nat) : Nat := 0xF0 * 2 ^ 56 + low

/-- No access is on its way in memory, and no line or page of it is lost, lent, moving or watched. -/
def State.QuietMemory (s : State) : Prop :=
  s.stores = [] ∧ s.atomics = [] ∧ s.nears = [] ∧ s.poison = [] ∧ s.hub.fenced = [] ∧ s.hub.moves = [] ∧ s.hub.agist = [] ∧
    s.hub.ckdctl = 0

/-- A core's micro-TLB holds the base page of a virtual address as a normal page of this package's HBM at frame `f`, readable
and writable, with A and D set (R229, R233). Core 1,536 stands for the hub's own translations (log 75). -/
def State.PageAt (s : State) (core asid va f : Nat) : Prop :=
  (∃ t, s.tlbs.find? (fun t => t.kind == 0 && t.unit == core && t.covers asid va) = some t ∧ t.large = false ∧
    bits t.entry 1 2 = 3 ∧ bits t.entry 4 2 = 3 ∧ bits t.entry 6 3 = 1 ∧ bits t.entry 9 2 = 0 ∧ bits t.entry 16 44 = f) ∧
  f / 2 ^ 29 = s.hub.pkg ∧ f % 2 ^ 29 < 2 ^ 23 ∧ s.inPaddock s.hub.pkg = true

/-- A range of the issuing hart's launch grants reads and writes of `n` bytes at a virtual address (R241). -/
def State.Granted (s : State) (va n : Nat) : Prop :=
  ∃ (k : Nat) (l : Launch) (e : Lease), s.me.slot = some k ∧ s.launchAt k = some l ∧ e ∈ l.ranges ∧ e.r = true ∧
    e.w = true ∧ e.base ≤ va ∧ va + n ≤ e.base + e.size

/-- `n` bytes at a virtual address lie in one page, at frame `f`, that the issuing hart may read and write. -/
def State.GlobalAt (s : State) (va n f : Nat) : Prop :=
  va + n ≤ 2 ^ 55 ∧ va % 65536 + n ≤ 65536 ∧ s.PageAt s.coreNo s.me.asid va f ∧ s.Granted va n

/-- The place of a virtual address in the page at a frame. -/
def placeIn (f va : Nat) : Nat := f * 65536 + va % 65536

/-- `n` bytes at an address lie in the own core's local memory, at an aligned offset (R105, R129). -/
def OwnLocal (a n align low : Nat) : Prop := a = ownLocal low ∧ low % align = 0 ∧ low + n ≤ 2 ^ 19

/-- The bytes after a store of lanes in ascending order: each byte is that of the highest lane that covers it, and every
other byte is as before. `place` gives the lanes that are stored, `e` their bytes. -/
def LanesStored (s t : State) (lanes e : Nat) (place : Nat → Option Nat) (x : Nat → Nat) : Prop :=
  ∀ q, t.byteAt q =
    match (List.range lanes).reverse.findSome? (fun i =>
      match place i with
      | some p => if p ≤ q ∧ q < p + e then some (x i / 2 ^ (8 * (q - p)) % 256) else none
      | none => none) with
    | some b => b
    | none => s.byteAt q

/-- Between two states only memory differs, and the note of the scratchpad lines that were written (R399). -/
def OnlyMemory (s t : State) : Prop := t = { s with mem := t.mem, written := t.written }

end Sys2Proof.Machine
end

