-- ==== Sys2Proof/Certificates/Slice0/Obligations.lean ====
section
/-!
DEFINITION. The statements for the provers: what the rules of the specification say of the machine. Each names the rules
it formalises; a clause that rests on a choice of the model names the log entry.
-/

section

open Sys2Proof Sys2Proof.Machine

/-! ### Encodings and the step (R43 to R56) -/

/-- The table under R54 shows one encoding of each format: each word decodes to the instruction it is shown for. -/
def Obligations.SpecFormatWordsDecode : Prop :=
  decode 0x002520E0 = .ok (.sub 3 4 5) ∧ decode 0x3FFD2961 = .ok (.addi 5 5 (-3)) ∧
  decode 0x06F048A4 = .ok (.sltk 2 9 240) ∧ decode 0x2C452031 = .ok (.mma 0 4 5 2 3 2) ∧
  decode 0x3FFF0147 = .ok (.bne 5 0 (-1)) ∧ decode 0x00001904 = .ok (.call 100) ∧
  decode 0x001EEA0D = .ok (.ldSigned 8 29 2 3) ∧ decode 0x3FFFDA62 = .ok (.li 9 (-5)) ∧
  decode 0x000028DD = .ok (.callc 3 5) ∧ decode 0x00010081 = .ok (.srd 2 1) ∧
  decode 0x00802000 = .ok (.herd 4) ∧ decode 0x00403800 = .ok (.trap 7) ∧ decode 0x0000F005 = .ok (.jr 30)

/-- No bit of an encoding is dropped: every well-formed instruction, at every value of its operands that its encoding
admits, is what the decoder reads from its word. -/
def Obligations.DecodeOfEncodeIsIdentity : Prop :=
  ∀ i : Instr, i.isInstruction = true → i.WellFormed → encode i < 2 ^ 30 ∧ decode (encode i) = .ok i

namespace Sys2Proof

/-- Each payload has one meaning: what the decoder reads from a payload is well-formed and encodes to that payload, so two
payloads never stand for one instruction, and every bit of the payload matters. -/
def EncodeOfDecodeIsTheWord : Prop :=
  ∀ (w : Nat) (i : Instr), w < 2 ^ 30 → decode w = .ok i → i.isInstruction = true ∧ i.WellFormed ∧ encode i = w

/-- Reserved encodings are refused (R50): a payload whose major is 0x34 or above (R56), and a word of the sys group whose
d field is not zero (R54). -/
def ReservedEncodingsAreRefused : Prop :=
  (∀ w, 0x34 ≤ w % 64 → decode w = .error .undefinedMajor) ∧
  ∀ w, w % 64 = 0 → w / 64 % 32 ≠ 0 → ∀ i, decode w ≠ .ok i

end Sys2Proof

/-- A step runs the decoded instruction. Where no step of another agent is asked for and a hart holds the issue slot at a
bundle that has been fetched and passes the bundle checks, in a cycle in which issue is not gated (R442), step is: a cycle
passes; `exec` of the decoded word 0 of a lone bundle, of its word 1 (also one entered by `eret`), or of both words of a pair;
then the bookkeeping of the bundle (`issueLone0`, `issueLone1`, `issuePair`), which the last clauses spell out: a short result
is noted with its latency (`noteShort`), and a lone bundle keeps the slot for word 1 where that does not wait for one
(`keepSlot`). The state at which the words run differs from the one before only in the cycle's bookkeeping and in the hart's
notes: that its bundle holds a `loop`, that it waits in no `spawn` and keeps no slot, that its flow is open, and the bundle that
a drover has read. In a gated cycle nothing issues (R442; that it is every odd one is log 51). -/
def Obligations.StepRunsTheDecodedWord : Prop :=
  (∀ (s : State) (e : Fetched) (i j : Instr), s.agenda = [] → s.issuing = true → s.tick.gated = false →
    s.atIssue.bundleNow = some e → e.fault = none → s.atIssue.me.word = 0 →
    decode (payload e.w0) = .ok i → decode (payload e.w1) = .ok j →
    let u := s.atIssue.latchBundle e
    bundleFault u.me u.isDrover e.w0 e.w1 u.mySociety.isSome = none →
    ((isHerd i || isHerd j) = false ∨ u.me.herdPassed = true) →
    u.me.entries + wordEntries e.w0 + wordEntries e.w1 ≤ 16 →
    let v := u.noteIssue.setMe { u.me with loopWord := isLoop i || isLoop j }
    step s = if bit e.w0 31 then issueLone0 i e.w0 e.w1 v else issuePair i j e.w0 v) ∧
  (∀ (s : State) (e : Fetched) (i : Instr), s.agenda = [] → s.issuing = true → s.tick.gated = false →
    s.atIssue.bundleNow = some e → e.fault = none → s.atIssue.me.word = 1 → decode (payload e.w1) = .ok i →
    let u := s.atIssue.latchBundle e
    (u.me.resumed1 = false → step s = issueLone1 i e.w0 u) ∧
    (u.me.resumed1 = true → bit e.w0 31 = true → word1Fault u.me u.isDrover e.w1 u.mySociety.isSome = none →
      (isHerd i = false ∨ u.me.herdPassed = true) → u.me.entries + wordEntries e.w1 ≤ 16 →
      step s = issueLone1 i e.w0 (u.noteIssue.setMe { u.me with loopWord := isLoop i }))) ∧
  (∀ s : State, s.agenda = [] → s.issuing = true → s.tick.gated = true → step s = .next s.tick) ∧
  (∀ (i : Instr) (w0 w1 : Nat) (s : State),
    issueLone0 i w0 w1 s = thenDo (exec i (s.setMe { s.me with flow := .seq })) (fun t =>
      let u := t.noteShort i (latency s i)
      if t.waits ∨ t.stoppedAt s.me.pc then .next t.yieldSlot
      else if t.me.flow ≠ .seq then .next ((u.retire 1).endBundle (bit w0 30))
      else if w1 = 0 then .next ((u.retire 2).endBundle (bit w0 30))
      else .next ((u.retire 1).keepSlot w1))) ∧
  (∀ (i : Instr) (w0 : Nat) (s : State),
    issueLone1 i w0 s = thenDo (exec i (s.setMe { s.me with flow := .seq })) (fun t =>
      if t.waits ∨ t.stoppedAt (s.me.pc + 4) then .next t.yieldSlot
      else .next (((t.noteShort i (latency s i)).retire 1).endBundle (bit w0 30)))) ∧
  ∀ (c a : Instr) (w0 : Nat) (s t u v : State),
    let h := s.me
    let p := s.setMe { h with snap := some { s := h.s, mstatus := h.mstatus, longs := h.longs.length }, flow := .seq }
    exec c p = .next t → t.me.flow = .seq ∨ t.me.flow = .taken →
    exec a (p.setMe { p.me with mstatus := h.mstatus % 2 ^ 17 }) = .next u → u.me.flow = .seq →
    let r := u.setMe { u.me with mstatus := u.me.mstatus ||| h.mstatus }
    exec c r = .next v → v.me.flow = .seq ∨ v.me.flow = .taken →
    let w := v.setMe { v.me with snap := none }
    let x := match shortDest a r with
      | some (d, y) => w.shortS d y
      | none => w
    issuePair c a w0 s =
      .next (((((withDivx x (bit u.me.mstatus 17)).noteShort c 1).noteShort a (latency p a)).retire 2).endBundle (bit w0 30))

namespace Sys2Proof

/-- The steps of the other agents happen when they are asked for: a step whose agenda begins with a row without an encoding
is `exec` of that row, with its operands in `ev`, after the cycle has passed; the strands that a CORE_ISSUE passes over are
those that the machine finds held at their instruction (R14). That the agenda orders the agents is the model's choice
(log 3). -/
def StepRunsTheAgendasEvent : Prop :=
  ∀ (s : State) (i : Instr) (a : EvArgs) (t : List (Instr × EvArgs)), s.agenda = (i, a) :: t → i.isInstruction = false →
    let u : State := { s.tick with agenda := t }
    (i ≠ .coreIssue → step s = exec i { u with ev := a }) ∧
    (i = .coreIssue → step s = exec i { u with ev := { a with list := u.heldStrands a.core } })

/-- The word placed where the step fetches is run by the next step, from reset and from any other state: for every payload that
decodes, but `herd`, which waits, and but what the bundle checks refuse for the hart's mode and tiles, the step runs the
instruction that the decoder reads from it, as word 0 of a lone bundle whose word 1 is the all-zero `nop` (R43). That a program
comes to run this way is the model's interface (log 14). -/
def PlacedWordIsRunByTheNextStep : Prop :=
  ∀ (s : State) (w : Nat) (i : Instr), w < 2 ^ 30 → decode w = .ok i → isHerd i = false →
    instrFault (s.hartAt 0) false i (s.societyOf (s.hartAt 0).slot).isSome = none → (s.hartAt 0).longs = [] →
    let u := s.withFetchWord 32 w
    step u = issueLone0 i (2 ^ 31 + w) 0
      (u.atIssue.noteIssue.setMe { u.atIssue.me with loopWord := isLoop i })

end Sys2Proof

/-- The next bundle (R47, R48, R96): a taken transfer goes to its target; else an active loop whose last bundle this is
goes back to its first bundle and counts down, or ends at count 1; else the bundle after this one follows. -/
def Obligations.NextBundleIsDecidedInOrder : Prop :=
  (∀ s : State, s.me.flow = .taken → s.goOn.me.pc = s.me.npc ∧ s.goOn.me.lc = s.me.lc) ∧
  (∀ s : State, s.me.flow ≠ .taken → s.me.pc = s.me.lend → s.me.loopWord = false → 1 < s.me.lc.toNat →
    s.goOn.me.pc = s.me.lstart ∧ s.goOn.me.lc = s.me.lc - 1) ∧
  (∀ s : State, s.me.flow ≠ .taken → s.me.pc = s.me.lend → s.me.loopWord = false → s.me.lc = 1 →
    s.goOn.me.pc = s.me.pc + 8 ∧ s.goOn.me.lc = 0) ∧
  (∀ s : State, s.me.flow ≠ .taken → (s.me.pc ≠ s.me.lend ∨ s.me.lc = 0 ∨ s.me.loopWord = true) →
    s.goOn.me.pc = s.me.pc + 8 ∧ s.goOn.me.lc = s.me.lc) ∧
  ∀ (s : State) (k : Nat), k ≠ s.hart → s.goOn.hartAt k = s.hartAt k

namespace Sys2Proof

/-! ### Scalar integers (R73 to R80) -/

/-- The register forms of majors 0x20 (R73): every result in the hart's own 64-bit words, written to s[d] and to nothing
else. -/
def ScalarRegisterResults : Prop :=
  ∀ (d a b : Nat) (s : State),
    let x : Word := s.me.readS a
    let y : Word := s.me.readS b
    let put := fun (r : Word) => (Host.Outcome.next (s.setMe (s.me.writeS d r)) : Host.Outcome State Fault Refusal)
    let n := y.toNat % 64
    exec (.add d a b) s = put (x + y) ∧ exec (.sub d a b) s = put (x - y) ∧
    exec (.and d a b) s = put (x &&& y) ∧ exec (.or d a b) s = put (x ||| y) ∧ exec (.xor d a b) s = put (x ^^^ y) ∧
    exec (.andn d a b) s = put (x &&& ~~~y) ∧ exec (.orn d a b) s = put (x ||| ~~~y) ∧
    exec (.xnor d a b) s = put (~~~(x ^^^ y)) ∧
    exec (.shl d a b) s = put (x <<< n) ∧ exec (.shr d a b) s = put (x >>> n) ∧
    exec (.sar d a b) s = put (x.sshiftRight n) ∧ exec (.rol d a b) s = put (x.rotateLeft n) ∧
    exec (.ror d a b) s = put (x.rotateRight n) ∧
    exec (.slt d a b) s = put (if x.slt y then 1 else 0) ∧ exec (.sltn d a b) s = put (if x.ult y then 1 else 0) ∧
    exec (.min d a b) s = put (if x.sle y then x else y) ∧ exec (.max d a b) s = put (if x.sle y then y else x) ∧
    exec (.minn d a b) s = put (if x.ule y then x else y) ∧ exec (.maxn d a b) s = put (if x.ule y then y else x) ∧
    exec (.mul d a b) s = put (x * y) ∧
    exec (.mulh d a b) s = put ((x.signExtend 128 * y.signExtend 128).extractLsb' 64 64) ∧
    exec (.mulhn d a b) s = put ((x.zeroExtend 128 * y.zeroExtend 128).extractLsb' 64 64) ∧
    exec (.sextw d a) s = put ((x.setWidth 32).signExtend 64) ∧ exec (.zextw d a) s = put ((x.setWidth 32).setWidth 64)

/-- The bit counts and the bit reversal of R73, by what they count: `clz`, `ctz`, `popc` and `brev8`. -/
def ScalarBitCountResults : Prop :=
  ∀ (d a : Nat) (s : State),
    let x : Word := s.me.readS a
    let put := fun (r : Word) => (Host.Outcome.next (s.setMe (s.me.writeS d r)) : Host.Outcome State Fault Refusal)
    (∃ n : Nat, n ≤ 64 ∧ exec (.clz d a) s = put (BitVec.ofNat 64 n) ∧ (∀ i, 64 - n ≤ i → x.getLsbD i = false) ∧
      (n < 64 → x.getLsbD (63 - n) = true)) ∧
    (∃ n : Nat, n ≤ 64 ∧ exec (.ctz d a) s = put (BitVec.ofNat 64 n) ∧ (∀ i, i < n → x.getLsbD i = false) ∧
      (n < 64 → x.getLsbD n = true)) ∧
    exec (.popc d a) s = put (BitVec.ofNat 64 (((List.range 64).filter (fun i => x.getLsbD i)).length)) ∧
    ∃ r : Word, exec (.brev8 d a) s = put r ∧ ∀ i, i < 64 → r.getLsbD i = x.getLsbD (8 * (i / 8) + (7 - i % 8))

end Sys2Proof

/-- Division (R74): it never traps, saturates on a zero divisor and on the one quotient that does not fit, and sets
MSTATUS.DIVX in exactly those cases, in a strand; a drover program records nothing. -/
def Obligations.DivisionNeverTraps : Prop :=
  ∀ (d a b : Nat) (s : State),
    let x : Word := s.me.readS a
    let y : Word := s.me.readS b
    let big := x = BitVec.intMin 64 ∧ y = -1
    let u := if (y = 0 ∨ big) ∧ s.isDrover = false then s.setMe { s.me with mstatus := s.me.mstatus ||| 2 ^ 17 } else s
    let v := if y = 0 ∧ s.isDrover = false then s.setMe { s.me with mstatus := s.me.mstatus ||| 2 ^ 17 } else s
    let put := fun (t : State) (r : Word) =>
      (Host.Outcome.next (t.setMe (t.me.writeS d r)) : Host.Outcome State Fault Refusal)
    exec (.div d a b) s = put u (if y = 0 then (if x.slt 0 then BitVec.intMin 64 else BitVec.intMax 64)
      else if big then BitVec.intMax 64 else x.sdiv y) ∧
    exec (.rem d a b) s = put u (if y = 0 ∨ big then 0 else x.srem y) ∧
    exec (.divn d a b) s = put v (if y = 0 then BitVec.allOnes 64 else x.udiv y) ∧
    exec (.remn d a b) s = put v (if y = 0 then 0 else x.umod y)

namespace Sys2Proof

/-- Immediates, constant shifts and bit fields (R76, R77, R79, R80), for every operand the encodings admit: results in
64-bit words, written to s[d] and to nothing else. -/
def ImmediateResults : Prop :=
  ∀ (d a : Nat) (s : State),
    let x : Word := s.me.readS a
    let old : Word := s.me.readS d
    let put := fun (r : Word) => (Host.Outcome.next (s.setMe (s.me.writeS d r)) : Host.Outcome State Fault Refusal)
    (∀ i : Int, exec (.addi d a i) s = put (x + BitVec.ofInt 64 i)) ∧
    (∀ i : Int, exec (.li d i) s = put (BitVec.ofInt 64 i)) ∧
    (∀ i : Nat, i < 2 ^ 19 → exec (.lis d i) s = put ((old <<< 19) ||| BitVec.ofNat 64 i)) ∧
    (∀ n : Nat, n < 64 → exec (.shli d a n) s = put (x <<< n) ∧ exec (.shri d a n) s = put (x >>> n) ∧
      exec (.sari d a n) s = put (x.sshiftRight n) ∧ exec (.rori d a n) s = put (x.rotateRight n)) ∧
    ∀ p e : Nat, p + (e + 1) ≤ 64 →
      exec (.extr d a p e) s = put ((x.extractLsb' p (e + 1)).setWidth 64) ∧
      exec (.extrs d a p e) s = put ((x.extractLsb' p (e + 1)).signExtend 64) ∧
      ∃ r : Word, exec (.insr d a p e) s = put r ∧
        ∀ i, i < 64 → r.getLsbD i = if p ≤ i ∧ i < p + (e + 1) then x.getLsbD (i - p) else old.getLsbD i

/-- The constant-window forms (R78): kN is the eight bytes at offset 8 · N of the strand's window in its core's local
memory (R25), little-endian, read at issue, where no store of the strand to them is on its way; each result goes to s[d] and to
nothing else. What the strand still has on its way to them comes first (R133), so it is shut out here by its bytes alone. -/
def ConstantWindowResults : Prop :=
  ∀ (d a k : Nat) (s : State),
    let p := placeLocal s.coreNo (0x800 * s.strandNo + 8 * k)
    (∀ t ∈ s.stores, t.hart = s.hart → t.place + t.data.length ≤ p ∨ p + 8 ≤ t.place) →
    (∀ t ∈ s.atomics, t.hart = s.hart → t.place + t.size ≤ p ∨ p + 8 ≤ t.place) →
    (∀ t ∈ s.nears, t.hart = s.hart → t.argPlace + 64 ≤ p ∨ p + 8 ≤ t.argPlace) →
    let x : Word := s.me.readS a
    let y : Word := BitVec.ofNat 64 (s.readAt p 8)
    let put := fun (r : Word) => (Host.Outcome.next (s.setMe (s.me.writeS d r)) : Host.Outcome State Fault Refusal)
    exec (.addk d a k) s = put (x + y) ∧ exec (.subk d a k) s = put (x - y) ∧ exec (.andk d a k) s = put (x &&& y) ∧
    exec (.ork d a k) s = put (x ||| y) ∧ exec (.xork d a k) s = put (x ^^^ y) ∧ exec (.mulk d a k) s = put (x * y) ∧
    exec (.sltk d a k) s = put (if x.slt y then 1 else 0) ∧ exec (.mink d a k) s = put (if x.sle y then x else y) ∧
    exec (.maxk d a k) s = put (if x.sle y then y else x) ∧ exec (.movk d k) s = put y

end Sys2Proof

/-- Short results at the registers (R21, R29): writes to s0 are discarded and s0 reads zero; any other destination holds
the result at once, and no other register, no other hart and no memory changes. m0 reads all ones and discards writes. -/
def Obligations.HardWiredRegisters : Prop :=
  (∀ h : Hart, h.readS 0 = 0 ∧ h.readM 0 = BitVec.allOnes 128) ∧
  (∀ (h : Hart) (x : Word) (y : MReg), h.writeS 0 x = h ∧ h.applyWrite (.s 0 x) = h ∧ h.applyWrite (.m 0 y) = h) ∧
  (∀ (h : Hart) (d n : Nat) (x : Word), h.snap = none → d ≠ 0 →
    (h.writeS d x).readS d = x ∧ (n ≠ d → (h.writeS d x).readS n = h.readS n) ∧
    (h.writeS d x).f = h.f ∧ (h.writeS d x).v = h.v ∧ (h.writeS d x).m = h.m ∧ (h.writeS d x).longs = h.longs) ∧
  ∀ (s : State) (h : Hart) (k : Nat), (s.setMe h).mem = s.mem ∧ (s.setMe h).cores = s.cores ∧ (s.setMe h).hub = s.hub ∧
    (s.setMe h).me = h ∧ (k ≠ s.hart → (s.setMe h).hartAt k = s.hartAt k)

/-- Every payload has at most one meaning and every bit of it matters; the reserved ones are refused. -/
def Obligations.PayloadsHaveOneMeaning : Prop :=
  EncodeOfDecodeIsTheWord ∧ ReservedEncodingsAreRefused

/-- How the steps of other agents and the words that the interface places come to run; both are the model's arrangement (logs 3
and 14). -/
def Obligations.OtherStepsAndPlacedWords : Prop :=
  StepRunsTheAgendasEvent ∧ PlacedWordIsRunByTheNextStep

/-- The scalar register forms (R73). -/
def Obligations.ScalarResults : Prop :=
  ScalarRegisterResults ∧ ScalarBitCountResults

/-- The scalar forms with an immediate or a constant-window word (R76 to R80). -/
def Obligations.ImmediateAndConstantResults : Prop :=
  ImmediateResults ∧ ConstantWindowResults

namespace Sys2Proof

/-! ### Long results and the marker (R30 to R33, R82, R385) -/

/-- A long instruction writes nothing until the marker (R30): every register, the flags, the tiles and memory stand as
before, and its result is the newest entry of the return buffer (R32). -/
def LongResultsWaitForTheMarker : Prop :=
  ∀ (s : State) (w : List RegWrite) (fl : Nat), s.me.snap = none →
    let t := s.long w fl
    t.me.s = s.me.s ∧ t.me.f = s.me.f ∧ t.me.v = s.me.v ∧ t.me.m = s.me.m ∧ t.me.fflags = s.me.fflags ∧
    t.me.mstatus = s.me.mstatus ∧ t.cores = s.cores ∧ t.mem = s.mem ∧ t.stores = s.stores ∧ t.hub = s.hub ∧
    (∀ k, k ≠ s.hart → t.hartAt k = s.hartAt k) ∧
    ∃ r : LongRes, t.me.longs = s.me.longs ++ [r] ∧ r.writes = w ∧ r.flags = fl ∧ r.waddr = s.wordAddr ∧ r.fault = none

/-- The value that a window's results give an s register: the last write of it in program order. -/
def lastWriteS (l : List LongRes) (d : Nat) : Option Word :=
  ((l.filter (fun r => r.fault.isNone)).flatMap (·.writes)).reverse.findSome? (fun w =>
    match w with
    | .s k x => if k = d then some x else none
    | _ => none)

/-- The value that a window's results give an f register. -/
def lastWriteF (l : List LongRes) (d : Nat) : Option Word :=
  ((l.filter (fun r => r.fault.isNone)).flatMap (·.writes)).reverse.findSome? (fun w =>
    match w with
    | .f k x => if k = d then some x else none
    | _ => none)

/-- The value that a window's results give a vector register. -/
def lastWriteV (l : List LongRes) (d : Nat) : Option VReg :=
  ((l.filter (fun r => r.fault.isNone)).flatMap (·.writes)).reverse.findSome? (fun w =>
    match w with
    | .v k x => if k = d then some x else none
    | _ => none)

/-- The value that a window's results give a mask register. -/
def lastWriteM (l : List LongRes) (d : Nat) : Option MReg :=
  ((l.filter (fun r => r.fault.isNone)).flatMap (·.writes)).reverse.findSome? (fun w =>
    match w with
    | .m k x => if k = d then some x else none
    | _ => none)

/-- The marker writes the results of its window in program order (R31, R82): every register holds the last value that an
instruction without a fault gave it, whatever a short instruction had written, and else what it held; a faulting
instruction's destination keeps its value (R33); the flags are ORed in; the return buffer is empty; and no other hart and
no memory changes. s0 and m0 keep their fixed values (R21). -/
def MarkerWritesResultsInProgramOrder : Prop :=
  ∀ (s : State) (next : Nat), oldestFault s.me.longs = none →
    let t := s.marker next
    (∀ d, d ≠ 0 → Store.get 0 t.me.s d = (lastWriteS s.me.longs d).getD (Store.get 0 s.me.s d)) ∧
    (∀ d, t.me.readF d = (lastWriteF s.me.longs d).getD (s.me.readF d)) ∧
    (∀ d, t.me.readV d = (lastWriteV s.me.longs d).getD (s.me.readV d)) ∧
    (∀ d, d ≠ 0 → t.me.readM d = (lastWriteM s.me.longs d).getD (s.me.readM d)) ∧
    t.me.readS 0 = 0 ∧ t.me.readM 0 = BitVec.allOnes 128 ∧
    (∀ k, t.me.fflags.testBit k = (s.me.fflags.testBit k || s.me.longs.any (fun r => r.flags.testBit k))) ∧
    t.me.longs = [] ∧ t.me.pc = s.me.pc ∧ t.mem = s.mem ∧ t.hub = s.hub ∧
    ∀ k, k ≠ s.hart → t.hartAt k = s.hartAt k

/-- The marker delivers the oldest deferred fault of its window (R385): TEPC names its word, TRESUME is where the window
goes on, DEFER is set, DMORE tells whether a later fault was discarded, and every other result of the window is
written. For a strand that takes its traps at TVEC and has no launch whose record the fault enters. -/
def MarkerDeliversTheOldestFault : Prop :=
  ∀ (s : State) (next w c v : Nat) (more : Bool), oldestFault s.me.longs = some (w, c, v, more) → c < 256 →
    s.TrapsToHandler → s.me.slot = none →
    let t := s.marker next
    t.me.tcause = c ∧ t.me.tepc = w ∧ t.me.tval = BitVec.ofNat 64 v ∧ t.me.tresume = next ∧
    bit t.me.tstatus 0 = true ∧ bit t.me.tstatus 1 = s.me.sup ∧ bit t.me.tstatus 2 = true ∧ bit t.me.tstatus 3 = more ∧
    t.me.sup = true ∧ t.me.pc = s.me.tvec ∧ t.me.longs = [] ∧
    (∀ d, d ≠ 0 → Store.get 0 t.me.s d = (lastWriteS s.me.longs d).getD (Store.get 0 s.me.s d)) ∧ t.mem = s.mem

/-- The oldest fault is the first faulting entry in program order, and a later one is noted (R385). -/
def OldestFaultIsFirstInProgramOrder : Prop :=
  (∀ (l : List LongRes), (∀ r ∈ l, r.fault = none) → oldestFault l = none) ∧
  ∀ (l m : List LongRes) (r : LongRes) (c v : Nat), (∀ q ∈ l, q.fault = none) → r.fault = some (c, v) →
    oldestFault (l ++ r :: m) = some (r.waddr, c, v, m.any (fun q => q.fault.isSome))

end Sys2Proof

/-! ### Scalar floating point (R81 to R89) -/

/-- The arithmetic of majors 0x27 and 0x28 (R83, R84, R89): the format's sum, difference, product, quotient, root or fused
result of the operands, rounded by the mode that FRM holds at issue (R81), is a long result of f[d] with its flags (R82);
an FP32 operand is the low half of its register (R22). -/
def Obligations.FpArithmeticResults : Prop :=
  ∀ (d a b c p : Nat) (s : State),
    let x := s.fpArg a p
    let y := s.fpArg b p
    let z := s.fpArg c p
    let m := RMode.ofCode s.me.frm
    let F := fmtOf p
    let put := fun (r : Nat × Nat) =>
      (Host.Outcome.next (s.long [.f d (BitVec.ofNat 64 r.1)] r.2) : Host.Outcome State Fault Refusal)
    exec (.fadd d a b p) s = put (fpAdd F m x y) ∧ exec (.fsub d a b p) s = put (fpSub F m x y) ∧
    exec (.fmul d a b p) s = put (fpMul F m x y) ∧ exec (.fdiv d a b p) s = put (fpDiv F m x y) ∧
    exec (.fsqrt d a p) s = put (fpSqrt F m x) ∧ exec (.fmin d a b p) s = put (fpMin F x y) ∧
    exec (.fmax d a b p) s = put (fpMax F x y) ∧
    exec (.ffma d a b c p) s = put (fpFma F m false false x y z) ∧
    exec (.ffms d a b c p) s = put (fpFma F m false true x y z) ∧
    exec (.fnma d a b c p) s = put (fpFma F m true false x y z) ∧
    exec (.fnms d a b c p) s = put (fpFma F m true true x y z)

namespace Sys2Proof

/-- Comparisons and conversions (R85, R88): the truth value or the integer is a long result of s[d], the converted value one
of f[d], each with its flags; a conversion rounds by its own mode. -/
def FpCompareAndConvertResults : Prop :=
  ∀ (d a b p r : Nat) (s : State),
    let x := s.fpArg a p
    let y := s.fpArg b p
    let m := RMode.ofCode r
    let i : Int := (s.me.readS a).toInt
    let truth := fun (q : Bool × Nat) =>
      (Host.Outcome.next (s.long [.s d (if q.1 then 1 else 0)] q.2) : Host.Outcome State Fault Refusal)
    let int := fun (q : Int × Nat) =>
      (Host.Outcome.next (s.long [.s d (BitVec.ofInt 64 q.1)] q.2) : Host.Outcome State Fault Refusal)
    let put := fun (q : Nat × Nat) =>
      (Host.Outcome.next (s.long [.f d (BitVec.ofNat 64 q.1)] q.2) : Host.Outcome State Fault Refusal)
    exec (.feq d a b p) s = truth (fpEq (fmtOf p) x y) ∧ exec (.flt d a b p) s = truth (fpLt (fmtOf p) x y) ∧
    exec (.fle d a b p) s = truth (fpLe (fmtOf p) x y) ∧
    exec (.fcvtS d a r) s = put (fpConvert Fmt.f64 Fmt.f32 m (s.fpArg a 1)) ∧
    exec (.fcvtD d a) s = put (fpConvert Fmt.f32 Fmt.f64 .rne (s.fpArg a 0)) ∧
    exec (.fcvti d a p r) s = int (fpToInt (fmtOf p) m (-(2 ^ 63)) (2 ^ 63 - 1) x) ∧
    exec (.fcvtin d a p r) s = int (fpToInt (fmtOf p) m 0 (2 ^ 64 - 1) x) ∧
    exec (.ficvt d a p r) s = put (fpOfInt (fmtOf p) m i) ∧
    exec (.ficvtn d a p r) s = put (fpOfInt (fmtOf p) m (s.me.readS a).toNat)

/-- The bit operations (R83, R84, R22): `fneg` inverts and `fabs` clears the sign bit, `fmvfs` and `fmvsf` move bits, FP32
forms give zero above bit 31; no flag is raised, and NaNs are copied unchanged. -/
def FpBitMoves : Prop :=
  ∀ (d a : Nat) (s : State),
    let x : Word := s.me.readF a
    let y : Word := s.me.readS a
    let putF := fun (r : Word) => (Host.Outcome.next (s.long [.f d r]) : Host.Outcome State Fault Refusal)
    let putS := fun (r : Word) => (Host.Outcome.next (s.long [.s d r]) : Host.Outcome State Fault Refusal)
    exec (.fneg d a 0) s = putF (((x.setWidth 32) ^^^ (1#32 <<< 31)).setWidth 64) ∧
    exec (.fneg d a 1) s = putF (x ^^^ (1#64 <<< 63)) ∧
    exec (.fabs d a 0) s = putF (((x.setWidth 32) &&& ~~~(1#32 <<< 31)).setWidth 64) ∧
    exec (.fabs d a 1) s = putF (x &&& ~~~(1#64 <<< 63)) ∧
    exec (.fmvfs d a 0) s = putS ((x.setWidth 32).setWidth 64) ∧ exec (.fmvfs d a 1) s = putS x ∧
    exec (.fmvsf d a 0) s = putF ((y.setWidth 32).setWidth 64) ∧ exec (.fmvsf d a 1) s = putF y

end Sys2Proof

/-- `fclass` (R87): bit 3 of the code is the sign bit as stored, bits [2:0] tell the kind by the exponent and the fraction
fields: 0 zero, 1 subnormal, 2 normal, 3 infinity, 4 quiet NaN, 5 signalling NaN; no flag is raised. -/
def Obligations.FclassCodesByFields : Prop :=
  ∀ (d a p : Nat) (s : State), p ≤ 1 →
    let eb := if p = 0 then 8 else 11
    let fb := if p = 0 then 23 else 52
    let x := s.fpArg a p
    let ex := x / 2 ^ fb % 2 ^ eb
    let fr := x % 2 ^ fb
    let kind := if ex = 0 then (if fr = 0 then 0 else 1) else if ex < 2 ^ eb - 1 then 2 else if fr = 0 then 3
      else if x.testBit (fb - 1) then 4 else 5
    exec (.fclass d a p) s =
      .next (s.long [.s d (BitVec.ofNat 64 (8 * (if x.testBit (eb + fb) then 1 else 0) + kind))])

/-- NaNs of `fmin`, `fmax`, `feq`, `flt` and `fle` (R85, R86): with exactly one NaN operand the minimum and the maximum are
the other operand, with two the canonical NaN; the relations are false; NV is raised by `fmin`, `fmax` and `feq` for a
signalling NaN alone, and by `flt` and `fle` for any NaN; zeros compare equal, and −0 is the smaller of two zeros. -/
def Obligations.FpNaNAndZeroRules : Prop :=
  ∀ (p x y : Nat), p ≤ 1 →
    let F := fmtOf p
    let nan := fun z => z / 2 ^ F.fb % 2 ^ F.eb = 2 ^ F.eb - 1 ∧ z % 2 ^ F.fb ≠ 0
    let snan := fun z => nan z ∧ z.testBit (F.fb - 1) = false
    let minus := 2 ^ (F.eb + F.fb)
    (nan x → ¬ nan y → (fpMin F x y).1 = y ∧ (fpMax F x y).1 = y ∧ (fpMin F y x).1 = y ∧ (fpMax F y x).1 = y) ∧
    (nan x → nan y → (fpMin F x y).1 = F.qnan ∧ (fpMax F x y).1 = F.qnan) ∧
    ((fpMin F x y).2 = 1 ↔ snan x ∨ snan y) ∧ ((fpMax F x y).2 = 1 ↔ snan x ∨ snan y) ∧
    ((fpEq F x y).2 = 1 ↔ snan x ∨ snan y) ∧ ((fpLt F x y).2 = 1 ↔ nan x ∨ nan y) ∧
    ((fpLe F x y).2 = 1 ↔ nan x ∨ nan y) ∧
    (nan x ∨ nan y → (fpEq F x y).1 = false ∧ (fpLt F x y).1 = false ∧ (fpLe F x y).1 = false) ∧
    (fpEq F 0 minus).1 = true ∧ (fpLt F minus 0).1 = false ∧ (fpMin F 0 minus).1 = minus ∧ (fpMin F minus 0).1 = minus ∧
    (fpMax F 0 minus).1 = 0 ∧ (fpMax F minus 0).1 = 0

namespace Sys2Proof

/-! ### Vectors (R191 to R212) -/

/-- Lane `i` of width `n` of a vector register (R23). -/
def lane (n : Nat) (v : VReg) (i : Nat) : BitVec n := v.extractLsb' (n * i) n

/-- The outcome is a long result of v[d] alone, with the lanes of width `n` given, and no flag. -/
def GivesLanes (s : State) (o : Host.Outcome State Fault Refusal) (d n : Nat) (g : Nat → BitVec n) : Prop :=
  ∃ r : VReg, o = .next (s.long [.v d r]) ∧ ∀ i, i < 1024 / n → lane n r i = g i

/-- The outcome is a long result of v[d] alone, with the lanes of width `n` given and every lane's flags (R179). -/
def GivesFpLanes (s : State) (o : Host.Outcome State Fault Refusal) (d n : Nat) (g : Nat → Nat × Nat) : Prop :=
  ∃ (r : VReg) (fl : Nat), o = .next (s.long [.v d r] fl) ∧
    (∀ i, i < 1024 / n → lane n r i = BitVec.ofNat n (g i).1) ∧
    ∀ k, fl.testBit k = (List.range (1024 / n)).any (fun i => (g i).2.testBit k)

end Sys2Proof

/-- Integer vector arithmetic (R194) at every lane width: each lane's result from the same lane of the operands, in lanes of
8, 16, 32 or 64 bits, wrapping, without a flag; nothing but the return buffer changes until the marker (R191). -/
def Obligations.VectorIntegerLanes : Prop :=
  ∀ (d a b w : Nat) (s : State), w ≤ 3 →
    let n := 8 * 2 ^ w
    let x := fun i => lane n (s.rv a) i
    let y := fun i => lane n (s.rv b) i
    GivesLanes s (exec (.vadd d a b w) s) d n (fun i => x i + y i) ∧
    GivesLanes s (exec (.vsub d a b w) s) d n (fun i => x i - y i) ∧
    GivesLanes s (exec (.vmul d a b w) s) d n (fun i => x i * y i) ∧
    GivesLanes s (exec (.vmulh d a b w) s) d n (fun i => BitVec.ofInt n ((x i).toInt * (y i).toInt / 2 ^ n)) ∧
    GivesLanes s (exec (.vand d a b w) s) d n (fun i => x i &&& y i) ∧
    GivesLanes s (exec (.vor d a b w) s) d n (fun i => x i ||| y i) ∧
    GivesLanes s (exec (.vxor d a b w) s) d n (fun i => x i ^^^ y i) ∧
    GivesLanes s (exec (.vshl d a b w) s) d n (fun i => x i <<< ((y i).toNat % n)) ∧
    GivesLanes s (exec (.vshr d a b w) s) d n (fun i => x i >>> ((y i).toNat % n)) ∧
    GivesLanes s (exec (.vsar d a b w) s) d n (fun i => (x i).sshiftRight ((y i).toNat % n)) ∧
    GivesLanes s (exec (.vmin d a b w) s) d n (fun i => if (x i).sle (y i) then x i else y i) ∧
    GivesLanes s (exec (.vmax d a b w) s) d n (fun i => if (x i).sle (y i) then y i else x i) ∧
    GivesLanes s (exec (.vminn d a b w) s) d n (fun i => if (x i).ule (y i) then x i else y i) ∧
    GivesLanes s (exec (.vmaxn d a b w) s) d n (fun i => if (x i).ule (y i) then y i else x i) ∧
    GivesLanes s (exec (.vabs d a w) s) d n (fun i => if (x i).slt 0 then -(x i) else x i)

/-- Floating-point vector arithmetic (R195, R196, R197, R199): each lane is the format's function of the same lane of the
operands, rounded once half to even, and the flags of all lanes are ORed (R179); `vsel` chooses lanes by the mask. -/
def Obligations.VectorFpLanes : Prop :=
  ∀ (d a b c t : Nat) (s : State), t ≤ 2 →
    let F := laneFmt t
    let n := F.width
    let x := fun i => (lane n (s.rv a) i).toNat
    let y := fun i => (lane n (s.rv b) i).toNat
    let z := fun i => (lane n (s.rv c) i).toNat
    GivesFpLanes s (exec (.vfadd d a b t) s) d n (fun i => fpAdd F .rne (x i) (y i)) ∧
    GivesFpLanes s (exec (.vfsub d a b t) s) d n (fun i => fpSub F .rne (x i) (y i)) ∧
    GivesFpLanes s (exec (.vfmul d a b t) s) d n (fun i => fpMul F .rne (x i) (y i)) ∧
    GivesFpLanes s (exec (.vfmax d a b t) s) d n (fun i => fpMax F (x i) (y i)) ∧
    GivesFpLanes s (exec (.vfmin d a b t) s) d n (fun i => fpMin F (x i) (y i)) ∧
    GivesFpLanes s (exec (.vfabs d a t) s) d n (fun i => (x i % 2 ^ (n - 1), 0)) ∧
    GivesFpLanes s (exec (.vfneg d a t) s) d n (fun i => (x i ^^^ 2 ^ (n - 1), 0)) ∧
    GivesFpLanes s (exec (.vfma d a b c t) s) d n (fun i => fpFma F .rne false false (x i) (y i) (z i)) ∧
    GivesFpLanes s (exec (.vfms d a b c t) s) d n (fun i => fpFma F .rne false true (x i) (y i) (z i)) ∧
    GivesFpLanes s (exec (.vfmas d a b c t) s) d n
      (fun i => fpFma F .rne false false (x i) ((s.me.readF b).toNat % 2 ^ n) (z i)) ∧
    GivesLanes s (exec (.vsel d a b c t) s) d n
      (fun i => if (s.me.readM c).getLsbD i then lane n (s.rv a) i else lane n (s.rv b) i) ∧
    GivesFpLanes s (exec (.vexp2 d a t) s) d n (fun i => fpExp2 F (x i)) ∧
    GivesFpLanes s (exec (.vlog2 d a t) s) d n (fun i => fpLog2 F (x i)) ∧
    GivesFpLanes s (exec (.vrcp d a t) s) d n (fun i => fpRcp F (x i)) ∧
    GivesFpLanes s (exec (.vrsq d a t) s) d n (fun i => fpRsq F (x i)) ∧
    GivesFpLanes s (exec (.vsqrt d a t) s) d n (fun i => fpSqrt F .rne (x i))

/-- Conversions and block formats (R198 to R205): `vcvt` lane by lane in every register shape; `vqblk` and `vtrip` pack 64
FP32 lanes of a register pair; `vdqblk`, `vplane` and `vtriu` unpack a container whose check passes, at once or when it is
read again (R164, R395), and a failed check is a fault at the marker that names the register (R193). The first failing check
decides: a parity that fails twice before a tag, a reserved bit or a trit that is wrong. -/
def Obligations.VectorFormatResults : Prop :=
  (∀ (d a f t : Nat) (s : State), f ≤ 3 → t ≤ 3 → f ≠ t →
    let src := if f = 1 ∨ f = 2 then lanes 16 (s.rv a)
      else if t = 1 ∨ t = 2 then lanes 32 (s.rv a) ++ lanes 32 (s.rv (a + 1)) else lanes 32 (s.rv a)
    let r := src.map (convertLane f t)
    let fl := r.foldl (fun g x => g ||| x.2) 0
    let x := r.map (·.1)
    exec (.vcvt d a f t) s = .next (
      if (f = 1 ∨ f = 2) ∧ (t = 0 ∨ t = 3) then
        s.long [.v d (ofLanes 32 (x.take 32)), .v (d + 1) (ofLanes 32 (x.drop 32))] fl
      else s.long [.v d (ofLanes (if t = 1 ∨ t = 2 then 16 else 32) x)] fl)) ∧
  ∀ (d a t : Nat) (s : State),
    let pair := lanes 32 (s.rv a) ++ lanes 32 (s.rv (a + 1))
    let bytes := lanes 8 (s.rv a)
    let u := s.setMe { s.me with reread := 0 }
    let twice := u.countTransient s.me.slot logParity s.coreNo 0x0C
    let late := fun (v : State) (c : Nat) =>
      (Host.Outcome.next (v.deferFault c (2 ^ 63 + a)) : Host.Outcome State Fault Refusal)
    let lost := late ((if s.me.reread = 0 then s else u).logError logParity s.coreNo 0x0C false) 0x0C
    exec (.vqblk d a t) s = .next (s.long [.v d (ofLanes 8 (writeContainer t (quantise t pair)))]) ∧
    exec (.vtrip d a) s = .next (s.long [.v d (ofLanes 8 (packTrits (pair.map tritOfFp)))]) ∧
    (containerFault t bytes = none → s.me.reread = 0 →
      exec (.vdqblk d a t) s = .next (s.long (writePair32 d ((upFrom 0 64).map (dequant t (readContainer t bytes))))) ∧
      exec (.vplane d a t) s = .next (s.long [.v d (ofLanes 8 (writeSegment t (readContainer t bytes)))])) ∧
    (containerFault t bytes = none → s.me.reread = 1 →
      exec (.vdqblk d a t) s =
        .next (twice.long (writePair32 d ((upFrom 0 64).map (dequant t (readContainer t bytes))))) ∧
      exec (.vplane d a t) s = .next (twice.long [.v d (ofLanes 8 (writeSegment t (readContainer t bytes)))])) ∧
    (containerFault 0 bytes = none → s.me.reread = 0 →
      let k := readContainer 0 bytes
      exec (.vtriu d a) s =
        .next (s.long (writePair32 d (List.zipWith (fun g m => tritFp (if m = 0 then 0 else 1 + g)) k.signs k.mags)))) ∧
    (containerFault t bytes = some 0x0C ∨ s.me.reread = 2 → exec (.vdqblk d a t) s = lost ∧ exec (.vplane d a t) s = lost) ∧
    (containerFault 0 bytes = some 0x0C ∨ s.me.reread = 2 → exec (.vtriu d a) s = lost) ∧
    (∀ c, c ≠ 0x0C → s.me.reread ≤ 1 →
      let v := if s.me.reread = 1 then twice else s
      (containerFault t bytes = some c → exec (.vdqblk d a t) s = late v c ∧ exec (.vplane d a t) s = late v c) ∧
      (containerFault 0 bytes = some c → exec (.vtriu d a) s = late v c))

/-- Reductions, scans and permutes (R206 to R208): tree-order folds into lane 0 with the other lanes zero, the inclusive
prefix sum, shuffles, broadcasts, insertions, extractions, slides and the index ramp. -/
def Obligations.VectorReduceAndPermute : Prop :=
  ∀ (d a b w x : Nat) (s : State), w ≤ 3 → x ≤ 1 →
    let n := if x = 0 then 8 * 2 ^ w else (laneFmt w).width
    let k := 8 * 2 ^ w
    let F := laneFmt w
    let l := lanes n (s.rv a)
    let red := fun (int : Nat → Nat → Nat) (fp : Nat → Nat → Nat × Nat) =>
      let r := treeFold (if x = 0 then fun p q => (int p q, 0) else fp) 7 l
      (Host.Outcome.next (s.long [.v d (ofLanes n [r.1])] r.2) : Host.Outcome State Fault Refusal)
    exec (.vredsum d a w x) s = red (fun p q => (p + q) % 2 ^ k) (fpAdd F .rne) ∧
    exec (.vredmax d a w x) s = red (laneMax k) (fpMax F) ∧
    exec (.vredmin d a w x) s = red (laneMin k) (fpMin F) ∧
    (let r := scanLanes (if x = 0 then fun p q => ((p + q) % 2 ^ k, 0) else fpAdd F .rne) l
     exec (.vscan d a w x) s = .next (s.long [.v d (ofLanes n r.1)] r.2)) ∧
    GivesLanes s (exec (.vshuf d a b w) s) d k (fun i => lane k (s.rv a) ((lane k (s.rv b) i).toNat % (1024 / k))) ∧
    GivesLanes s (exec (.vbcast d a w x) s) d k
      (fun _ => BitVec.ofNat k (if x = 0 then (s.me.readS a).toNat else (s.me.readF a).toNat)) ∧
    (let j := (s.me.readS b).toNat
     let v : Word := if j < 1024 / k then (lane k (s.rv a) j).setWidth 64 else 0
     exec (.vextr d a b w x) s = .next (s.long [if x = 0 then .s d v else .f d v])) ∧
    GivesLanes s (exec (.vins d a b w x) s) d k (fun i => if i = (s.me.readS b).toNat
      then BitVec.ofNat k (if x = 0 then (s.me.readS a).toNat else (s.me.readF a).toNat) else lane k (s.rv d) i) ∧
    GivesLanes s (exec (.vslup d a b w) s) d k
      (fun i => if (s.me.readS b).toNat ≤ i then lane k (s.rv a) (i - (s.me.readS b).toNat) else 0) ∧
    GivesLanes s (exec (.vsldn d a b w) s) d k (fun i => if i + (s.me.readS b).toNat < 1024 / k
      then lane k (s.rv a) (i + (s.me.readS b).toNat) else 0) ∧
    GivesLanes s (exec (.viota d a w) s) d k (fun i => BitVec.ofNat k ((s.me.readS a).toNat + i))

/-- Comparisons and masks (R209 to R211): one mask bit per lane, the mask operations in 128-bit words, the counts, and the
range mask of a signed interval; bits above the lanes of a comparison are zero. -/
def Obligations.MaskResults : Prop :=
  ∀ (d a b : Nat) (s : State),
    let x : MReg := s.me.readM a
    let y : MReg := s.me.readM b
    let put := fun (r : MReg) => (Host.Outcome.next (s.long [.m d r]) : Host.Outcome State Fault Refusal)
    exec (.mand d a b) s = put (x &&& y) ∧ exec (.mor d a b) s = put (x ||| y) ∧ exec (.mxor d a b) s = put (x ^^^ y) ∧
    exec (.mnot d a) s = put (~~~x) ∧
    exec (.mset d a b) s = put (s.me.readS b ++ s.me.readS a) ∧
    (∀ h, h ≤ 1 → exec (.mget d a h) s = .next (s.long [.s d (x.extractLsb' (64 * h) 64)])) ∧
    exec (.mpop d a) s =
      .next (s.long [.s d (BitVec.ofNat 64 ((List.range 128).filter (fun i => x.getLsbD i)).length)]) ∧
    (∃ j : Nat, exec (.mfirst d a) s = .next (s.long [.s d (BitVec.ofNat 64 j)]) ∧ j ≤ 128 ∧
      (∀ i, i < j → x.getLsbD i = false) ∧ (j < 128 → x.getLsbD j = true)) ∧
    (∃ r : MReg, exec (.vrange d a b) s = put r ∧ ∀ i : Nat, i < 128 →
      r.getLsbD i = (decide ((s.me.readS b).toInt ≤ (s.me.readS a).toInt + i) &&
        decide ((s.me.readS a).toInt + i < (s.me.readS (b + 1)).toInt))) ∧
    (∀ c t : Nat, t ≤ 3 → c ≤ 5 →
      let n := 8 * 2 ^ t
      ∃ r : MReg, exec (.vcmp d a b c t 0) s = put r ∧ ∀ i : Nat, i < 128 →
        let p := lane n (s.rv a) i
        let q := lane n (s.rv b) i
        r.getLsbD i = (decide (i < 1024 / n) && (if c = 0 then p == q else if c = 1 then p != q else if c = 2 then p.slt q
          else if c = 3 then p.sle q else if c = 4 then q.slt p else q.sle p))) ∧
    ∀ c t : Nat, t ≤ 2 →
      let F := laneFmt t
      let l := List.zipWith (compareLane c t 1) (lanes F.width (s.rv a)) (lanes F.width (s.rv b))
      exec (.vcmp d a b c t 1) s =
        .next (s.long [.m d (BitVec.ofNat 128 (ofBools (l.map (·.1))))] (l.foldl (fun g e => g ||| e.2) 0))

/-- Soft maximum, random words and the draw (R182 to R189, R212, R222, R223): the state and its update as the chapter's
functions give them; `mdraw` of no index sets DRAWEMPTY at the marker that writes it. -/
def Obligations.SoftmaxRandomAndDraw : Prop :=
  ∀ (d a b : Nat) (s : State),
    let st := lanes 32 (s.rv d)
    let x := lanes 32 (s.rv a)
    let y := lanes 32 (s.rv b)
    let seed := s.me.rngseed.toNat
    let stream := s.me.rngstream.toNat
    let i0 := smInit ((s.me.readF a).toNat % 2 ^ 32)
    let u := smUpdate (nth st 0) (nth st 1) (s.pair32 a)
    let g := smMerge (nth x 0) (nth x 1) (nth y 0) (nth y 1)
    let w := rngWords seed stream (s.me.readS a).toNat
    let k := drawIndex seed stream (s.me.readS b).toNat (s.pair32 a)
    exec (.sminit d a) s = .next (s.long [.v d (ofLanes 32 [i0.1, i0.2])]) ∧
    exec (.smupd d a) s = .next (s.long (.v d (ofLanes 32 [u.1, u.2.1, u.2.2.1]) :: writePair32 a u.2.2.2)) ∧
    exec (.smerge d a b) s = .next (s.long [.v d (ofLanes 32 [g.1, g.2.1, g.2.2.1, g.2.2.2])]) ∧
    exec (.smout d a) s = .next (s.long [.v d (ofLanes 32 [smOut (nth x 1), nth x 1])]) ∧
    exec (.rngb d a) s = .next (s.long [.v d (ofLanes 32 w)]) ∧
    exec (.rngm d a b) s = .next (s.long [.m d (BitVec.ofNat 128 (ofBools
      ((splitLanes 16 64 (joinLanes 32 w)).map (fun z => decide (z < rngThreshold ((s.me.readF b).toNat % 2 ^ 32))))))]) ∧
    exec (.mdraw d a b) s = .next (s.pushLong
      { id := 0, waddr := 0, writes := [.s d (BitVec.ofNat 64 k)], mstatus := if k = 64 then 2 ^ 16 else 0 })

/-! ### The matrix unit (R171 to R176, R192, R213 to R224) -/

/-- A product whose operands pass the checks of R214 enters the core's queue of four (R215, R224): its operands are the
addresses, formats and scales of its registers at issue, where no store of the strand is on its way; its return-buffer entry
waits for the unit, and no tile changes before the marker. With the queue full the word waits and changes nothing but that. -/
def Obligations.ProductsEnterTheQueue : Prop :=
  ∀ (t a b c y x : Nat) (dual : Bool) (s : State), s.me.snap = none →
    let pa := s.rs a
    let pb := s.rs b
    let sc := s.rf c
    let e := scaleExp (sc % 2 ^ 32) + scaleExp (sc / 2 ^ 32) - 254 - (blockP x : Int) - (blockP y : Int)
    let q : Product :=
      { hart := s.hart, long := s.me.nextLong, fa := x, fb := y, a := pa, b := pb, k := e,
        tile := if dual then 0 else t, dual := dual, since := s.cycle }
    let run := if dual then exec (.mma2 a b c y x) s else exec (.mma t a b c y x) s
    (∀ u ∈ s.stores, u.hart ≠ s.hart) → s.checkProduct sc pa pb (State.productTiles q) = .ok () →
    (s.myCore.products.length < 4 →
      ∃ u : State, run = .next u ∧
        u.myCore.products = s.myCore.products ++ [q] ∧
        u.myCore.za0 = s.myCore.za0 ∧ u.myCore.za1 = s.myCore.za1 ∧ u.mem = s.mem ∧
        u.me.longs = s.me.longs ++ [{ id := s.me.nextLong, waddr := s.wordAddr, queued := true }] ∧
        u.me.s = s.me.s ∧ u.me.f = s.me.f ∧ u.me.v = s.me.v ∧ u.me.m = s.me.m) ∧
    (4 ≤ s.myCore.products.length → run = .next (s.setMe { s.me with flow := .wait }))

/-- Accumulator instructions (R217 to R221): `mzero` with an anchor from −2,048 to 2,047 and `mwr` leave a change of their tile
for the marker; `mrd`, `mrdq` and `mstat` read the tile as it stands; an anchor outside that range and a bit above the row
operand's fields are bounds faults of the word. -/
def Obligations.AccumulatorResults : Prop :=
  ∀ (d a b t : Nat) (s : State),
    let z := if t = 0 then s.myCore.za0 else s.myCore.za1
    let el := fun i => Store.get ({} : Elem) z.els i
    let f := (s.me.readS a).toInt
    let row := s.rs b
    let bounds := fun (v : Nat) => trapOutcome s (s.takeTrap 0x08 v)
    (f < -2048 ∨ 2047 < f → exec (.mzero a t) s = bounds (s.rs a)) ∧
    (256 ≤ row → exec (.mwr a b t) s = bounds row ∧ exec (.mrd d b t 3) s = bounds row) ∧
    (64 ≤ row → (∀ g, g ≤ 2 → exec (.mrd d b t g) s = bounds row) ∧ ∀ g, exec (.mrdq d b t g) s = bounds row) ∧
    (-2048 ≤ f → f ≤ 2047 → exec (.mzero a t) s = .next (s.pushLong { id := 0, waddr := 0, tiles := [.zero t f] })) ∧
    (row < 256 → exec (.mwr a b t) s =
      .next (s.pushLong { id := 0, waddr := 0, tiles := [.put t (row % 64) (row / 64) (lanes 64 (s.rv a))] })) ∧
    (row < 256 → exec (.mrd d b t 3) s = .next (s.long [.v d (ofLanes 64 ((upFrom 0 16).map (fun k =>
      let e := el (64 * (row % 64) + 16 * (row / 64) + k)
      e.a.toNat + 2 ^ 56 * (if e.ov then 1 else 0) + 2 ^ 57 * (if e.nan then 1 else 0))))])) ∧
    (row < 64 →
      let out := fun (F : Fmt) => (upFrom 0 64).map (fun j => readout F z.anchor (el (64 * row + j)))
      let fl := fun (F : Fmt) => (out F).foldl (fun g e => g ||| e.2) 0
      exec (.mrd d b t 0) s = .next (s.long (writePair32 d ((out Fmt.f32).map (·.1))) (fl Fmt.f32)) ∧
      exec (.mrd d b t 1) s = .next (s.long [.v d (ofLanes 16 ((out Fmt.bf16).map (·.1)))] (fl Fmt.bf16)) ∧
      exec (.mrd d b t 2) s = .next (s.long [.v d (ofLanes 16 ((out Fmt.f16).map (·.1)))] (fl Fmt.f16)) ∧
      ∀ g, exec (.mrdq d b t g) s =
        .next (s.long [.v d (ofLanes 8 (writeContainer g (quantise g ((out Fmt.f32).map (·.1)))))] (fl Fmt.f32))) ∧
    exec (.mstat d t) s = .next (s.long [.s d (BitVec.ofNat 64 ((z.anchor % 4096).toNat +
      2 ^ 16 * (if z.els.any (fun e => e.2.ov) then 1 else 0) +
      2 ^ 17 * (if z.els.any (fun e => e.2.nan) then 1 else 0)))]) ∧
    exec (.mcons d) s = .next (s.long [.s d (BitVec.ofNat 64 s.myCore.consumed)])

/-- What the marker makes of the accumulator tiles (R171, R172, R218, R220): it applies the changes of its window's long results
in program order; `mzero` leaves the anchor and clears every element; `mwr` puts sixteen lanes into a quarter row; a product
adds its four blocks to every element, each addend rounded to a multiple of the anchor's power of two, half to even, and the
sum clamped to 56 bits with OV; a NaN block sets the NaN flag and adds nothing. -/
def Obligations.TilesChangeAtTheMarker : Prop :=
  (∀ (s : State) (next : Nat), oldestFault s.me.longs = none →
    let u := s.marker next
    let ops := s.me.longs.flatMap (fun r => r.tiles)
    u.myCore.za0 = (ops.filter (fun o => o.tile == 0)).foldl Tile.apply s.myCore.za0 ∧
    u.myCore.za1 = (ops.filter (fun o => o.tile != 0)).foldl Tile.apply s.myCore.za1 ∧
    u.myCore.products = s.myCore.products ∧ u.me.longs = []) ∧
  (∀ (z : Tile) (t : Nat) (f : Int), (z.apply (.zero t f)).anchor = f ∧
    ∀ i, Store.get ({} : Elem) (z.apply (.zero t f)).els i = {}) ∧
  (∀ (z : Tile) (t r q : Nat) (l : List Nat), l.length = 16 →
    let y := z.apply (.put t r q l)
    y.anchor = z.anchor ∧
    (∀ k, k < 16 → Store.get ({} : Elem) y.els (64 * r + 16 * q + k) =
      { a := BitVec.ofNat 56 (nth l k), nan := (nth l k).testBit 57, ov := (nth l k).testBit 56 }) ∧
    ∀ i, (i < 64 * r + 16 * q ∨ 64 * r + 16 * q + 16 ≤ i) → Store.get ({} : Elem) y.els i = Store.get {} z.els i) ∧
  (∀ (z : Tile) (t fa fb : Nat) (k : Int) (rows cols : List Segment),
    let y := z.apply (.product t fa fb k rows cols)
    y.anchor = z.anchor ∧ ∀ i j, i < 64 → j < 64 →
      let x := rows.getD i ⟨[], []⟩
      let c := cols.getD j ⟨[], []⟩
      let add := fun (e : Elem) (b : Nat) =>
        if nth x.es b = 255 ∨ nth c.es b = 255 then { e with nan := true }
        else
          let p := ((List.range 16).map (fun m => x.ms.getD (16 * b + m) 0 * c.ms.getD (16 * b + m) 0)).sum
          let v := e.a.toInt + rneShift p ((nth x.es b : Int) + nth c.es b + k - z.anchor)
          if v < -2 ^ 55 then { e with a := BitVec.ofInt 56 (-2 ^ 55), ov := true }
          else if 2 ^ 55 ≤ v then { e with a := BitVec.ofInt 56 (2 ^ 55 - 1), ov := true }
          else { e with a := BitVec.ofInt 56 v }
      Store.get ({} : Elem) y.els (64 * i + j) = add (add (add (add (Store.get {} z.els (64 * i + j)) 0) 1) 2) 3) ∧
  ∀ (x n : Int), (0 ≤ n → rneShift x n = x * 2 ^ n.toNat) ∧
    (n < 0 → let m : Int := 2 ^ (-n).toNat
      let d := (rneShift x n * m - x).natAbs
      2 * d ≤ m.natAbs ∧ (2 * d = m.natAbs → rneShift x n % 2 = 0))

/-- What the marker does with the window's results and faults (R30, R31, R33, R82, R385). -/
def Obligations.MarkerWritesAndDelivers : Prop :=
  LongResultsWaitForTheMarker ∧ MarkerWritesResultsInProgramOrder ∧ MarkerDeliversTheOldestFault ∧ OldestFaultIsFirstInProgramOrder

/-- Comparisons, conversions and moves of floating-point registers (R85, R86, R88, R89). -/
def Obligations.FpCompareConvertAndMove : Prop :=
  FpCompareAndConvertResults ∧ FpBitMoves

/-! ### Memory (R105 to R140) -/

/-- The apertures (R105, R106): where each selector's address points for a hart, up to the last byte of its range; every
other address is refused. -/
def Obligations.ApertureMap : Prop :=
  ∀ (s : State) (k : Nat),
    let core := k / 8
    (∀ x, x < 2 ^ 55 → s.resolve k x = some (.virtual_ x)) ∧
    (∀ x, 2 ^ 55 ≤ x → x < 2 ^ 56 → s.resolve k x = none) ∧
    (∀ x, x < 2 ^ 19 → s.resolve k (0xF0 * 2 ^ 56 + x) = some (.scratch (placeLocal core x) (2 ^ 19 - x))) ∧
    (∀ x, x < 2 ^ 23 → s.resolve k (0xF1 * 2 ^ 56 + x) = some (.scratch (placeCluster (core / 16) x) (2 ^ 23 - x))) ∧
    (∀ x, x < 0x6000000 → s.resolve k (0xF2 * 2 ^ 56 + x) = some (.scratch (placeDie (core / 384) x) (0x6000000 - x))) ∧
    (∀ x, x < s.stackBytes k → x < 2 ^ 56 → s.resolve k (0xF3 * 2 ^ 56 + x) =
      some (.scratch (placeLocal core (0x80000 - (k % 8 + 1) * s.stackBytes k + x)) (s.stackBytes k - x))) ∧
    (∀ c x, c < 1536 → x < 2 ^ 19 →
      s.resolve k (0xF4 * 2 ^ 56 + c * 2 ^ 19 + x) = some (.scratch (placeLocal c x) (2 ^ 19 - x))) ∧
    (∀ c x, c < 96 → x < 2 ^ 23 →
      s.resolve k (0xF5 * 2 ^ 56 + c * 2 ^ 23 + x) = some (.scratch (placeCluster c x) (2 ^ 23 - x))) ∧
    (∀ d x, d < 4 → x < 0x6000000 →
      s.resolve k (0xF6 * 2 ^ 56 + d * 2 ^ 27 + x) = some (.scratch (placeDie d x) (0x6000000 - x))) ∧
    (∀ x, 2 ^ 19 ≤ x → x < 2 ^ 56 → s.resolve k (0xF0 * 2 ^ 56 + x) = none) ∧
    (∀ x, 2 ^ 23 ≤ x → x < 2 ^ 56 → s.resolve k (0xF1 * 2 ^ 56 + x) = none) ∧
    (∀ x, 0x6000000 ≤ x → x < 2 ^ 56 → s.resolve k (0xF2 * 2 ^ 56 + x) = none) ∧
    (∀ x, s.stackBytes k ≤ x → x < 2 ^ 56 → s.resolve k (0xF3 * 2 ^ 56 + x) = none) ∧
    (∀ x, 1536 * 2 ^ 19 ≤ x → x < 2 ^ 56 → s.resolve k (0xF4 * 2 ^ 56 + x) = none) ∧
    (∀ x, 96 * 2 ^ 23 ≤ x → x < 2 ^ 56 → s.resolve k (0xF5 * 2 ^ 56 + x) = none) ∧
    (∀ x, 4 * 2 ^ 27 ≤ x → x < 2 ^ 56 → s.resolve k (0xF6 * 2 ^ 56 + x) = none) ∧
    (∀ d x, d < 4 → 0x6000000 ≤ x → x < 2 ^ 27 → s.resolve k (0xF6 * 2 ^ 56 + d * 2 ^ 27 + x) = none) ∧
    ∀ g x, g < 256 → g ≠ 0 → (g < 0xF0 ∨ 0xF6 < g) → x < 2 ^ 56 → s.resolve k (g * 2 ^ 56 + x) = none

namespace Sys2Proof

/-- The checks of an access in their order (R127, R106): the first that fails decides the fault, with the first byte's
address as its TVAL; a scratchpad access that passes touches exactly its own bytes. -/
def AccessChecksInOrder : Prop :=
  ∀ (s : State) (w : Who) (f : Form) (a n align : Nat), 0 < n →
    (a % align ≠ 0 → s.check w f a n align = .error (.trap 0x04 a)) ∧
    (a % align = 0 → s.resolve w.hart a = none → s.check w f a n align = .error (.trap 0x03 a)) ∧
    (∀ p left, a % align = 0 → s.resolve w.hart a = some (.scratch p left) → w.scratch = true →
      (left < n → s.check w f a n align = .error (.trap 0x03 a)) ∧
      (n ≤ left → w.user = true → s.rangeRight w f.writes p n = false → s.check w f a n align = .error (.trap 0x07 a)) ∧
      (n ≤ left → w.user = false → s.check w f a n align = .ok (s, [⟨p, n, 0⟩])) ∧
      (n ≤ left → w.user = true → s.rangeRight w f.writes p n = true →
        s.check w f a n align = .ok (s, [⟨p, n, 0⟩]))) ∧
    ∀ va, a % align = 0 → s.resolve w.hart a = some (.virtual_ va) →
      (2 ^ 55 < va + n → s.check w f a n align = .error (.trap 0x03 a)) ∧
      (va + n ≤ 2 ^ 55 → (∀ l, w.leases = some l → leaseCovers l f.reads f.leaseWrites (f == .fetch) va n = true) →
        s.check w f a n align = s.chunks w f a (pagePieces va n)) ∧
      ∀ l, va + n ≤ 2 ^ 55 → w.leases = some l → leaseCovers l f.reads f.leaseWrites (f == .fetch) va n = false →
        s.check w f a n align = .error (.trap 0x05 a)

/-- What the page's entry permits (R127 checks 4 and 5, R131), for one page: no translation is 0x06; a missing right, or a
type that does not take the form, is 0x07; an entry of a normal page that grants the access gives the place. Over two pages,
a missing translation of the second comes before a missing right of the first. -/
def PageEntryChecks : Prop :=
  ∀ (s t : State) (w : Who) (f : Form) (va n tval e : Nat) (large : Bool),
    (s.translate (w.hart / 8) w.asid va f.writes = .ok (t, none) →
      s.chunks w f tval [(va, n)] = .error (.trap 0x06 tval)) ∧
    (s.translate (w.hart / 8) w.asid va f.writes = .ok (t, some (e, large)) →
      (((f.reads = true ∧ bit e 1 = false) ∨ (f.writes = true ∧ bit e 2 = false) ∨ (f = .fetch ∧ bit e 3 = false) ∨
          f.accepted (bits e 9 2) = false) → s.chunks w f tval [(va, n)] = .error (.trap 0x07 tval)) ∧
      ((f.reads = true → bit e 1 = true) → (f.writes = true → bit e 2 = true) → (f = .fetch → bit e 3 = true) →
        bits e 9 2 = 0 → (f.atomic = true → bits e 6 3 < 4) → t.pageWaits (leafPlace e va large) = false →
        s.chunks w f tval [(va, n)] = .ok (t, [⟨leafPlace e va large, n, e⟩]))) ∧
    ∀ (u : State) (vb m : Nat), s.translate (w.hart / 8) w.asid va f.writes = .ok (t, some (e, large)) →
      t.translate (w.hart / 8) w.asid vb f.writes = .ok (u, none) →
      s.chunks w f tval [(va, n), (vb, m)] = .error (.trap 0x06 tval)

end Sys2Proof

/-- Loads from the own core's local memory in supervisor mode (R134, R136, R138, R139, R145): each is a long result with the
value of its bytes, little-endian, zero- or sign-extended; inactive lanes and lanes out of bounds read zero; m7 takes the
lanes out of bounds; nothing but the return buffer changes, whose entry names the addresses that were read. -/
def Obligations.LocalLoadResults : Prop :=
  ∀ (s : State), s.Calm →
    let at_ := fun (low n : Nat) => s.readAt (placeLocal s.coreNo low) n
    (∀ (d b z : Nat) (o : Int) (low : Nat), z ≤ 3 → OwnLocal (baseOffset (s.rs b) o (2 ^ z)) (2 ^ z) (2 ^ z) low →
      exec (.ld d b z o) s = .next (s.longFrom [ownLocal low] [.s d (BitVec.ofNat 64 (at_ low (2 ^ z)))]) ∧
      exec (.ldSigned d b z o) s =
        .next (s.longFrom [ownLocal low] [.s d ((BitVec.ofNat (8 * 2 ^ z) (at_ low (2 ^ z))).signExtend 64)])) ∧
    (∀ (d b : Nat) (o : Int) (low : Nat), OwnLocal (baseOffset (s.rs b) o 4) 4 4 low →
      exec (.fld d b 0 o) s = .next (s.longFrom [ownLocal low] [.f d (BitVec.ofNat 64 (at_ low 4))])) ∧
    (∀ (d b : Nat) (o : Int) (low : Nat), OwnLocal (baseOffset (s.rs b) o 8) 8 8 low →
      exec (.fld d b 1 o) s = .next (s.longFrom [ownLocal low] [.f d (BitVec.ofNat 64 (at_ low 8))])) ∧
    (∀ (d b : Nat) (o : Int) (low : Nat), OwnLocal (baseOffset (s.rs b) o 128) 128 8 low →
      exec (.vld d b o) s = .next (s.longFrom [ownLocal low] [.v d (BitVec.ofNat 1024 (at_ low 128))])) ∧
    (∀ (d a sc z low : Nat), z ≤ 3 → OwnLocal (s.rs a) (2 ^ z) (2 ^ z) low →
      exec (.ldaq d a sc z) s = .next (s.longFrom [ownLocal low] [.s d (BitVec.ofNat 64 (at_ low (2 ^ z)))])) ∧
    (∀ (d a b k : Nat) (low : Nat → Nat),
      (∀ i, i < 32 → (s.me.readM k).getLsbD i = true →
        OwnLocal (s.me.readS a + BitVec.ofNat 64 i * s.me.readS b).toNat 4 4 (low i)) →
      ∃ (src : List Nat) (r : VReg), exec (.vlds d a b k) s = .next (s.longFrom src [.v d r]) ∧ ∀ i, i < 32 →
        lane 32 r i = if (s.me.readM k).getLsbD i then BitVec.ofNat 32 (at_ (low i) 4) else 0) ∧
    (∀ (d a b k low : Nat), OwnLocal (s.rs a) 8192 128 low → s.rs b ≤ 62 → s.rs b % 2 = 0 →
      let w := fun (r : Nat) => if (s.me.readM k).getLsbD r then
        at_ (low + 128 * r + 4 * (s.rs b / 2 ^^^ (r / 4 % 16 * 2))) 4 else 0
      ∃ (src : List Nat) (lo hi : VReg), exec (.tldx d a b k) s = .next (s.longFrom src [.v d lo, .v (d + 1) hi]) ∧
        ∀ r, r < 64 → lane 16 lo r = BitVec.ofNat 16 (w r) ∧ lane 16 hi r = BitVec.ofNat 16 (w r / 2 ^ 16)) ∧
    ∀ (wide : Bool) (d a b c chk : Nat) (low : Nat → Nat), chk ≤ 1 →
      let e := if wide then 8 else 4
      let n := 8 * e
      let idx := fun i => (lane n (s.rv b) i).toNat
      let run := if wide then exec (.vgatherD d a b c chk) s else exec (.vgatherW d a b c chk) s
      (∀ i, i < 1024 / n → idx i < s.rs c → OwnLocal ((s.rs a + e * idx i) % 2 ^ 64) e e (low i)) →
      (chk = 1 → ∀ i, i < 1024 / n → idx i < s.rs c) →
      ∃ (src : List Nat) (r : VReg) (m : MReg),
        run = .next (s.longFrom src (.v d r :: if chk = 0 then [.m 7 m] else [])) ∧
        (∀ i, i < 1024 / n → lane n r i = if idx i < s.rs c then BitVec.ofNat n (at_ (low i) e) else 0) ∧
        ∀ i, i < 128 → m.getLsbD i = (decide (i < 1024 / n) && decide (s.rs c ≤ idx i))

/-- Stores to the own core's local memory in supervisor mode (R134, R136, R137, R139, R145): the stored bytes take the low
bytes of the source, little-endian, later lanes over earlier ones; every other byte of memory is unchanged, and nothing
but memory changes (a scatter without `.chk` also enters its m7 result). `strl` leaves as a release, for which its hart does
not wait, and which performs at its home once nothing earlier is under way. -/
def Obligations.LocalStoreResults : Prop :=
  ∀ (s : State), s.Calm →
    let home := fun (low : Nat) => placeLocal s.coreNo low
    let stored := fun (o : Host.Outcome State Fault Refusal) (low n x : Nat) =>
      ∃ t : State, o = .next t ∧ OnlyMemory s t ∧ t.readAt (home low) n = x % 2 ^ (8 * n) ∧ s.SameMemoryBut t (home low) n
    (∀ (d b z : Nat) (o : Int) (low : Nat), z ≤ 3 → OwnLocal (baseOffset (s.rs b) o (2 ^ z)) (2 ^ z) (2 ^ z) low →
      stored (exec (.st d b z o) s) low (2 ^ z) (s.rs d)) ∧
    (∀ (d b : Nat) (o : Int) (low : Nat), OwnLocal (baseOffset (s.rs b) o 4) 4 4 low →
      stored (exec (.fst d b 0 o) s) low 4 (s.rf d)) ∧
    (∀ (d b : Nat) (o : Int) (low : Nat), OwnLocal (baseOffset (s.rs b) o 8) 8 8 low →
      stored (exec (.fst d b 1 o) s) low 8 (s.rf d)) ∧
    (∀ (d b : Nat) (o : Int) (low : Nat), OwnLocal (baseOffset (s.rs b) o 128) 128 8 low →
      stored (exec (.vst d b o) s) low 128 (s.rv d).toNat) ∧
    (∀ (a b sc z low : Nat), z ≤ 3 → OwnLocal (s.rs a) (2 ^ z) (2 ^ z) low → s.ReleasesFreely → s.hub.agist = [] →
      ∃ (u : State) (p : PendingStore), exec (.strl a b sc z) s = .next u ∧ u.mem = s.mem ∧ u.stores = s.stores ++ [p] ∧
        p.hart = s.hart ∧ p.place = home low ∧ p.data = bytesOf (2 ^ z) (s.rs b) ∧
        p.release = some { scope := sc, waddr := s.wordAddr, id := s.me.nextLong } ∧
        ∃ t : State, exec .storePerformsAtHome { u with ev := { idx := s.stores.length } } = .next t ∧
          t.stores = s.stores ∧ t.readAt (home low) (2 ^ z) = s.rs b % 2 ^ (8 * 2 ^ z) ∧
          s.SameMemoryBut t (home low) (2 ^ z)) ∧
    (∀ (d a b k : Nat) (low : Nat → Nat),
      (∀ i, i < 32 → (s.me.readM k).getLsbD i = true →
        OwnLocal (s.me.readS a + BitVec.ofNat 64 i * s.me.readS b).toNat 4 4 (low i)) →
      ∃ t : State, exec (.vsts d a b k) s = .next t ∧ OnlyMemory s t ∧
        LanesStored s t 32 4 (fun i => if (s.me.readM k).getLsbD i then some (home (low i)) else none)
          (fun i => (lane 32 (s.rv d) i).toNat)) ∧
    (∀ (d a k low : Nat), OwnLocal (s.rs a) 128 8 low →
      ∃ t : State, exec (.vstm d a k) s = .next t ∧ OnlyMemory s t ∧
        LanesStored s t 128 1 (fun i => if (s.me.readM k).getLsbD i then some (home low + i) else none)
          (fun i => (lane 8 (s.rv d) i).toNat)) ∧
    ∀ (wide : Bool) (d a b c chk : Nat) (low : Nat → Nat), chk ≤ 1 →
      let e := if wide then 8 else 4
      let n := 8 * e
      let idx := fun i => (lane n (s.rv b) i).toNat
      let run := if wide then exec (.vscatterD d a b c chk) s else exec (.vscatterW d a b c chk) s
      (∀ i, i < 1024 / n → idx i < s.rs c → OwnLocal ((s.rs a + e * idx i) % 2 ^ 64) e e (low i)) →
      (chk = 1 → ∀ i, i < 1024 / n → idx i < s.rs c) →
      ∃ (t : State) (m : MReg), run = .next (if chk = 0 then t.long [.m 7 m] else t) ∧ OnlyMemory s t ∧
        LanesStored s t (1024 / n) e (fun i => if idx i < s.rs c then some (home (low i)) else none)
          (fun i => (lane n (s.rv d) i).toNat) ∧
        ∀ i, i < 128 → m.getLsbD i = (decide (i < 1024 / n) && decide (s.rs c ≤ idx i))

namespace Sys2Proof

/-- A load's fault waits for the marker, a store's is taken at once (R128): a misaligned scalar or vector load defers 0x04
with its address and changes nothing else; a misaligned store takes the trap before any byte is written; an index out of
bounds is 0x08 in the same two ways, with the index and the lane as its TVAL (R139). -/
def LoadFaultsWaitAndStoreFaultsDoNot : Prop :=
  ∀ (s : State), s.Calm →
    (∀ (d b z : Nat) (o : Int), let a := baseOffset (s.rs b) o (2 ^ z)
      a % 2 ^ z ≠ 0 →
      exec (.ld d b z o) s = .next (s.deferFault 0x04 a) ∧ exec (.ldSigned d b z o) s = .next (s.deferFault 0x04 a) ∧
      exec (.st d b z o) s = trapOutcome s (s.takeTrap 0x04 a)) ∧
    (∀ (d b : Nat) (o : Int), let a := baseOffset (s.rs b) o 128
      a % 8 ≠ 0 →
      exec (.vld d b o) s = .next (s.deferFault 0x04 a) ∧ exec (.vst d b o) s = trapOutcome s (s.takeTrap 0x04 a)) ∧
    (∀ (d a b k : Nat), s.rs a % 128 ≠ 0 → exec (.tldx d a b k) s = .next (s.deferFault 0x04 (s.rs a))) ∧
    (∀ (d a b k : Nat), s.rs a % 128 = 0 → (62 < s.rs b ∨ s.rs b % 2 = 1) →
      exec (.tldx d a b k) s = .next (s.deferFault 0x08 (s.rs b))) ∧
    ∀ (d a b c j : Nat), j < 32 → s.rs c ≤ (lane 32 (s.rv b) j).toNat →
      (∀ i, i < j → (lane 32 (s.rv b) i).toNat < s.rs c) →
      let v := (lane 32 (s.rv b) j).toNat * 2 ^ 32 + j
      exec (.vgatherW d a b c 1) s = .next (s.deferFault 0x08 v) ∧
      exec (.vscatterW d a b c 1) s = trapOutcome s (s.takeTrap 0x08 v)

/-- A load comes after the hart's own stores to its bytes, and reads every byte at its home (R133, R256): before it reads,
the hart's one pending store to bytes of its place performs, and no other store does; one whose bytes it does not touch stays
on its way; and the bytes that it reads are those that stand in memory, whatever else is on its way. -/
def LoadsSeeOwnStores : Prop :=
  (∀ (s : State) (k : Nat) (c : Chunk) (l m : List PendingStore) (t : PendingStore), s.stores = l ++ t :: m →
    (∀ x ∈ l ++ m, x.hart ≠ k) → t.hart = k → t.release = none → t.skip = [] → s.hub.agist = [] →
    isScratch t.place = true → c.leaf = 0 → isScratch c.place = true → t.place < c.place + c.n →
    c.place < t.place + t.data.length →
    s.ownFirst k [c] = .ok (State.perform { s with stores := l ++ m } t.place t.data)) ∧
  (∀ (s : State) (k : Nat) (c : Chunk), c.leaf = 0 → isScratch c.place = true →
    (∀ t ∈ s.stores, t.hart = k → t.place + t.data.length ≤ c.place ∨ c.place + c.n ≤ t.place) →
    s.ownFirst k [c] = .ok s) ∧
  ∀ (s : State) (c : Chunk), c.leaf = 0 → s.readChunk c = .ok (s.bytesAt c.place c.n)

end Sys2Proof

/-- The checks of an access and of the page it touches (R106, R127, R131). -/
def Obligations.AccessChecks : Prop :=
  AccessChecksInOrder ∧ PageEntryChecks

/-- When the faults of loads and stores are taken, and that a load sees the hart's own stores (R128, R133, R139). -/
def Obligations.FaultsAndOwnStores : Prop :=
  LoadFaultsWaitAndStoreFaultsDoNot ∧ LoadsSeeOwnStores

/-! ### Atomics and ordering (R141 to R146, R256 to R275) -/

/-- The new value of every atomic operation (R142), in words of the access size: modular sum, bitwise, signed and unsigned
minimum and maximum, and exchange; `fadd.w` is the FP32 sum rounded half to even. -/
def Obligations.AtomicNewValues : Prop :=
  ∀ (n : Nat), n = 4 ∨ n = 8 → ∀ (old x : BitVec (8 * n)),
    atomicNew 0 n old.toNat x.toNat = (old + x).toNat ∧ atomicNew 1 n old.toNat x.toNat = (old &&& x).toNat ∧
    atomicNew 2 n old.toNat x.toNat = (old ||| x).toNat ∧ atomicNew 3 n old.toNat x.toNat = (old ^^^ x).toNat ∧
    atomicNew 4 n old.toNat x.toNat = (if old.sle x then old else x).toNat ∧
    atomicNew 5 n old.toNat x.toNat = (if old.sle x then x else old).toNat ∧
    atomicNew 6 n old.toNat x.toNat = (if old.ule x then old else x).toNat ∧
    atomicNew 7 n old.toNat x.toNat = (if old.ule x then x else old).toNat ∧
    atomicNew 8 n old.toNat x.toNat = x.toNat ∧
    (n = 4 → atomicNew 9 n old.toNat x.toNat = (fpAdd Fmt.f32 .rne old.toNat x.toNat).1)

namespace Sys2Proof

/-- Atomics and reductions on the own core's local memory leave for the unit that executes them (R141 to R144): a returning
one takes an entry of the return buffer that waits for it, a reduction takes none and counts; memory and registers stand
until the unit executes it. A returning release first lets everything earlier perform; a reduction that is a release goes on
its way as one, and its hart does not wait (R145). -/
def AtomicsLeaveForTheirUnit : Prop :=
  ∀ (s : State), s.Calm →
    let sent := fun (t : PendingAtomic) =>
      let q : PendingAtomic := { t with
        hart := s.hart, slot := s.me.slot, flock := s.me.flock, pc := s.me.pc, pkg := s.hub.pkg, owner := .hart s.hart,
        since := s.cycle, user := false }
      let u := s.pushLong { id := 0, waddr := 0, queued := true }
      (Host.Outcome.next { u with atomics := s.atomics ++ [q] } : Host.Outcome State Fault Refusal)
    let id := some s.me.nextLong
    (∀ (d a b o z sc r low : Nat), z ≤ 1 → r ≤ 1 → (r = 1 → s.ReleasesFreely) →
      let n := if z = 0 then 4 else 8
      OwnLocal (s.rs a) n n low →
      let t : PendingAtomic :=
        { hart := 0, long := id, op := o, size := n, place := placeLocal s.coreNo low, va := s.rs a,
          operands := [s.rs b], kind := 0, d := d, acq := r == 1 }
      exec (.amo d a b o z sc r) s = sent t) ∧
    (∀ (d a b sc low : Nat), OwnLocal (s.rs a) 4 4 low →
      let t : PendingAtomic :=
        { hart := 0, long := id, op := 0, size := 4, place := placeLocal s.coreNo low, va := s.rs a,
          operands := [s.rs d % 2 ^ 32, s.rs b], kind := 1, d := d }
      exec (.casW d a b sc) s = sent t) ∧
    (∀ (d a b sc low : Nat), OwnLocal (s.rs a) 8 8 low →
      let t : PendingAtomic :=
        { hart := 0, long := id, op := 0, size := 8, place := placeLocal s.coreNo low, va := s.rs a,
          operands := [s.rs d % 2 ^ 64, s.rs b], kind := 1, d := d }
      exec (.casD d a b sc) s = sent t) ∧
    (∀ (d a b sc low : Nat), OwnLocal (s.rs a) 16 16 low →
      let t : PendingAtomic :=
        { hart := 0, long := id, op := 0, size := 16, place := placeLocal s.coreNo low, va := s.rs a,
          operands := [s.rs d, s.rs (d + 1), s.rs b, s.rs (b + 1)], kind := 2, d := d }
      exec (.cas2D d a b sc) s = sent t) ∧
    ∀ (a b o z sc r low : Nat), z ≤ 1 → r ≤ 1 → (r = 1 → s.ReleasesFreely) →
      let n := if z = 0 then 4 else 8
      OwnLocal (s.rs a) n n low →
      let t : PendingAtomic :=
        { hart := s.hart, long := none, op := o, size := n, place := placeLocal s.coreNo low, va := s.rs a,
          operands := [s.rs b], kind := 0, d := 0, progress := 3 * 2 ^ 60 + (s.me.reds + 1) % 2 ^ 60,
          slot := s.me.slot, flock := s.me.flock, pc := s.me.pc, pkg := s.hub.pkg, owner := .hart s.hart, since := s.cycle,
          user := false,
          release := if r = 1 then some { scope := sc, waddr := s.wordAddr, id := s.me.nextLong } else none }
      let u := s.setMe { s.me with reds := s.me.reds + 1, nextLong := s.me.nextLong + r }
      exec (.red a b o z sc r) s = .next { u with atomics := s.atomics ++ [t] }

/-- An atomic that has left for the unit of the own core's local memory is executed there (R141 to R144, R160): `exec` of the
instruction and then of ATOMIC_EXECUTE answer the state in which the word holds the operation's new value, every other byte
is as before, and the old value has come back as the long result of s[d] (of s[d] and s[d+1] for `cas2.d`); a reduction
returns nothing. The results are the instruction's own; that its unit acts next is one allowed order. -/
def AtomicsComplete : Prop :=
  ∀ (s : State), s.Calm → s.Alone → s.hub.agist = [] → (∀ r ∈ s.me.longs, r.id ≠ s.me.nextLong) →
    let done := fun (i : Instr) (low n new : Nat) (w : List LongRes) =>
      let p := placeLocal s.coreNo low
      ∃ u v : State, exec i s = .next u ∧
        exec .atomicExecute { u with ev := { idx := s.atomics.length } } = .next v ∧
        v.readAt p n = new % 2 ^ (8 * n) ∧ s.SameMemoryBut v p n ∧ v.atomics = s.atomics ∧ v.stores = s.stores ∧
        v.me.longs = s.me.longs ++ w ∧ v.me.s = s.me.s ∧ v.me.f = s.me.f ∧ v.me.v = s.me.v ∧ v.me.m = s.me.m
    let gives := fun (w : List RegWrite) => [({ id := s.me.nextLong, waddr := s.wordAddr, writes := w } : LongRes)]
    let old := fun (low n : Nat) => s.readAt (placeLocal s.coreNo low) n
    let at1 := fun (d low n : Nat) => gives [.s d (BitVec.ofNat 64 (old low n))]
    (∀ (d a b o z sc r low : Nat), z ≤ 1 → r ≤ 1 → (r = 1 → s.ReleasesFreely) →
      let n := if z = 0 then 4 else 8
      OwnLocal (s.rs a) n n low →
      done (.amo d a b o z sc r) low n (atomicNew o n (old low n) (s.rs b)) (at1 d low n)) ∧
    (∀ (d a b sc low : Nat), OwnLocal (s.rs a) 4 4 low →
      done (.casW d a b sc) low 4 (if old low 4 = s.rs d % 2 ^ 32 then s.rs b else old low 4) (at1 d low 4)) ∧
    (∀ (d a b sc low : Nat), OwnLocal (s.rs a) 8 8 low →
      done (.casD d a b sc) low 8 (if old low 8 = s.rs d then s.rs b else old low 8) (at1 d low 8)) ∧
    (∀ (d a b sc low : Nat), OwnLocal (s.rs a) 16 16 low →
      let hit := old low 8 = s.rs d ∧ old (low + 8) 8 = s.rs (d + 1)
      done (.cas2D d a b sc) low 16 (if hit then s.rs b + 2 ^ 64 * s.rs (b + 1) else old low 16)
        (gives [.s d (BitVec.ofNat 64 (old low 8)), .s (d + 1) (BitVec.ofNat 64 (old (low + 8) 8))])) ∧
    ∀ (a b o z sc r low : Nat), z ≤ 1 → r ≤ 1 → (r = 1 → s.ReleasesFreely) →
      let n := if z = 0 then 4 else 8
      OwnLocal (s.rs a) n n low → done (.red a b o z sc r) low n (atomicNew o n (old low n) (s.rs b)) []

/-- Fences (R145, R274, R275): with nothing earlier under way and the hart not poisoned, a fence of any kind and scope lets the
hart go on and changes nothing; a release fence of a hart poisoned at a scope that the fence includes is not performed: it
enters the fault 0x0F for the marker, with TVAL zero, and holds the accesses that would follow it. -/
def FencesOrderAndFail : Prop :=
  (∀ (s : State) (sc : Nat), s.NothingUnderWay →
    exec (.fenceAcq sc) s = .next s ∧
    (s.ReleasesFreely → exec (.fenceRel sc) s = .next s ∧ exec (.fenceAr sc) s = .next s)) ∧
  ∀ (s : State) (sc : Nat), s.NothingUnderWay → bit s.me.tstatus 4 = true → bits s.me.tstatus 5 3 ≤ sc →
    let t := s.deferExtra 0x0F 0
    exec (.fenceRel sc) s = .next (t.setMe { t.me with releaseHeld := max s.me.releaseHeld 1 }) ∧
    exec (.fenceAr sc) s = .next (t.setMe { t.me with releaseHeld := max s.me.releaseHeld 2 })

/-- After a fence that the hart does not wait or trap at, what it orders has performed (R145, R258): after `fence.acq` no
returning atomic and no near-memory operation of the hart is on its way; after a release fence that nothing has poisoned, no
store, atomic, near-memory operation, tile move or message of the hart is, but a store or a reduction to another package that
a scope of this package lets stay on its path, and no flush is. -/
def NothingEarlierIsUnderWayAfterAFence : Prop :=
  ∀ (s t : State) (sc : Nat),
    (exec (.fenceAcq sc) s = .next t → t.me.flow = .seq →
      t.hart = s.hart ∧ (∀ a ∈ t.atomics, a.hart = s.hart → a.long = none) ∧ ∀ a ∈ t.nears, a.hart ≠ s.hart) ∧
    (∀ i : Instr, i = .fenceRel sc ∨ i = .fenceAr sc → exec i s = .next t → t.me.flow = .seq →
      t.me.releaseHeld = 0 →
      t.hart = s.hart ∧
      (∀ x ∈ t.stores, x.hart = s.hart → sc ≤ 4 ∧ t.remote x.place = true) ∧
      (∀ x ∈ t.atomics, x.hart = s.hart → x.since ≤ t.cycle → x.long = none ∧ sc ≤ 4 ∧ t.remote x.place = true) ∧
      (∀ x ∈ t.nears, x.hart = s.hart → t.cycle < x.since) ∧
      (∀ e ∈ t.cores, ∀ m ∈ e.2.moves, m.hart = s.hart → t.cycle < m.since) ∧
      (5 ≤ sc → t.me.dests = [] ∧ t.me.destOverflow = false ∧ t.flushingOf t.hart = false))

/-- Near-memory operations leave for their engine (R146): the argument block is read at issue, from the own core's local
memory; the result's entry waits for the engine, and memory stands until it executes. One to another package leaves where its
link has a credit for it (R428). -/
def NearOperationsLeaveForTheirEngine : Prop :=
  ∀ (s : State) (d a b low : Nat), s.Calm → OwnLocal (s.rs b) 64 64 low →
    (∀ p ∈ s.accessPlaces s.hart (s.rs a), s.noCredit .request p = false) →
    let sent := fun (op : Nat) =>
      let t : PendingNear :=
        { hart := s.hart, long := s.me.nextLong, op := op, addr := s.rs a,
          arg := splitLanes 64 8 (s.readAt (placeLocal s.coreNo low) 64), argPlace := placeLocal s.coreNo low, d := d,
          asid := s.me.asid, user := false, slot := s.me.slot, flock := s.me.flock, since := s.cycle }
      let u := s.pushLong { id := 0, waddr := 0, queued := true }
      (Host.Outcome.next { u with nears := s.nears ++ [t] } : Host.Outcome State Fault Refusal)
    exec (.nmcas4 d a b) s = sent 0 ∧ exec (.nmenq d a b) s = sent 1 ∧ exec (.nmchase d a b) s = sent 2

/-- A near-memory operation that has left for its engine is executed there (R146): `exec` of the instruction and then of
NEAR_MEMORY_EXECUTE answer the state with the operation's effect. `nmcas4` writes the 32 bytes where they equal the block's
first half, and puts the old ones there; `nmenq` links the node behind the tail, or as the head, and makes it the tail;
`nmchase` follows pointers and keeps the hops it made. For words in pages of this package's HBM that the core's micro-TLB
holds and the launch's ranges grant; that the engine acts next is one allowed order. -/
def NearOperationsComplete : Prop :=
  ∀ (s : State) (d a b low : Nat), s.Calm → s.Alone → s.QuietMemory → (∀ r ∈ s.me.longs, r.id ≠ s.me.nextLong) →
    OwnLocal (s.rs b) 64 64 low →
    let blk := placeLocal s.coreNo low
    let arg := fun (i : Nat) => s.readAt (blk + 8 * i) 8
    let runs := fun (i : Instr) (x : Nat) (P : State → Prop) =>
      ∃ u v : State, exec i s = .next u ∧ exec .nearMemoryExecute { u with ev := {} } = .next v ∧
        v.nears = [] ∧ v.me.longs = s.me.longs ++
          [{ id := s.me.nextLong, waddr := s.wordAddr, writes := [.s d (BitVec.ofNat 64 x)] }] ∧ v.me.s = s.me.s ∧ P v
    (∀ f : Nat, s.rs a % 32 = 0 → s.GlobalAt (s.rs a) 32 f →
      let p := placeIn f (s.rs a)
      let old := s.readAt p 32
      let hit := old = s.readAt blk 32
      runs (.nmcas4 d a b) (if hit then 1 else 0) (fun v => v.readAt blk 32 = old ∧
        v.readAt p 32 = (if hit then s.readAt (blk + 32) 32 else old) ∧
        ∀ q, (q < p ∨ p + 32 ≤ q) → (q < blk ∨ blk + 32 ≤ q) → v.byteAt q = s.byteAt q)) ∧
    (∀ f g h : Nat, s.rs a % 16 = 0 → s.GlobalAt (s.rs a) 16 f →
      let node := arg 0
      let link := arg 1
      node ≠ 0 → link % 8 = 0 → (node + link) % 8 = 0 → s.GlobalAt (node + link) 8 g →
      let p := placeIn f (s.rs a)
      let t1 := s.writeAt (placeIn g (node + link)) 8 0
      let tail := t1.readAt (p + 8) 8
      (tail ≠ 0 → (tail + link) % 8 = 0 ∧ s.GlobalAt (tail + link) 8 h) →
      let t2 := if tail = 0 then t1.writeAt p 8 node else t1.writeAt (placeIn h (tail + link)) 8 node
      runs (.nmenq d a b) tail (fun v => v.mem = (t2.writeAt (p + 8) 8 node).mem)) ∧
    (let chased := fun (x hops : Nat) => runs (.nmchase d a b) x (fun v => v.mem = (s.writeAt (blk + 40) 8 hops).mem)
     let at8 := fun (va f : Nat) => va % 8 = 0 ∧ s.GlobalAt va 8 f
     (arg 0 ≤ 4096 → (arg 0 = 0 ∨ s.rs a = 0) → (∀ p ∈ s.accessPlaces s.hart (s.rs a), s.remote p = false) →
       chased (s.rs a) 0) ∧
     (∀ f : Nat, 1 ≤ arg 0 → arg 0 ≤ 4096 → s.rs a ≠ 0 → bit (arg 4) 0 = true → at8 (s.rs a + arg 2) f →
       s.readAt (placeIn f (s.rs a + arg 2)) 8 = arg 3 → chased (s.rs a) 0) ∧
     ∀ f : Nat, arg 0 = 1 → s.rs a ≠ 0 → bit (arg 4) 0 = false → at8 (s.rs a + arg 1) f →
       chased (s.readAt (placeIn f (s.rs a + arg 1)) 8) 1)

end Sys2Proof

/-! ### The drover and the streams (R116 to R126, R147 to R158) -/

/-- Moves enter the drover's queue of sixteen (R116, R117, R148, R150, R152): the descriptor is read at issue, the ticket is
the core's number and the next sequence number, which never is 0 and comes at the marker; a full queue holds the word. That
the moves which are active count among the sixteen is the model's choice (log 79). -/
def Obligations.MovesEnterTheQueue : Prop :=
  ∀ (s : State), s.Calm →
    let c := s.myCore
    let queued := fun (d : Nat) (kind : MoveKind) (desc : List Nat) (at_ : Nat) (idx : List Nat) =>
      let m : Move :=
        { seq := c.nextSeq, kind := kind, hart := s.hart, desc := desc, descAddr := at_, idx := idx, launch := s.me.slot,
          flock := s.me.flock, asid := s.me.asid, pc := s.me.pc, owner := .hart s.hart, since := s.cycle }
      let next := if c.nextSeq = 2 ^ 32 - 1 then 1 else c.nextSeq + 1
      let u := s.setCore s.coreNo { c with moves := c.moves ++ [m], nextSeq := next }
      (Host.Outcome.next (u.long [.s d (BitVec.ofNat 64 (s.coreNo * 2 ^ 32 + c.nextSeq))]) :
        Host.Outcome State Fault Refusal)
    (∀ (d a low : Nat), OwnLocal (s.rs a) 32 8 low →
      let w := splitLanes 64 4 (s.readAt (placeLocal s.coreNo low) 32)
      (c.moves.length < 16 → exec (.tmov d a) s = queued d (.tile false) w (s.rs a) [] ∧
        exec (.tmovp d a) s = queued d (.tile true) w (s.rs a) []) ∧
      (16 ≤ c.moves.length → exec (.tmov d a) s = .next s.hold ∧ exec (.tmovp d a) s = .next s.hold)) ∧
    (∀ (d a low : Nat), OwnLocal (s.rs a) 64 64 low → c.moves.length < 16 →
      let w := splitLanes 64 8 (s.readAt (placeLocal s.coreNo low) 64)
      let idx := if bit (nth w 2) 43 then (lanes 32 (s.rv (bits (nth w 2) 38 5))).take (bits (nth w 2) 32 6) else []
      exec (.bgath d a) s = queued d .gather w (s.rs a) idx) ∧
    ∀ (d a : Nat) (l : Launch) (e : Lease), s.rs a < 2 ^ 55 → s.launchOf s.hart = some l → e ∈ l.ranges → e.r = true →
      e.base ≤ s.rs a → s.rs a < e.base + e.size → c.moves.length < 16 →
      exec (.pgin d a) s = queued d (.pageIn (s.rs a)) [] (s.rs a) []

/-- `fork`, `twait` and `dcons` (R122, R153, R154, R156): a program starts on an idle drover with s1 holding the argument and
every other register zero; a ticket of this core whose move is done lets the strand go on, one under way holds it, and one
that faulted is taken precisely; a ticket that names another core, or the sequence number 0, is a bounds fault. -/
def Obligations.DroverProgramsAndTickets : Prop :=
  (∀ (s : State) (a b : Nat), s.NothingUnderWay → s.collecting = false → s.me.releaseHeld = 0 → s.ReleasesFreely →
    s.isDrover = false → s.rs a % 8 = 0 → 0xA000 ≤ s.rs a → s.rs a ≤ 0x7FFF8 → (s.hartAt (8 * s.coreNo + 4)).occ = false →
    ∃ u : State, exec (.fork a b) s = .next u ∧ u.me = s.me ∧ u.mem = s.mem ∧
      u.myCore = { s.myCore with droverOwner := s.me.slot.map (fun n => (n, s.me.flock)) } ∧
      let p := u.hartAt (8 * s.coreNo + 4)
      p.occ = true ∧ p.pc = s.rs a ∧ p.readS 1 = s.me.readS b ∧ (∀ n, n ≠ 1 → p.readS n = 0) ∧ p.f = [] ∧ p.v = [] ∧
        p.m = [] ∧ p.sup = false ∧ p.asid = s.me.asid ∧ p.slot = s.me.slot) ∧
  (∀ (s : State) (a seq : Nat), s.coreNo < 2 ^ 11 → 0 < seq → seq < 2 ^ 32 → s.rs a = s.coreNo * 2 ^ 32 + seq →
    ((∀ m ∈ s.myCore.moves, m.seq ≠ seq) → (∀ f ∈ s.myCore.moveFaults, f.seq ≠ seq) → exec (.twait a) s = .next s) ∧
    ((∃ m ∈ s.myCore.moves, m.seq = seq) → exec (.twait a) s = .next s.hold)) ∧
  (∀ (s : State) (a seq : Nat) (f : MoveFault), s.coreNo < 2 ^ 11 → 0 < seq → seq < 2 ^ 32 → s.rs a = s.coreNo * 2 ^ 32 + seq →
    (∀ m ∈ s.myCore.moves, m.seq ≠ seq) → s.myCore.moveFaults = [f] → f.seq = seq → f.cause < 256 → s.TrapsToHandler →
    s.me.longs = [] → s.NothingUnderWay → s.myCore.products = [] →
    ∃ t : State, exec (.twait a) s = .next t ∧ t.me.tcause = f.cause ∧ t.me.tval = BitVec.ofNat 64 f.tval ∧
      t.me.tepc = s.faultAddr ∧ t.me.tresume = s.faultAddr ∧ bit t.me.tstatus 0 = true ∧ bit t.me.tstatus 2 = false ∧
      t.me.sup = true ∧ t.me.pc = s.me.tvec ∧ t.myCore.moveFaults = [] ∧ t.hub = s.hub) ∧
  (∀ (s : State) (a : Nat), (2 ^ 43 ≤ s.rs a ∨ s.rs a / 2 ^ 32 % 2 ^ 11 ≠ s.coreNo ∨ s.rs a % 2 ^ 32 = 0) →
    exec (.twait a) s = trapOutcome s (s.takeTrap 0x08 (s.rs a))) ∧
  ∀ (s : State) (d : Nat), exec (.dcons d) s = .next (s.long [.s d (BitVec.ofNat 64 s.myCore.consumed)])

/-- Stream registers (R125, R126, R157, R158): `qbind` reads its descriptor at issue; a pop takes the oldest element, into
byte 0 of the register up, and the last one leaves the stream drained; a pop of a stream whose next element has not arrived
waits; `qunbind` discards what is left; `qstat` counts. -/
def Obligations.StreamResults : Prop :=
  (∀ (s : State) (q a low : Nat), s.Calm → (s.streamAt q).state = 0 → OwnLocal (s.rs a) 32 8 low →
    let w := splitLanes 64 4 (s.readAt (placeLocal s.coreNo low) 32)
    nth w 1 = 0 → 1 ≤ nth w 2 % 2 ^ 16 → 1 ≤ nth w 2 / 2 ^ 16 % 2 ^ 16 → nth w 2 / 2 ^ 16 % 2 ^ 16 ≤ 128 →
    nth w 3 < 2 ^ 32 →
    let x : Stream :=
      { state := 1, src := nth w 0, rows := nth w 2 % 2 ^ 16, rbytes := nth w 2 / 2 ^ 16 % 2 ^ 16,
        stride := nth w 2 / 2 ^ 32 % 2 ^ 32, pc := s.me.pc, asid := s.me.asid, user := false }
    exec (.qbind q a) s = .next (s.setStream q x)) ∧
  (∀ (s : State) (q : Nat), (s.streamAt q).state ≠ 0 → exec (.qunbind q) s = .next (s.setStream q {})) ∧
  (∀ (s : State) (d q : Nat) (l : List Nat) (t : List (List Nat × Option (Nat × Nat))), (s.streamAt q).state = 1 →
    (s.streamAt q).elems = (l, none) :: t →
    let x := s.streamAt q
    let y : Stream :=
      { x with elems := t, popped := x.popped + 1, state := if x.popped + 1 = x.rows then 2 else 1 }
    let u := s.setStream q y
    exec (.vpop d q) s = .next (u.setMe (u.me.applyWrite (.v d (BitVec.ofNat 1024 (ofBytes l))))) ∧
    exec (.spop d q) s = .next (u.setMe (u.me.writeS d (BitVec.ofNat 64 (ofBytes (l.take 8)))))) ∧
  (∀ (s : State) (d q : Nat), (s.streamAt q).state = 1 → (s.streamAt q).elems = [] →
    exec (.vpop d q) s = .next s.hold ∧ exec (.spop d q) s = .next s.hold) ∧
  ∀ (s : State) (d q : Nat), (s.streamAt q).state ≠ 0 →
    let x := s.streamAt q
    let flt := match x.elems with
      | (_, some _) :: _ => 1
      | _ => 0
    exec (.qstat d q) s = .next (s.long [.s d (BitVec.ofNat 64 (x.popped * 2 ^ 16 + flt * 2 ^ 9 +
      (if x.state = 2 then 2 ^ 8 else 0) + (x.elems.filter (fun e => e.2.isNone)).length))])

/-- Atomics, reductions and near-memory operations leave for the units that execute them (R141 to R146). -/
def Obligations.AtomicsAndNearOperations : Prop :=
  AtomicsLeaveForTheirUnit ∧ AtomicsComplete ∧ NearOperationsLeaveForTheirEngine ∧ NearOperationsComplete

/-- What fences do and what stands after them (R145, R275). -/
def Obligations.FencesOrder : Prop :=
  FencesOrderAndFail ∧ NothingEarlierIsUnderWayAfterAFence

namespace Sys2Proof

/-! ### Control (R90 to R104) -/

/-- Transfers (R90 to R93, R122): a taken one sets the next bundle to its target and nothing else; `call` writes the link to
s30 and `jrl` to its register, after the target is read; a branch whose relation does not hold changes nothing, whatever
its target. For a strand, with targets that R90 accepts. -/
def TransfersGoToTheirTargets : Prop :=
  ∀ (s : State), s.isDrover = false →
    let at_ := fun (o : Int) => ((s.me.pc + 8 * o) % 2 ^ 64).toNat
    let go := fun (t : Nat) => s.setMe { s.me with npc := t, flow := .taken }
    let link : Word := BitVec.ofNat 64 (s.me.pc + 8)
    (∀ o : Int, at_ o < 2 ^ 55 → exec (.br o) s = .next (go (at_ o)) ∧
      exec (.call o) s = .next ((go (at_ o)).setMe ((go (at_ o)).me.writeS 30 link))) ∧
    (∀ a : Nat, s.rs a < 2 ^ 55 → s.rs a % 8 = 0 → exec (.jr a) s = .next (go (s.rs a)) ∧
      ∀ d : Nat, exec (.jrl d a) s = .next ((go (s.rs a)).setMe ((go (s.rs a)).me.writeS d link))) ∧
    ∀ (a b : Nat) (o : Int),
      let x : Word := s.me.readS a
      let y : Word := s.me.readS b
      let step := fun (c : Bool) (i : Instr) =>
        (c = false → exec i s = .next s) ∧ (c = true → at_ o < 2 ^ 55 → exec i s = .next (go (at_ o)))
      step (x == y) (.beq a b o) ∧ step (x != y) (.bne a b o) ∧ step (x.slt y) (.blt a b o) ∧
      step (y.sle x) (.bge a b o) ∧ step (x.ult y) (.bltn a b o) ∧ step (y.ule x) (.bgen a b o)

/-- Targets that R90, R93 and R122 refuse: the word takes the trap, with the target as TVAL, and no link is written. A
strand's target must be below 2^55, and one in a register a multiple of 8, which is checked first; a drover program's must
be a multiple of 8 from 0xA000 to 0x7FFF8. -/
def BadTargetsTrap : Prop :=
  ∀ (s : State),
    let at_ := fun (o : Int) => ((s.me.pc + 8 * o) % 2 ^ 64).toNat
    let trap := fun (c v : Nat) => trapOutcome s (s.takeTrap c v)
    (s.isDrover = false →
      (∀ o : Int, 2 ^ 55 ≤ at_ o → exec (.br o) s = trap 0x03 (at_ o) ∧ exec (.call o) s = trap 0x03 (at_ o) ∧
        ∀ a : Nat, exec (.beq a a o) s = trap 0x03 (at_ o)) ∧
      (∀ d a : Nat, s.rs a % 8 ≠ 0 → exec (.jr a) s = trap 0x04 (s.rs a) ∧ exec (.jrl d a) s = trap 0x04 (s.rs a)) ∧
      ∀ d a : Nat, s.rs a % 8 = 0 → 2 ^ 55 ≤ s.rs a →
        exec (.jr a) s = trap 0x03 (s.rs a) ∧ exec (.jrl d a) s = trap 0x03 (s.rs a)) ∧
    (s.isDrover = true →
      (∀ a : Nat, s.rs a % 8 ≠ 0 → exec (.jr a) s = trap 0x04 (s.rs a)) ∧
      (∀ a : Nat, s.rs a % 8 = 0 → (s.rs a < 0xA000 ∨ 0x7FFF8 < s.rs a) → exec (.jr a) s = trap 0x03 (s.rs a)) ∧
      ∀ a : Nat, s.rs a % 8 = 0 → 0xA000 ≤ s.rs a → s.rs a ≤ 0x7FFF8 →
        exec (.jr a) s = .next (s.setMe { s.me with npc := s.rs a, flow := .taken }))

/-- `loop` (R95): it arms LSTART, LEND and LC; a count of zero transfers to the bundle after the body at once. -/
def LoopArms : Prop :=
  ∀ (s : State) (a : Nat) (o : Int), s.isDrover = false →
    let last := ((s.me.pc + 8 * o) % 2 ^ 64).toNat
    let h : Hart := { s.me with lstart := s.me.pc + 8, lend := last, lc := s.me.readS a, loopWord := true }
    (s.me.readS a ≠ 0 → exec (.loop a o) s = .next (s.setMe h)) ∧
    (s.me.readS a = 0 → last + 8 < 2 ^ 55 →
      exec (.loop a o) s = .next (s.setMe { h with npc := last + 8, flow := .taken }))

end Sys2Proof

/-- Taking a trap (R382): TCAUSE, TEPC, TVAL and TRESUME take the trap's values, TSTATUS holds the mode before the trap, the
DEFER and DMORE of the delivery and INTRAP, with PSN and PSCOPE as before; the strand enters supervisor mode at TVEC. Every
register, ECTX, VT, LC and the flags keep their values. `u` is the state after the fault has entered the completion record
(R386, R390). -/
def Obligations.TrapEntrySetsTheTrapRegisters : Prop :=
  ∀ (s : State) (cause tepc tval tresume progress : Nat) (defer dmore recd : Bool), s.TrapsToHandler → cause < 256 →
    let u := if recd = true ∧ isRecorded cause = true
      then s.recordIn s.me.slot (s.faultRec cause tepc tval progress false defer false) else s
    let t := s.enterTrap cause tepc tval tresume progress defer dmore recd
    u.hart = s.hart →
    t.me.tcause = cause ∧ t.me.tepc = tepc ∧ t.me.tval = BitVec.ofNat 64 tval ∧ t.me.tresume = tresume ∧
    bit t.me.tstatus 0 = true ∧ bit t.me.tstatus 1 = s.me.sup ∧ bit t.me.tstatus 2 = defer ∧ bit t.me.tstatus 3 = dmore ∧
    t.me.tstatus / 16 = s.me.tstatus / 16 ∧ t.me.sup = true ∧ t.me.pc = s.me.tvec ∧ t.me.word = 0 ∧
    t.me.s = u.me.s ∧ t.me.f = u.me.f ∧ t.me.v = u.me.v ∧ t.me.m = u.me.m ∧ t.me.ectx = u.me.ectx ∧ t.me.vt = u.me.vt ∧
    t.me.lc = u.me.lc ∧ t.me.fflags = u.me.fflags ∧ t.cores = u.cores ∧ t.mem = u.mem ∧
    ∀ k, k ≠ s.hart → t.hartAt k = u.hartAt k

namespace Sys2Proof

/-- A precise fault of a word (R384): with no result outstanding, the trap is taken with TEPC and TRESUME at the bundle of a
pair, and at the word of a lone bundle, from a state in which the word has had no effect. -/
def PreciseFaultsResumeAtTheirWord : Prop :=
  ∀ (s : State) (cause tval : Nat), s.TrapsToHandler → s.me.slot = none → cause < 256 → s.me.longs = [] →
    s.NothingUnderWay → s.myCore.products = [] →
    let at_ := if s.me.snap.isSome then s.me.pc else s.me.pc + 4 * s.me.word
    ∃ t : State, trapOutcome s (s.takeTrap cause tval) = .next t ∧ t.me.tcause = cause ∧ t.me.tepc = at_ ∧
      t.me.tresume = at_ ∧ t.me.tval = BitVec.ofNat 64 tval ∧ bit t.me.tstatus 2 = false ∧ t.me.pc = s.me.tvec ∧
      t.me.sup = true ∧ t.me.s = s.me.s ∧ t.me.f = s.me.f ∧ t.me.v = s.me.v ∧ t.me.m = s.me.m ∧ t.mem = s.mem ∧
      t.stores = s.stores

/-- `trap n` (R100): breakpoint, whose entry is its effect: TEPC is its own word, TVAL is n, and execution is to continue
with the next bundle; the cause is not recorded (R386). -/
def TrapInstructionTakesBreakpoint : Prop :=
  ∀ (s : State) (n : Nat), n < 1024 → s.TrapsToHandler → s.me.longs = [] → s.NothingUnderWay → s.myCore.products = [] →
    ∃ t : State, exec (.trap n) s = .next t ∧ t.me.tcause = 0x13 ∧ t.me.tepc = s.me.pc + 4 * s.me.word ∧
      t.me.tval = BitVec.ofNat 64 n ∧ t.me.tresume = s.me.pc + 8 ∧ bit t.me.tstatus 0 = true ∧
      bit t.me.tstatus 1 = s.me.sup ∧ bit t.me.tstatus 2 = false ∧ t.me.sup = true ∧ t.me.pc = s.me.tvec ∧
      t.me.s = s.me.s ∧ t.me.f = s.me.f ∧ t.me.v = s.me.v ∧ t.me.m = s.me.m ∧ t.mem = s.mem ∧ t.hub = s.hub

end Sys2Proof

/-- `eret` (R101, R383, R388): with no result outstanding, the strand goes on at the word that TRESUME names, in the mode
before the trap, with INTRAP clear and every other field of TSTATUS and every register as before. -/
def Obligations.EretReturns : Prop :=
  ∀ (s : State), s.me.longs = [] → s.NothingUnderWay → s.myCore.products = [] → s.me.tresume < 2 ^ 55 →
    s.me.susp = none →
    ∃ t : State, exec .eret s = .next t ∧ t.me.pc = s.me.tresume / 8 * 8 ∧ t.me.word = s.me.tresume / 4 % 2 ∧
      t.me.sup = bit s.me.tstatus 1 ∧ t.me.tstatus = s.me.tstatus / 2 * 2 ∧ t.me.s = s.me.s ∧ t.me.f = s.me.f ∧
      t.me.v = s.me.v ∧ t.me.m = s.me.m ∧ t.me.ectx = s.me.ectx ∧ t.me.lc = s.me.lc ∧ t.mem = s.mem ∧ t.cores = s.cores

/-- The rest of the sys group (R98, R102 to R104): `nop` does nothing; `herd` of a released strand, or of count 0, goes on,
and any other waits from its arrival; `ifence` discards the buffered bundles after its own and the cache lines of its ASID;
`halt` stops the strand, which stays occupied. -/
def Obligations.SysGroupResults : Prop :=
  ∀ (s : State),
    exec .nop s = .next s ∧
    (∀ n : Nat, (n = 0 ∨ s.me.herdPassed = true) → exec (.herd n) s = .next (s.setMe { s.me with herd := none })) ∧
    (∀ n : Nat, n ≠ 0 → s.me.herdPassed = false →
      exec (.herd n) s = .next (s.setMe { s.me with flow := .wait, herd := some (s.me.herd.getD s.cycle) })) ∧
    (∃ t : State, exec .ifence s = .next t ∧
      (∀ e, e ∈ t.me.fetch ↔ e ∈ s.me.fetch ∧ e.addr = s.me.pc) ∧
      (∀ l, l ∈ (t.clusterAt (s.coreNo / 16)).icache ↔
        l ∈ (s.clusterAt (s.coreNo / 16)).icache ∧ l.1 ≠ s.me.asid) ∧
      t.me.s = s.me.s ∧ t.me.pc = s.me.pc ∧ t.mem = s.mem) ∧
    (s.me.longs = [] → s.NothingUnderWay → s.myCore.products = [] →
      ∃ t : State, exec .halt s = .next t ∧ t.me.halted = true ∧ t.me.occ = s.me.occ ∧ t.me.s = s.me.s ∧ t.mem = s.mem)

namespace Sys2Proof

/-! ### Suspension points and tasks (R35 to R42, R155, R326 to R333) -/

/-- A strand that can leave its continuation's record in slot `i` of the pool region of cluster `cl` (R40, R375): a strand
outside collecting mode, with no result and no access under way, whose continuation holds that slot of a flock's pool. -/
def MaySuspend (s : State) (cl i : Nat) : Prop :=
  s.isDrover = false ∧ s.collecting = false ∧ s.me.longs = [] ∧ s.NothingUnderWay ∧ s.myCore.products = [] ∧ cl < 96 ∧
    i < 256 ∧ s.me.record = some (poolAddr cl i) ∧ ∃ e ∈ (s.clusterAt cl).pool, e.1 = i

/-- The place of a pool slot. -/
def poolPlace (cl i : Nat) : Nat := placeCluster cl (0x7F8000 + 64 * i)

/-- What a suspension leaves (R39): the record holds the next bundle's address, VT, s31, s1 to s4 and CTL, and every other
byte of memory is as before; the strand is idle; the continuation is known in its new state. -/
def Suspends (s t : State) (cl i : Nat) (state : ContState) (waits : Option WaitFor) : Prop :=
  t.me.occ = false ∧ t.me.record = none ∧
  t.readAt (poolPlace cl i) 64 = joinLanes 64 [(s.me.pc + 8) / 8 * 8, s.me.vt.toNat, s.me.nowS 31, s.me.nowS 1,
    s.me.nowS 2, s.me.nowS 3, s.me.nowS 4, s.me.slot.getD 0 % 2 ^ 16 * 2 ^ 16 + s.me.level * 8 + s.me.cls] ∧
  s.SameMemoryBut t (poolPlace cl i) 64 ∧
  ∃ c ∈ t.hub.conts, c.recAddr = poolAddr cl i ∧ c.slot = s.me.slot.getD 0 ∧ c.state = state ∧ c.waits = waits ∧
    c.vt = s.me.vt ∧ c.asid = s.me.asid

end Sys2Proof

/-- The suspension points of a continuation that goes on later (R39, R99, R155, R329 to R331, R349): `yield` and `sleep 0` leave
it READY in the ready queue of the cluster that holds its slot; `sleep n` waits n · 1,024 cycles (cycles are the model's steps,
log 5); `suspend` leaves it SUSPENDED, after the record's address is stored where its operand says, a zero operand apart; `waitw`
of a local word that still has the value waits for it; `join` waits for the mailbox; `floorw` in a society below its bound waits
for the floor. -/
def Obligations.SuspensionsLeaveARecord : Prop :=
  ∀ (s : State) (cl i : Nat), MaySuspend s cl i →
    let slot := s.me.slot.getD 0
    (∃ t : State, exec .yield s = .next t ∧ Suspends s t cl i .ready none ∧
      (poolAddr cl i, slot) ∈ (t.clusterAt cl).ready) ∧
    (∃ t : State, exec (.sleep 0) s = .next t ∧ Suspends s t cl i .ready none ∧
      (poolAddr cl i, slot) ∈ (t.clusterAt cl).ready) ∧
    (∀ n : Nat, n ≠ 0 → ∃ t : State, exec (.sleep n) s = .next t ∧
      Suspends s t cl i .waiting (some (.sleeping (s.cycle + n * 1024)))) ∧
    (∀ a : Nat, s.rs a = 0 → (∀ c ∈ s.hub.conts, c.wake = false) →
      ∃ t : State, exec (.suspend a) s = .next t ∧ Suspends s t cl i .suspended none) ∧
    (∀ a low : Nat, s.Calm → s.ReleasesFreely → OwnLocal (s.rs a) 8 8 low → (∀ c ∈ s.hub.conts, c.wake = false) →
      ∃ t : State, exec (.suspend a) s = .next t ∧ t.me.occ = false ∧
        t.readAt (placeLocal s.coreNo low) 8 = poolAddr cl i ∧
        ∃ c ∈ t.hub.conts, c.recAddr = poolAddr cl i ∧ c.slot = slot ∧ c.state = .suspended) ∧
    (∀ a b low : Nat, s.Calm → OwnLocal (s.rs a) 8 8 low → s.readAt (placeLocal s.coreNo low) 8 = s.rs b →
      ∃ t : State, exec (.waitw a b) s = .next t ∧ Suspends s t cl i .waiting
        (some (.word (0xF4 * 2 ^ 56 + s.coreNo * 2 ^ 19 + low) (s.me.readS b)))) ∧
    (∀ d : Nat, s.myCore.mailbox = none → ∃ t : State, exec (.join d) s = .next t ∧
      Suspends s t cl i .waiting (some .joined) ∧ (t.coreAt s.coreNo).joins = s.myCore.joins ++ [(poolAddr cl i, d, slot)]) ∧
    ∀ (b : Nat) (x : Society), s.mySociety = some x → x.floor.toNat < s.rs b →
      (s.me.vt = BitVec.allOnes 64 ∨ s.rs b ≤ s.me.vt.toNat) →
      ∃ t : State, exec (.floorw b) s = .next t ∧ Suspends s t cl i .waiting (some (.floor (s.me.readS b)))

/-- Suspension points at which the strand does not wait: `end` frees the strand and the continuation's slot (R330); `sends`
sends its message and ends (R323); `waitw` of a local word that has changed, and `floorw` outside a society, go on at the
next bundle with the state of a pick-up: s1 to s4 and s31 kept, every other register zero (R37, R331, R349). -/
def Obligations.EndAndUnwaitedSuspensions : Prop :=
  ∀ (s : State), s.isDrover = false → s.collecting = false → s.me.longs = [] → s.NothingUnderWay →
    s.myCore.products = [] →
    let goesOn := fun (t : State) => t.me.pc = (s.me.pc + 8) / 8 * 8 ∧ t.me.occ = true ∧ t.me.vt = s.me.vt ∧
      (∀ n, t.me.nowS n = if n = 1 ∨ n = 2 ∨ n = 3 ∨ n = 4 ∨ n = 31 then s.me.nowS n else 0) ∧ t.me.f = [] ∧ t.me.v = [] ∧
      t.me.m = [] ∧ t.me.q = [] ∧ t.me.lc = 0 ∧ t.me.fflags = 0 ∧ t.me.ectx = 0 ∧ t.mem = s.mem
    (∃ t : State, exec .endTask s = .next t ∧ t.me.occ = false ∧ t.me.record = none ∧ t.me.latch = none ∧ t.mem = s.mem ∧
      ∀ a, s.me.record = some a → ∀ c ∈ t.hub.conts, c.recAddr = a → some c.slot ≠ s.me.slot) ∧
    (∀ d a b c : Nat, s.checkSend (s.rs a) (if c = 0 then 2 ^ 64 - 1 else s.rs c) = .ok () → s.mySociety = none →
      s.myCore.outbound.length < 32 →
      ∃ t : State, exec (.sends d a b c) s = .next t ∧ t.me.occ = false ∧ t.mem = s.mem ∧
        ∃ m : Msg, t.myCore.outbound = s.myCore.outbound ++ [m] ∧ m.dest = s.rs a % 2 ^ 26 ∧
          m.ts = (if c = 0 then 2 ^ 64 - 1 else s.rs c) ∧ m.payload = (lanes 64 (s.rv b)).take 6) ∧
    (∀ a b low : Nat, s.Calm → OwnLocal (s.rs a) 8 8 low → s.readAt (placeLocal s.coreNo low) 8 ≠ s.rs b →
      ∃ t : State, exec (.waitw a b) s = .next t ∧ goesOn t) ∧
    ∀ b : Nat, s.mySociety = none → (s.me.vt = BitVec.allOnes 64 ∨ s.rs b ≤ s.me.vt.toNat) →
      ∃ t : State, exec (.floorw b) s = .next t ∧ goesOn t

/-- Tasks (R160, R293, R328, R332, R333): `spawn` copies a record of local memory to the newest end of the core's deque, or
waits while both deques are full; `resume` of a suspended continuation makes it READY in its cluster's queue, and of a
running one is kept; `depset` stores the count; and `depdec` leaves for the unit that holds it, which makes it one less (a
count of 0 stays), and makes the counter's record READY as it reaches 0. -/
def Obligations.TaskInstructionResults : Prop :=
  ∀ (s : State), s.Calm → s.ReleasesFreely →
    (∀ a low : Nat, OwnLocal (s.rs a) 64 64 low →
      let p := placeLocal s.coreNo low
      let w := splitLanes 64 8 (s.readAt p 64)
      s.me.slot = some (nth w 7 / 2 ^ 16 % 2 ^ 16) → nth w 0 % 8 = 0 → nth w 7 / 2 ^ 32 = 0 → nth w 7 / 2 ^ 6 % 2 ^ 10 = 0 →
      (s.myCore.dqCount < 64 →
        let q := placeLocal s.coreNo (0x7000 + 64 * ((s.myCore.dqHead + s.myCore.dqCount) % 64))
        ∃ t : State, exec (.spawn a) s = .next t ∧ t.myCore.dqCount = s.myCore.dqCount + 1 ∧
          t.readAt q 64 = s.readAt p 64 ∧ s.SameMemoryBut t q 64 ∧ t.me = s.me) ∧
      (64 ≤ s.myCore.dqCount → 256 ≤ (s.clusterAt (s.coreNo / 16)).cdCount →
        exec (.spawn a) s = .next (s.setMe { s.me with flow := .wait, spawnWait := true }))) ∧
    (∀ (a : Nat) (c : Cont), s.rs a % 64 = 0 → s.rs a / 2 ^ 56 = 0xF5 → s.contOf (s.rs a) = some c →
      (c.state = .suspended → exec (.resume a) s = .next (s.makeReady (s.rs a) c.slot s.coreNo)) ∧
      (c.state = .running → exec (.resume a) s = .next (s.trackCont { c with wake := true })) ∧
      (c.state ≠ .suspended → c.state ≠ .running → exec (.resume a) s = .next s)) ∧
    ∀ a b low : Nat, OwnLocal (s.rs a) 16 16 low →
      let p := placeLocal s.coreNo low
      (∃ t : State, exec (.depset a b) s = .next t ∧ OnlyMemory s t ∧ t.readAt p 8 = s.rs b ∧ s.SameMemoryBut t p 8) ∧
      let d : PendingAtomic :=
        { hart := s.hart, long := none, op := 0, size := 16, place := p, va := s.rs a, operands := [], kind := 3,
          slot := s.me.slot, flock := s.me.flock, pc := s.me.pc, pkg := s.hub.pkg, owner := .hart s.hart, since := s.cycle,
          user := false }
      let left : State := { s with atomics := s.atomics ++ [d] }
      exec (.depdec a) s = .next left ∧
      (s.hub.agist = [] →
        let n := s.readAt p 8
        let w := s.readAt (p + 8) 8
        ∃ v : State, exec .atomicExecute { left with ev := { idx := s.atomics.length } } = .next v ∧
          v.readAt p 8 = n - 1 ∧ s.SameMemoryBut v p 8 ∧ v.atomics = s.atomics ∧ v.me = s.me ∧
          (n ≠ 1 ∨ w = 0 → v.clusters = s.clusters) ∧
          ∀ slot : Nat, n = 1 → w ≠ 0 → s.me.slot = some slot →
            ∃ cl : Nat, (s.canonAddr s.hart (w / 64 * 64), slot) ∈ (v.clusterAt cl).ready)

/-- Transfers of control, the targets they refuse, and the hardware loop (R90 to R95, R122). -/
def Obligations.Transfers : Prop :=
  TransfersGoToTheirTargets ∧ BadTargetsTrap ∧ LoopArms

/-- Precise faults and the trap instruction (R100, R384). -/
def Obligations.PreciseTraps : Prop :=
  PreciseFaultsResumeAtTheirWord ∧ TrapInstructionTakesBreakpoint

namespace Sys2Proof

/-! ### Effect lists (R300 to R310, R334 to R343) -/

/-- The list memory of the issuing strand's launch goes through at once: the arena of `n` bytes from `b` on lies in pages of
this package's HBM that the core's micro-TLB holds and the launch's ranges grant; `fr` gives each page's frame, and no two
pages have one frame. -/
def ArenaAt (s : State) (b n : Nat) (fr : Nat → Nat) : Prop :=
  s.arena = some (b, n) ∧ b % 65536 = 0 ∧ s.QuietMemory ∧
    (∀ a, b ≤ a → a < b + n → a % 65536 = 0 → s.GlobalAt a 65536 (fr (a / 65536))) ∧
    ∀ a c, b ≤ a → a < b + n → b ≤ c → c < b + n → fr (a / 65536) = fr (c / 65536) → a / 65536 = c / 65536

/-- The word at an address of the arena. -/
def arenaWord (fr : Nat → Nat) (u : State) (a : Nat) : Nat := u.readAt (placeIn (fr (a / 65536)) a) 8

/-- Every byte of the arena outside two ranges of it is the same in two states. -/
def ArenaElse (fr : Nat → Nat) (s t : State) (b n lo hi lo' hi' : Nat) : Prop :=
  ∀ a, b ≤ a → a < b + n → (a < lo ∨ hi ≤ a) → (a < lo' ∨ hi' ≤ a) →
    t.byteAt (placeIn (fr (a / 65536)) a) = s.byteAt (placeIn (fr (a / 65536)) a)

/-- A block of the arena: 2,048 bytes, aligned, after the arena's own header (R304). -/
def BlockAt (b n x : Nat) : Prop := x % 2048 = 0 ∧ b + 2048 ≤ x ∧ x + 2048 ≤ b + n

/-- A closed list of one block, by its handle (R303, R305): its first block, its count, and a generation that is current. -/
def ListAt (s : State) (b n : Nat) (fr : Nat → Nat) (h count : Nat) : Prop :=
  let x := h / 64 * 64
  BlockAt b n x ∧ arenaWord fr s x / 2 ^ 32 % 2 ^ 6 = h % 64 ∧ arenaWord fr s x % 2 ^ 32 = count ∧
    arenaWord fr s (x + 8) ≤ 56 ∧ arenaWord fr s (x + 72) / 4 % 2 = 0

/-- The frame that `callc`, `ecollect` and `evbegin` open (R300, R304, R305, R334, R335, R345): the first free block leaves
the free list, its header holds a new open list of the kept generation, ECTX names it, and no other byte of the arena
changes. -/
def FrameOpened (s t : State) (b n : Nat) (fr : Nat → Nat) (cap base kind hd ret : Nat) : Prop :=
  let word := arenaWord fr
  let head := word s b
  let gen := word s head / 2 ^ 32 % 2 ^ 6
  t.me.ectx = BitVec.ofNat 64 (head + gen) ∧ word t b = word s (head + 8) ∧ word t (b + 8) = (word s (b + 8) + 2 ^ 64 - 1) % 2 ^ 64 ∧
    word t head = gen * 2 ^ 32 ∧ word t (head + 8) = 0 ∧ word t (head + 16) = cap ∧ word t (head + 24) = head ∧ word t (head + 32) = head ∧
    word t (head + 40) = 0 ∧ word t (head + 48) = s.me.vt.toNat ∧ word t (head + 56) = base ∧
    word t (head + 64) = s.me.ectx.toNat ∧ word t (head + 72) = kind + 4 ∧ word t (head + 80) = hd ∧
    word t (head + 88) = ret ∧ word t (head + 96) = 0 ∧ (∀ i, i < 64 → word t (head + 0x80 + 8 * i) = 0) ∧
    ArenaElse fr s t b n b (b + 16) head (head + 0x280)

/-- `callc` and `ecollect` in an arena with a free block (R300, R334, R339): the frame opens; `callc` transfers, and
`ecollect` gives the handle as a long result. -/
def FramesOpen : Prop :=
  ∀ (s : State) (b n : Nat) (fr : Nat → Nat), ArenaAt s b n fr → s.isDrover = false →
    let head := arenaWord fr s b
    let gen := arenaWord fr s head / 2 ^ 32 % 2 ^ 6
    let cap := s.me.ecapdef.toNat
    BlockAt b n head →
    (∀ (d : Nat) (o : Int), s.me.ectx = 0 → 1 ≤ cap → cap < 2 ^ 32 → d < 32 → s.target o < 2 ^ 55 → s.nextBundle < 2 ^ 64 →
      ∃ t : State, exec (.callc d o) s = .next t ∧ FrameOpened s t b n fr cap 0 0 d s.nextBundle ∧
        t.me.npc = s.target o ∧ t.me.flow = .taken) ∧
    ∀ (d x y : Nat), 1 ≤ s.rs x → s.rs x < 2 ^ 32 → s.rs y = 0 → d < 32 →
      ∃ t u : State, exec (.ecollect d x y) s = .next t ∧ t = u.long [.s d (BitVec.ofNat 64 (head + gen))] ∧
        FrameOpened s u b n fr (s.rs x) 0 1 d 0

/-- The header of the frame that ECTX names closes (R300, R338): OPEN clears, the chain filter of a list without a base takes
the list's own filter, and ECTX is zero again. -/
def FrameClosed (s t : State) (b n : Nat) (fr : Nat → Nat) (kind : Nat) : Prop :=
  let x := s.me.ectx.toNat / 64 * 64
  t.me.ectx = 0 ∧ arenaWord fr t (x + 72) = kind ∧
    (∀ i, i < 64 → arenaWord fr t (x + 0x280 + 8 * i) = arenaWord fr s (x + 0x80 + 8 * i)) ∧
    ArenaElse fr s t b n x (x + 0x80) (x + 0x280) (x + 0x480)

/-- The strand's current frame is of a kind, without a base and without a frame around it. -/
def FrameOfKind (s : State) (b n : Nat) (fr : Nat → Nat) (kind : Nat) : Prop :=
  let h := s.me.ectx.toNat
  let x := h / 64 * 64
  h ≠ 0 ∧ BlockAt b n x ∧ arenaWord fr s x / 2 ^ 32 % 2 ^ 6 = h % 64 ∧ arenaWord fr s (x + 72) % 4 = kind ∧
    arenaWord fr s (x + 56) = 0 ∧ arenaWord fr s (x + 64) = 0

/-- A list's one block is back on the free list, with its generation advanced (R303, R304, R342). -/
def ListFreed (s t : State) (b : Nat) (fr : Nat → Nat) (h : Nat) : Prop :=
  let x := h / 64 * 64
  arenaWord fr t x = (h % 64 + 1) % 64 * 2 ^ 32 ∧ arenaWord fr t (x + 8) = arenaWord fr s b ∧ arenaWord fr t b = x ∧
    arenaWord fr t (b + 8) = (arenaWord fr s (b + 8) + 1) % 2 ^ 64

/-- Where the list instructions complete (R334, R337 to R342): on the arena of the strand's launch, with a current frame or
closed lists of one block; what each gives, and which bytes of the arena it changes. The lists of no entry and of one stand
for the others, whose effect `ListValueInstructions` and `ApplyInstruction` give over the operations on lists. -/
def ListInstructionsComplete : Prop :=
  ∀ (s : State) (b n : Nat) (fr : Nat → Nat), ArenaAt s b n fr → s.isDrover = false →
    let word := arenaWord fr
    let give := fun (u : State) (d x : Nat) => u.long [.s d (BitVec.ofNat 64 x)]
    (∀ d : Nat, FrameOfKind s b n fr 1 →
      ∃ u : State, exec (.eclose d) s = .next (give u d s.me.ectx.toNat) ∧ FrameClosed s u b n fr 1) ∧
    (FrameOfKind s b n fr 0 →
      let x := s.me.ectx.toNat / 64 * 64
      ∃ u : State, FrameClosed s u b n fr 0 ∧
        let v := give u (word s (x + 80) % 32) s.me.ectx.toNat
        exec .cret s = .next (v.setMe { v.me with npc := word s (x + 88), flow := .taken })) ∧
    ∀ (d a c count : Nat), ListAt s b n fr (s.rs a) count →
      let h := s.rs a
      let x := h / 64 * 64
      let free := word s b
      let gen := word s free / 2 ^ 32 % 2 ^ 6
      let ranged := s.rs c ≤ s.rs (c + 1) ∧ s.rs c < 2 ^ 55 ∧ s.rs (c + 1) ≤ 2 ^ 55
      let kind := word s (x + 0x480) / 2 ^ 56 % 2 ^ 4
      let made := fun (u : State) => word u free = gen * 2 ^ 32 ∧ word u (free + 8) = 0 ∧
        word u (free + 16) = word s (x + 16) ∧ word u (free + 48) = word s (x + 48) ∧ word u (free + 56) = 0 ∧
        word u (free + 72) = 0 ∧ ∀ i, i < 64 → word u (free + 0x280 + 8 * i) = 0
      (count = 0 → ∀ k, exec (.elen d a k) s = .next (give s d 0)) ∧
      (count = 1 → ∀ k, exec (.elen d a k) s = .next (give s d (if bit k kind then 1 else 0))) ∧
      (word s (x + 16) + s.rs c < 2 ^ 32 →
        ∃ t : State, exec (.egrow a c) s = .next t ∧ word t (x + 16) = word s (x + 16) + s.rs c ∧ t.me = s.me ∧
          ArenaElse fr s t b n (x + 16) (x + 24) 0 0) ∧
      (count ≤ s.rs c → exec (.etrunc a c) s = .next s) ∧
      (count = 1 → s.rs c = 0 →
        ∃ t : State, exec (.etrunc a c) s = .next t ∧ word t x = h % 64 * 2 ^ 32 ∧ word t (x + 8) = 0 ∧ t.me = s.me ∧
          ArenaElse fr s t b n x (x + 0x80) 0 0) ∧
      (∃ t : State, exec (.edrop a) s = .next t ∧ ListFreed s t b fr h ∧ t.me = s.me ∧
        ArenaElse fr s t b n x (x + 16) b (b + 16)) ∧
      (count = 0 → ranged →
        ∃ t : State, exec (.erebase d a c) s = .next t ∧ (∀ i, i < 64 → word t (x + 0x80 + 8 * i) = 0) ∧ t.me = s.me ∧
          ArenaElse fr s t b n (x + 0x80) (x + 0x280) 0 0) ∧
      (count = 0 → word s (x + 56) = 0 → BlockAt b n free → free ≠ x →
        (ranged → ∀ i : Instr, i = .efilt d a c ∨ i = .efiltx d a c →
          ∃ u : State, exec i s = .next (give u d (free + gen)) ∧ made u ∧ word u b = word s (free + 8) ∧
            word u (b + 8) = (word s (b + 8) + 2 ^ 64 - 1) % 2 ^ 64 ∧ ArenaElse fr s u b n free (free + 0x480) b (b + 16)) ∧
        (s.rs c = 0 →
          ∃ u : State, exec (.ecat d a c) s = .next (give u d (free + gen)) ∧ made u ∧
            word u x = (h % 64 + 1) % 64 * 2 ^ 32 ∧ word u (x + 8) = word s (free + 8) ∧ word u b = x ∧
            word u (b + 8) = word s (b + 8))) ∧
      ∀ (sc low : Nat), count = 1 → s.me.sup = true → s.me.releaseHeld = 0 → s.me.ectx = 0 → s.coreNo < 1536 →
        low % 8 = 0 → low + 8 ≤ 2 ^ 19 → word s (x + 40) = 0 →
        word s (x + 0x480) = 3 * 2 ^ 60 + 2 ^ 55 + 4 * 2 ^ 52 + s.coreNo * 2 ^ 19 + low →
        ∃ t : State, exec (.eapply a sc 0 0) s = .next t ∧
          t.readAt (placeLocal s.coreNo low) 8 = word s (x + 0x488) ∧ t.me = s.me ∧ ArenaElse fr s t b n 0 0 0 0

/-- The frame instructions over the list operations they are made of (R334, R338, R339): the free block is looked for
before the frame is opened; `eclose` and `cret` close the current frame of their own kind, give its handle to the register
the rules name, and `cret` goes to the return address; the wrong kind of frame, or none, is an illegal instruction. -/
def FrameInstructions : Prop :=
  ∀ (s : State),
    (∀ (d h : Nat) (o : Int) (u v : State), s.isDrover = false → s.target o < 2 ^ 55 → s.blockFree = .ok u →
      1 ≤ u.me.ecapdef.toNat → u.me.ecapdef.toNat < 2 ^ 32 →
      u.openFrame u.me.ecapdef.toNat u.me.ectx.toNat 0 d u.nextBundle u.me.vt.toNat = .ok (v, h) → v.isDrover = false →
      exec (.callc d o) s = .next (v.setMe { v.me with npc := s.target o, flow := .taken })) ∧
    (∀ (d a b h : Nat) (u v w : State), 1 ≤ s.rs a → s.rs a < 2 ^ 32 → s.baseOperand (s.rs b) = .ok u →
      u.blockFree = .ok v → v.openFrame (s.rs a) (s.rs b) 1 d 0 v.me.vt.toNat = .ok (w, h) →
      exec (.ecollect d a b) s = .next (w.long [.s d (BitVec.ofNat 64 h)])) ∧
    (∀ (d : Nat) (h : ListHead) (u v : State), s.me.ectx ≠ 0 → s.currentList = .ok (u, h) → h.kind = 1 →
      u.closeFrame h h.outer = .ok v → exec (.eclose d) s = .next (v.long [.s d (BitVec.ofNat 64 (h.addr + h.gen))])) ∧
    (∀ (h : ListHead) (u v : State), s.me.ectx ≠ 0 → s.currentList = .ok (u, h) → h.kind = 0 →
      u.closeFrame h h.outer = .ok v →
      let w := v.long [.s h.hd (BitVec.ofNat 64 (h.addr + h.gen))]
      exec .cret s = .next (w.setMe { w.me with npc := h.ret, flow := .taken })) ∧
    (∀ (d : Nat), s.me.ectx = 0 →
      let trap := trapOutcome s (s.freeValue.2.takeTrap 0x01 s.freeValue.1.toNat)
      exec (.eclose d) s = trap ∧ exec .cret s = trap) ∧
    ∀ (d a b : Nat), (s.rs a = 0 ∨ 2 ^ 32 ≤ s.rs a) →
      exec (.ecollect d a b) s = trapOutcome s (s.takeTrap 0x08 (s.rs a))

/-- Lists as values (R337, R340, R342): the null handle stands for no list; every other operand is a closed list, which
`ecat` consumes and `efilt` and `efiltx` keep; the new list takes the capacity, base and timestamp the rules name. -/
def ListValueInstructions : Prop :=
  ∀ (s : State) (d a b : Nat),
    let give := fun (u : State) (x : Nat) =>
      (Host.Outcome.next (u.long [.s d (BitVec.ofNat 64 x)]) : Host.Outcome State Fault Refusal)
    (s.rs a = 0 → s.rs b = 0 → exec (.ecat d a b) s = give s 0) ∧
    (s.rs a = s.rs b → s.rs a ≠ 0 → exec (.ecat d a b) s = trapOutcome s (s.takeTrap 0x08 (s.rs a))) ∧
    (∀ (n : Nat) (u v w : State) (h : ListHead) (es : List Entry), s.rs a ≠ 0 → s.rs b = 0 →
      s.listOperand (s.rs a) = .ok (u, some (h, es)) → u.newList h.cap h.base h.ts es = .ok (v, n) → v.freeList h = .ok w →
      exec (.ecat d a b) s = give w n) ∧
    (∀ (n : Nat) (u v w x y : State) (h k : ListHead) (es fs : List Entry), s.rs a ≠ s.rs b → s.rs a ≠ 0 →
      s.listOperand (s.rs a) = .ok (u, some (h, es)) → u.listOperand (s.rs b) = .ok (v, some (k, fs)) →
      v.newList (min (h.cap + k.cap) (2 ^ 32 - 1)) h.base h.ts (es ++ fs) = .ok (w, n) → w.freeList h = .ok x →
      x.freeList k = .ok y → exec (.ecat d a b) s = give y n) ∧
    (s.rs a = 0 → exec (.efilt d a b) s = give s 0 ∧ exec (.efiltx d a b) s = give s 0) ∧
    (∀ (lo hi n : Nat) (u v : State) (h : ListHead) (es : List Entry), s.listOperand (s.rs a) = .ok (u, some (h, es)) →
      effectRange (s.rs b) (s.rs (b + 1)) = some (lo, hi) →
      (u.newList h.cap h.base h.ts (filterIn lo hi es) = .ok (v, n) → exec (.efilt d a b) s = give v n) ∧
      (u.newList h.cap h.base h.ts (filterOut lo hi es) = .ok (v, n) → exec (.efiltx d a b) s = give v n)) ∧
    (∀ (lo hi : Nat) (u v w x : State) (h : ListHead) (es fs : List Entry), s.rs a ≠ 0 → s.closedList (s.rs a) = .ok (u, h) →
      u.entriesOf h = .ok (v, es) → effectRange (s.rs b) (s.rs (b + 1)) = some (lo, hi) →
      movedEntries lo hi (s.rs d) es = .ok fs → v.rewriteEntries fs = .ok w →
      ∀ y, w.lwrite (h.addr + 0x80) 512 0 = .ok x → x.setFilter h (fs.flatMap entryLines) = .ok y →
        exec (.erebase d a b) s = .next y) ∧
    (s.rs a = 0 → exec (.edrop a) s = .next s ∧ (∀ k, exec (.elen d a k) s = give s 0) ∧
      (∀ sc i r, exec (.eapply a sc i r) s = .next s) ∧ exec (.egrow a b) s = trapOutcome s (s.takeTrap 0x08 0) ∧
      exec (.etrunc a b) s = trapOutcome s (s.takeTrap 0x08 0) ∧
      exec (.erebase d a b) s = trapOutcome s (s.takeTrap 0x08 0)) ∧
    (∀ (u v : State) (h : ListHead), s.rs a ≠ 0 → s.closedList (s.rs a) = .ok (u, h) →
      (u.freeList h = .ok v → exec (.edrop a) s = .next v) ∧
      (h.count ≤ s.rs b → exec (.etrunc a b) s = .next u) ∧
      ∀ (w x y : State) (bs : List Nat) (es : List Entry) (g : ListHead), s.rs b < h.count → u.blocksOf h = .ok (v, bs) →
        v.entriesOf h = .ok (w, es) → w.cutBlocks h bs (State.furtherBlocks (granulesOf (es.take (s.rs b)))) = .ok (x, g) →
        x.writeHead { g with count := s.rs b, used := granulesOf (es.take (s.rs b)), progress := min g.progress (s.rs b) } =
          .ok y →
        exec (.etrunc a b) s = .next y) ∧
    ∀ (u v : State) (h : ListHead) (es : List Entry), s.rs a ≠ 0 → s.ownList (s.rs a) = .ok (u, h) →
      (∀ k, u.entriesOf h = .ok (v, es) →
        exec (.elen d a k) s = give v (es.filter (fun e => bit k e.kind)).length) ∧
      (h.cap + s.rs b < 2 ^ 32 → u.lwrite (h.addr + 0x10) 8 (h.cap + s.rs b) = .ok v → exec (.egrow a b) s = .next v) ∧
      (2 ^ 32 ≤ h.cap + s.rs b → exec (.egrow a b) s = trapOutcome s (s.takeTrap 0x08 (s.rs b)))

/-- `eapply` (R272, R273, R341): the null handle applies nothing; outside collecting mode the entries from the progress
index on are applied in order and the index is kept and cleared again; with `.iso` a list of more than 64 lines is refused
before anything is applied; in collecting mode the entries join the current list, and `.iso` and `.rel` are illegal. -/
def ApplyInstruction : Prop :=
  ∀ (s : State) (a sc : Nat) (u : State) (h : ListHead) (es : List Entry), s.rs a ≠ 0 →
    s.listOperand (s.rs a) = .ok (u, some (h, es)) →
    (∀ v w : State, u.collecting = false → u.me.releaseHeld = 0 → u.applyList h es = .ok (v, none) →
      v.setProgress h 0 = .ok w → exec (.eapply a sc 0 0) s = .next w) ∧
    (∀ v w : State, u.collecting = false → u.me.releaseHeld = 0 → u.applyIso h es = .ok v →
      v.setProgress h 0 = .ok w → exec (.eapply a sc 1 0) s = .next w) ∧
    (u.collecting = false → u.me.releaseHeld = 0 → 64 < linesWritten es →
      exec (.eapply a sc 1 0) s = trapOutcome s (s.takeTrap 0x09 (linesWritten es))) ∧
    (u.collecting = true → ∀ i r, (i = 1 ∨ r = 1) →
      exec (.eapply a sc i r) s = trapOutcome s (s.freeValue.2.takeTrap 0x01 s.freeValue.1.toNat)) ∧
    (∀ v : State, u.collecting = true → u.applyRecorded h es = .ok v → exec (.eapply a sc 0 0) s = .next v) ∧
    ∀ (v : State) (i c x : Nat), u.collecting = false → u.me.releaseHeld = 0 →
      u.applyList h es = .ok (v, some (.trapAt c x i)) →
      exec (.eapply a sc 0 0) s = trapOutcome v (v.takeTrapAs c x v.faultAddr v.faultAddr i true)

end Sys2Proof

/-- Effect lists: frames and lists in list memory, where their instructions complete (R300, R304, R305, R334, R335, R337 to
R342). -/
def Obligations.FramesOpenInTheArena : Prop := FramesOpen ∧ ListInstructionsComplete

/-- Effect lists: the frame instructions and the list operations (R334, R337 to R342). -/
def Obligations.EffectListInstructions : Prop := FrameInstructions ∧ ListValueInstructions ∧ ApplyInstruction

namespace Sys2Proof

/-! ### Messages and the tag group (R283, R284, R314, R321, R322, R325) -/

/-- `send` (R277, R283, R314, R322): after its checks the message joins the core's outbound queue with the next serial, never
0, and the serial is the long result; a timed one of a society counts as sent in the core's colour; a full queue of 32 holds
the word; a malformed route, a timestamp before the sender's or before the floor of its society are bounds faults. Outside
collecting mode, where no acquire of the strand is on its way. -/
def SendResults : Prop :=
  ∀ (s : State) (d a b c : Nat), s.collecting = false → s.me.releaseHeld = 0 →
    (∀ x ∈ s.atomics, x.hart = s.hart → x.acq = false) →
    let route := s.rs a
    let ts := if c = 0 then 2 ^ 64 - 1 else s.rs c
    let n := s.myCore.serial
    let m : Msg :=
      { ts := ts, payload := (lanes 64 (s.rv b)).take 6, dest := route % 2 ^ 26, asid := s.me.asid,
        slot := s.me.slot.getD 0,
        hdr := n * 2 ^ 42 + (s.hub.pkg * 2 ^ 11 + s.coreNo) * 2 ^ 16 + s.colourOf s.coreNo s.me.slot * 2 ^ 12 + 0 * 2 ^ 11 +
          bits route 34 3 * 2 ^ 8 + bits route 26 8,
        hart := some s.hart, since := s.cycle }
    let ok := route < 2 ^ 37 ∧ route % 2 ^ 11 ≤ 1535 ∧ s.inPaddock (bits route 11 15) = true
    let late := ts ≠ 2 ^ 64 - 1 ∧ ((s.me.vt ≠ BitVec.allOnes 64 ∧ ts < s.me.vt.toNat) ∨
      ∃ y, s.mySociety = some y ∧ ts < y.floor.toNat)
    let u := s.setCore s.coreNo { s.myCore with
      serial := if n + 1 = 2 ^ 22 then 1 else n + 1,
      outbound := s.myCore.outbound ++ [m] }
    (ok → ¬late → s.myCore.outbound.length < 32 → bits route 11 15 = s.hub.pkg →
      ((s.mySociety = none ∨ ts = 2 ^ 64 - 1) → exec (.send d a b c) s = .next (u.long [.s d (BitVec.ofNat 64 n)])) ∧
      ∀ y k, s.mySociety = some y → s.me.slot = some k → ts ≠ 2 ^ 64 - 1 →
        let t := s.tally s.coreNo k
        ∃ v : State, exec (.send d a b c) s = .next (v.long [.s d (BitVec.ofNat 64 n)]) ∧
          v.myCore.outbound = u.myCore.outbound ∧ v.myCore.serial = u.myCore.serial ∧ v.me = s.me ∧ v.mem = s.mem ∧
          v.tally s.coreNo k = { t with sent := setNth t.sent t.colour (nth t.sent t.colour + 1), lowestSent := min t.lowestSent ts } ∧
          (∀ z, v.mySociety = some z → z.started = true)) ∧
    (ok → ¬late → 32 ≤ s.myCore.outbound.length → exec (.send d a b c) s = .next s.hold) ∧
    (¬ok → exec (.send d a b c) s = trapOutcome s (s.takeTrap 0x08 route)) ∧
    (ok → late → exec (.send d a b c) s = trapOutcome s (s.takeTrap 0x08 ts))

/-- The tag group (R325) by a launch that holds the core's handler table: `tagen` and `tagdis` set and clear one enable,
`tagpnd` and `tagclr` one pending bit, and `tagrd` reads the tag's state; a tag above 255 is a bounds fault, and a launch
that does not hold the table is refused with an access fault. -/
def TagGroupResults : Prop :=
  ∀ (s : State) (d a : Nat),
    let t := s.rs a
    let c := s.myCore
    let put := fun (x : Core) => (Host.Outcome.next (s.setCore s.coreNo x) : Host.Outcome State Fault Refusal)
    let one : BitVec 256 := BitVec.ofNat 256 (2 ^ t)
    (t ≤ 255 → s.me.slot ≠ none → c.tableOwner = s.me.slot →
      exec (.tagen a) s = put { c with tagen := c.tagen ||| one } ∧
      exec (.tagdis a) s = put { c with tagen := c.tagen &&& ~~~one } ∧
      exec (.tagpnd a) s = put { c with tagpnd := c.tagpnd ||| one } ∧
      exec (.tagclr a) s = put { c with tagpnd := c.tagpnd &&& ~~~one } ∧
      let e := s.handlerEntry s.coreNo t
      exec (.tagrd d a) s = .next (s.long [.s d (BitVec.ofNat 64 ((if c.tagen.getLsbD t then 1 else 0) +
        (if c.tagpnd.getLsbD t then 2 else 0) + min (c.inbox.filter (fun x => x.msg.tag == t)).length 255 * 2 ^ 8 +
        (if e.valid then 2 ^ 16 else 0) + (if e.busy then 2 ^ 17 else 0)))])) ∧
    (∀ i : Instr, i = .tagen a ∨ i = .tagdis a ∨ i = .tagpnd a ∨ i = .tagclr a ∨ i = .tagrd d a →
      (255 < t → exec i s = trapOutcome s (s.takeTrap 0x08 t)) ∧
      (t ≤ 255 → (s.me.slot = none ∨ c.tableOwner ≠ s.me.slot) → exec i s = trapOutcome s (s.takeTrap 0x07 t)))

end Sys2Proof

/-- Messages leave and tags change (R277, R283, R322, R325). -/
def Obligations.SendAndTagResults : Prop := SendResults ∧ TagGroupResults

namespace Sys2Proof

/-! ### Virtual time (R279 to R282, R313, R345 to R350) -/

/-- Virtual-time instructions over the descriptor and list operations they are made of (R279, R280, R282, R345 to R348):
the descriptor's checks come first; `evbegin` opens the event's frame; `evend` closes it and makes its list the newest of
the chain; `rollback` gives the number of lists dropped; `commit` applies the lists before its bound. -/
def VirtualTimeInstructions : Prop :=
  ∀ (s : State) (d a b sc : Nat),
    (s.collecting = false → ∀ (u : State) (g : Agent), s.readAgent (s.rs a) = .ok (u, g) →
      (g.clean = false → ∀ i, i = Instr.evbegin a b sc ∨ i = Instr.rollback d a b sc ∨ i = Instr.commit a b sc →
        exec i s = trapOutcome s (s.takeTrap 0x08 (s.rs a))) ∧
      (g.clean = true → g.opened = false →
        (s.rs b = 2 ^ 64 - 1 → exec (.evbegin a b sc) s = trapOutcome s (s.takeTrap 0x08 (s.rs b))) ∧
        (s.rs b < g.lvt → s.rs b ≠ 2 ^ 64 - 1 → exec (.evbegin a b sc) s = trapOutcome s (s.takeTrap 0x0A g.lvt)) ∧
        (s.rs b ≠ 2 ^ 64 - 1 → g.lvt ≤ s.rs b → 1 ≤ u.me.ecapdef.toNat → u.me.ecapdef.toNat < 2 ^ 32 →
          (∀ v : State, u.blockFree = .ok v → v.me.latch = none → v.me.releaseHeld ≠ 0 → exec (.evbegin a b sc) s = .next v) ∧
          ∀ v w x : State, ∀ h : Nat, u.blockFree = .ok v → v.me.latch = none → v.me.releaseHeld = 0 →
            let e := v.setMe { v.me with vt := BitVec.ofNat 64 (s.rs b) }
            e.openFrame u.me.ecapdef.toNat g.chain 2 0 g.addr (s.rs b) = .ok (w, h) → w.me.latch = none →
            w.writeAgent { g with word := g.word + 2 ^ 63 } = .ok x → exec (.evbegin a b sc) s = .next x) ∧
        (u.me.releaseHeld ≠ 0 → exec (.rollback d a b sc) s = .next (u.long [])) ∧
        (∀ (v : State) (ls : List ListHead) (ms : List Entry) (chain ts : Nat), u.me.releaseHeld = 0 →
          u.rollLists (s.rs b) u.arenaBlocks g.chain = .ok (v, ls, ms, chain, ts) →
          (∀ (w : State) (i : Nat), v.rollMessages v.me.rolled (ms.drop v.me.rolled) = (w, some i) →
            exec (.rollback d a b sc) s = .next (w.setMe { w.me with rolled := i }).hold) ∧
          ∀ w x y : State, v.rollMessages v.me.rolled (ms.drop v.me.rolled) = (w, none) →
            (w.setMe { w.me with rolled := 0 }).freeLists ls = .ok x →
            x.writeAgent { g with
              lvt := ts, chain := chain, last := chain,
              word := (g.word % 2 ^ 32 + (2 ^ 32 - ls.length % 2 ^ 32)) % 2 ^ 32 } = .ok y →
            exec (.rollback d a b sc) s = .next (y.long [.s d (BitVec.ofNat 64 ls.length)])) ∧
        (u.myFloor < s.rs b → exec (.commit a b sc) s = trapOutcome s (s.takeTrap 0x08 (s.rs b))) ∧
        (s.rs b ≤ u.myFloor → u.me.releaseHeld ≠ 0 → exec (.commit a b sc) s = .next u) ∧
        (∀ (v w x : State) (hs : List ListHead), s.rs b ≤ u.myFloor → u.me.releaseHeld = 0 → u.chainHeads u.arenaBlocks g.chain = .ok (v, hs) →
          let keep := hs.filter (fun h => decide (s.rs b ≤ h.ts))
          let gone := (hs.filter (fun h => decide (h.ts < s.rs b))).reverse
          let top := (keep.head?.map ListHead.handle).getD 0
          v.commitLists keep.getLast? gone = .ok (w, none) →
          w.writeAgent { g with chain := top, last := top, word := keep.length % 2 ^ 32 } = .ok x →
          exec (.commit a b sc) s = .next x))) ∧
    (∀ (u v w x : State) (h : ListHead) (g : Agent), s.me.ectx ≠ 0 → s.currentList = .ok (u, h) → h.kind = 2 →
      u.readAgent h.ret = .ok (v, g) → g.clean = true → v.me.releaseHeld = 0 → v.closeFrame h 0 = .ok w →
      w.writeAgent { g with
        chain := h.addr + h.gen, last := h.addr + h.gen, lvt := w.me.vt.toNat, word := (g.word % 2 ^ 32 + 1) % 2 ^ 32 } =
        .ok x →
      exec (.evend sc) s = .next x) ∧
    (∀ (u v : State) (h : ListHead) (g : Agent), s.me.ectx ≠ 0 → s.currentList = .ok (u, h) → h.kind = 2 →
      u.readAgent h.ret = .ok (v, g) → g.clean = true → v.me.releaseHeld ≠ 0 → exec (.evend sc) s = .next v) ∧
    (s.me.ectx = 0 → exec (.evend sc) s = trapOutcome s (s.freeValue.2.takeTrap 0x01 s.freeValue.1.toNat)) ∧
    (s.collecting = true → ∀ i, i = Instr.evbegin a b sc ∨ i = Instr.rollback d a b sc ∨ i = Instr.commit a b sc →
      exec i s = trapOutcome s (s.freeValue.2.takeTrap 0x01 s.freeValue.1.toNat))

/-- Where the virtual-time instructions complete (R279 to R282, R345 to R348): with an agent descriptor in the own core's
local memory, an arena, and a chain that is empty or of one list without entries. `evbegin` opens the event's frame and sets
OPEN; `evend` closes it, and its list becomes the chain; `rollback` drops the list at or after its time, `commit` the one
before its bound, and each frees it. -/
def VirtualTimeCompletes : Prop :=
  ∀ (s : State) (b n : Nat) (fr : Nat → Nat) (low : Nat), ArenaAt s b n fr → s.isDrover = false → s.me.sup = true →
    s.me.releaseHeld = 0 → low % 64 = 0 → low + 64 ≤ 2 ^ 19 →
    let word := arenaWord fr
    let p := placeLocal s.coreNo low
    let agent := fun (i : Nat) => s.readAt (p + 8 * i) 8
    let holds := fun (t : State) (lvt chain last w : Nat) =>
      t.readAt p 8 = lvt ∧ t.readAt (p + 8) 8 = chain ∧ t.readAt (p + 16) 8 = last ∧ t.readAt (p + 24) 8 = w
    (∀ a c sc : Nat, s.me.ectx = 0 → s.rs a = ownLocal low → agent 1 = 0 → agent 3 < 2 ^ 32 → s.rs c ≠ 2 ^ 64 - 1 →
      agent 0 ≤ s.rs c → 1 ≤ s.me.ecapdef.toNat → s.me.ecapdef.toNat < 2 ^ 32 → s.me.latch = none →
      BlockAt b n (word s b) →
      ∃ t : State, exec (.evbegin a c sc) s = .next t ∧ t.me.vt = BitVec.ofNat 64 (s.rs c) ∧
        FrameOpened (s.setMe { s.me with vt := BitVec.ofNat 64 (s.rs c) }) t b n fr s.me.ecapdef.toNat 0 2 0 (s.rs a) ∧
        holds t (agent 0) 0 (agent 2) (agent 3 + 2 ^ 63)) ∧
    (∀ sc : Nat, FrameOfKind s b n fr 2 → word s (s.me.ectx.toNat / 64 * 64 + 88) = ownLocal low →
      agent 3 / 2 ^ 32 % 2 ^ 31 = 0 →
      ∃ t : State, exec (.evend sc) s = .next t ∧ FrameClosed s t b n fr 2 ∧
        holds t s.me.vt.toNat s.me.ectx.toNat s.me.ectx.toNat ((agent 3 + 1) % 2 ^ 32)) ∧
    ∀ d a c sc : Nat, s.me.ectx = 0 → s.rs a = ownLocal low → agent 3 < 2 ^ 32 →
      let h := agent 1
      let x := h / 64 * 64
      let one := ListAt s b n fr h 0 ∧ word s (x + 56) = 0
      (h = 0 →
        ∃ u : State, exec (.rollback d a c sc) s = .next (u.long [.s d 0]) ∧ holds u 0 0 0 (agent 3)) ∧
      (one → s.rs c ≤ word s (x + 48) →
        ∃ u : State, exec (.rollback d a c sc) s = .next (u.long [.s d 1]) ∧ ListFreed s u b fr h ∧
          holds u 0 0 0 ((agent 3 + 2 ^ 32 - 1) % 2 ^ 32)) ∧
      (s.mySociety = none →
        (h = 0 → ∃ t : State, exec (.commit a c sc) s = .next t ∧ holds t (agent 0) 0 0 0) ∧
        (one → word s (x + 48) < s.rs c →
          ∃ t : State, exec (.commit a c sc) s = .next t ∧ ListFreed s t b fr h ∧ holds t (agent 0) 0 0 0))

/-- `lqry` (R350): 0 the lowest timestamp of unprocessed work, at or below the launch's timed messages in the inbox and the
virtual times of its strands on the core, 1 sent minus received in the core's colour, 2 the timed messages in the inbox, 3 the
colour; counts and colour are what the core keeps for the launch's society (R314). Without a society the first two are all ones
and 0; any other selector is a bounds fault. -/
def LqryResults : Prop :=
  ∀ (s : State) (d a : Nat),
    let c := s.myCore
    let colour := s.colourOf s.coreNo s.me.slot
    let give := fun (x : Nat) => (Host.Outcome.next (s.long [.s d (BitVec.ofNat 64 x)]) : Host.Outcome State Fault Refusal)
    (s.rs a = 0 → s.mySociety = none → exec (.lqry d a) s = give (2 ^ 64 - 1)) ∧
    (s.rs a = 1 → s.mySociety = none → exec (.lqry d a) s = give 0) ∧
    (∀ k y, s.rs a = 0 → s.mySociety = some y → s.me.slot = some k → ∃ low, exec (.lqry d a) s = give low ∧ low ≤ 2 ^ 64 - 1 ∧
      (∀ x ∈ c.inbox, x.msg.timed = true → (c.tableOwner = some k ∨ x.msg.slot = k) → k < 4096 → low ≤ x.msg.ts) ∧
      ∀ i, i < 4 → (s.hartAt (8 * s.coreNo + i)).occ = true → (s.hartAt (8 * s.coreNo + i)).slot = some k →
        low ≤ (s.hartAt (8 * s.coreNo + i)).vt.toNat) ∧
    (∀ k y, s.rs a = 1 → s.mySociety = some y → s.me.slot = some k →
      let t := s.tally s.coreNo k
      exec (.lqry d a) s = .next (s.long [.s d
        (BitVec.ofNat 64 (t.sent.getD t.colour 0) - BitVec.ofNat 64 (t.received.getD t.colour 0))])) ∧
    (s.rs a = 2 → exec (.lqry d a) s = give (c.inbox.filter (fun m => m.msg.ts != 2 ^ 64 - 1)).length) ∧
    (s.rs a = 3 → exec (.lqry d a) s = give colour) ∧
    (3 < s.rs a → exec (.lqry d a) s = trapOutcome s (s.takeTrap 0x08 (s.rs a)))

end Sys2Proof

/-- Virtual time: events, rollback, commit and the core's floor state (R279 to R282, R345 to R350). -/
def Obligations.VirtualTimeResults : Prop := VirtualTimeInstructions ∧ VirtualTimeCompletes ∧ LqryResults

namespace Sys2Proof

/-! ### Sysregs and the system operations of memory (R98, R405 to R422) -/

/-- The sysregs that a strand in supervisor mode reads and what each holds (R407 to R409, R412, R413); `srd` writes it to
s[d] at issue. -/
def srdTable (s : State) : List (Nat × Nat) :=
  let h := s.me
  let c := s.myCore
  let u := s.hub
  let floor := match s.mySociety with
    | some x => x.floor.toNat
    | none => 2 ^ 64 - 1
  [(0x000, h.fflags), (0x001, h.frm), (0x002, h.vt.toNat), (0x003, floor), (0x004, h.ectx.toNat),
    (0x005, h.rngseed.toNat), (0x006, h.rngstream.toNat), (0x007, h.ecapdef.toNat)] ++
  [(0x009, h.retired.toNat), (0x00B, h.lc.toNat),
    (0x00C, (if h.sup then 2 ^ 28 else 0) + u.pkg * 2 ^ 13 + s.coreNo * 2 ^ 2 + s.strandNo % 4), (0x00D, h.mcause)] ++
  [(0x010, c.tagen.toNat % 2 ^ 64), (0x011, c.tagen.toNat / 2 ^ 64 % 2 ^ 64), (0x012, c.tagen.toNat / 2 ^ 128 % 2 ^ 64),
    (0x013, c.tagen.toNat / 2 ^ 192 % 2 ^ 64), (0x014, c.tagpnd.toNat % 2 ^ 64), (0x015, c.tagpnd.toNat / 2 ^ 64 % 2 ^ 64),
    (0x016, c.tagpnd.toNat / 2 ^ 128 % 2 ^ 64), (0x017, c.tagpnd.toNat / 2 ^ 192 % 2 ^ 64)] ++
  [(0x100, h.tvec), (0x101, h.tcause), (0x102, h.tepc), (0x103, h.tval.toNat), (0x104, h.tstatus), (0x105, h.tresume),
    (0x200, h.asid), (0x203, u.asidtab.toNat), (0x204, u.migctl.toNat), (0x205, u.imgbase.toNat),
    (0x206, u.ckdctl.toNat), (0x207, u.mcgtab.toNat), (0x209, c.msgdrop)]

/-- The sysregs that `swr` in supervisor mode writes in the strand, and the strand after each (R81, R82, R407, R408, R410,
R411): the fields of the map, with reserved bits ignored. -/
def swrTable (h : Hart) (x : Word) : List (Nat × Hart) :=
  let n := x.toNat
  [(0x000, { h with fflags := n % 2 ^ 5 }), (0x001, { h with frm := n % 2 ^ 2 }), (0x002, { h with vt := x }),
    (0x004, { h with ectx := x }), (0x005, { h with rngseed := x }), (0x006, { h with rngstream := x }),
    (0x007, { h with ecapdef := x }), (0x009, { h with retired := x }), (0x00A, { h with mstatus := n % 2 ^ 18 }),
    (0x00B, { h with lc := x }), (0x00D, { h with mcause := n % 2 ^ 8 })] ++
  [(0x100, { h with tvec := n / 2 ^ 3 * 2 ^ 3 }), (0x101, { h with tcause := n % 2 ^ 8 }),
    (0x102, { h with tepc := n / 2 ^ 2 * 2 ^ 2 }), (0x103, { h with tval := x }), (0x104, { h with tstatus := n % 2 ^ 8 }),
    (0x105, { h with tresume := n / 2 ^ 2 * 2 ^ 2 }), (0x200, { h with asid := n % 2 ^ 12 })]

/-- Reads and writes of sysregs by a strand in supervisor mode (R405, R407): `srd` writes the register's value to s[d] and
changes nothing else; `swr` changes the register's writable fields and nothing else. -/
def SysregsInSupervisorMode : Prop :=
  ∀ (s : State) (d a : Nat), s.me.sup = true →
    let x : Word := s.me.readS a
    let put := fun (n : Nat) => (Host.Outcome.next (s.setMe (s.me.writeS d (BitVec.ofNat 64 n))) :
      Host.Outcome State Fault Refusal)
    (∀ e ∈ srdTable s, exec (.srd d e.1) s = put e.2) ∧
    (s.me.snap = none → exec (.srd d 0x00A) s = put s.me.mstatus) ∧
    exec (.srd d 0x008) s = put ((s.cycle - Store.get 0 s.hub.cycles (s.coreNo / 384)) % 2 ^ 64) ∧
    (s.mySociety = none → exec (.swr a 0x201) s = .next s ∧ exec (.swr a 0x202) s = .next s ∧ exec (.srd d 0x201) s = put 0 ∧ exec (.srd d 0x202) s = put (2 ^ 64 - 1)) ∧
    (∀ y, s.mySociety = some y → exec (.srd d 0x201) s = put y.interval ∧ exec (.srd d 0x202) s = put y.delta.toNat) ∧
    (∀ e ∈ swrTable s.me x, exec (.swr a e.1) s = .next (s.setMe e.2)) ∧
    (let lpn := x.toNat / 2 ^ 16 % 2 ^ 29 * 2 ^ 16
     let hub := fun (u : Hub) => (Host.Outcome.next { s with hub := u } : Host.Outcome State Fault Refusal)
     exec (.swr a 0x203) s = hub { s.hub with asidtab := BitVec.ofNat 64 lpn } ∧
     exec (.swr a 0x204) s = hub { s.hub with
       migctl := BitVec.ofNat 64 (x.toNat / 2 ^ 16 % 2 ^ 35 * 2 ^ 16 + x.toNat % 2) } ∧
     exec (.swr a 0x205) s = hub { s.hub with imgbase := BitVec.ofNat 64 (x.toNat % 2 ^ 55) } ∧
     exec (.swr a 0x206) s = hub { s.hub with
       ckdctl := BitVec.ofNat 64 (lpn + x.toNat / 2 ^ 2 % 2 * 2 ^ 2 + x.toNat % 2) } ∧
     exec (.swr a 0x207) s = hub { s.hub with mcgtab := BitVec.ofNat 64 lpn }) ∧
    exec (.swr a 0x209) s = .next (s.setCore s.coreNo { s.myCore with msgdrop := x.toNat % 2 ^ 32 }) ∧
    ∀ i : Nat, i < 4 →
      (s.me.slot ≠ none → s.myCore.tableOwner = s.me.slot →
        (∃ r : BitVec 256, exec (.swr a (0x010 + i)) s = .next (s.setCore s.coreNo { s.myCore with tagen := r }) ∧
          ∀ k, k < 256 → r.getLsbD k = if k / 64 = i then x.getLsbD (k % 64) else s.myCore.tagen.getLsbD k) ∧
        ∃ r : BitVec 256, exec (.swr a (0x014 + i)) s = .next (s.setCore s.coreNo { s.myCore with tagpnd := r }) ∧
          ∀ k, k < 256 → r.getLsbD k = if k / 64 = i then x.getLsbD (k % 64) else s.myCore.tagpnd.getLsbD k) ∧
      ((s.me.slot = none ∨ s.myCore.tableOwner ≠ s.me.slot) →
        exec (.swr a (0x010 + i)) s = trapOutcome s (s.takeTrap 0x07 (0x010 + i)) ∧
        exec (.swr a (0x014 + i)) s = trapOutcome s (s.takeTrap 0x07 (0x014 + i)))

/-- User mode (R50, R98, R406, R417): the bundle checks raise privileged instruction (0x02) for the supervisor
instructions and for the sysregs that user mode may not read or write, illegal instruction (0x01) for an undefined sysreg
and for a write of one without a writable field, and pass the sysregs that user mode may use. A write of FLOORINT or FLOORDELTA
in a launch without a society passes, and is ignored (R412; that it goes before R406 is log 107). -/
def PrivilegeOfInstructions : Prop :=
  ∀ (h : Hart) (d a b sc : Nat),
    (h.sup = false →
      (∀ i, i = Instr.eret ∨ i = Instr.halt ∨ i = Instr.tlbi a b sc ∨ i = Instr.agist a ∨ i = Instr.muster a ∨
        i = Instr.pgmig a b → instrFault h false i = some 0x02) ∧
      (∀ n ∈ [0x100, 0x101, 0x102, 0x103, 0x104, 0x105, 0x200, 0x201, 0x203, 0x204, 0x205, 0x206, 0x207, 0x208, 0x209],
        instrFault h false (.srd d n) = some 0x02 ∧ instrFault h false (.swr a n) = some 0x02) ∧
      (∀ n ∈ [0x002, 0x004, 0x009, 0x202],
        instrFault h false (.srd d n) = none ∧ instrFault h false (.swr a n) = some 0x02) ∧
      (∀ n ∈ [0x000, 0x001, 0x005, 0x006, 0x007, 0x00A, 0x00B, 0x00D, 0x010, 0x011, 0x012, 0x013, 0x014, 0x015, 0x016, 0x017],
        instrFault h false (.srd d n) = none ∧ instrFault h false (.swr a n) = none) ∧
      (∀ n ∈ [0x201, 0x202], instrFault h false (.swr a n) false = none) ∧
      ∀ n ∈ [0x003, 0x008, 0x00C], instrFault h false (.srd d n) = none ∧ instrFault h false (.swr a n) = some 0x01) ∧
    (h.sup = true → ∀ i, i = Instr.eret ∨ i = Instr.halt ∨ i = Instr.tlbi a b sc ∨ i = Instr.agist a ∨ i = Instr.muster a ∨
      i = Instr.pgmig a b → instrFault h false i = none) ∧
    ∀ n, n < 0x400 → (0x00D < n ∧ n < 0x010 ∨ 0x017 < n ∧ n < 0x100 ∨ 0x105 < n ∧ n < 0x200 ∨ 0x209 < n) →
      instrFault h false (.srd d n) = some 0x01 ∧ instrFault h false (.swr a n) = some 0x01

/-- A bundle whose checks fail has no effect but the trap that they raise (R50, R51). -/
def FailedBundleChecksTrap : Prop :=
  ∀ (s : State) (e : Fetched) (c v : Nat), s.agenda = [] → s.issuing = true → s.atIssue.bundleNow = some e →
    s.tick.gated = false → e.fault = none → s.atIssue.me.word = 0 →
    bundleFault s.atIssue.me s.isDrover e.w0 e.w1 s.atIssue.mySociety.isSome = some (c, v) →
    step s = thenDo (trapOutcome s.atIssue (s.atIssue.takeTrap c v)) (fun t => .next t.yieldSlot)

end Sys2Proof

/-- Sysregs and privilege (R50, R98, R405 to R413, R417). -/
def Obligations.SysregsAndPrivilege : Prop :=
  SysregsInSupervisorMode ∧ PrivilegeOfInstructions ∧ FailedBundleChecksTrap

namespace Sys2Proof

/-- `tlbi` (R238, R418) in supervisor mode with no access under way: every translation it names in a structure it reaches is gone,
and every other stays, and nothing else changes but walks in flight, which may be dropped; a reserved bit of s[a], and without
ALLVA an address of 2^55 or above, is a bounds fault. -/
def TlbiResults : Prop :=
  ∀ (s : State) (a b sc : Nat), s.me.sup = true →
    let x := s.rs a
    let va := s.rs b
    let named := fun (t : Tlb) =>
      (bit x 12 = true ∨ t.asid = x % 2 ^ 12) ∧
      (bit x 13 = true ∨ (if t.kind = 2 then t.page = va / 2 ^ (if t.level = 3 then 42 else 29)
        else if t.large = true then t.page / 8192 = va / 2 ^ 29
        else t.page = va / 2 ^ 16 ∨ (t.group = true ∧ t.page / 32 = va / 2 ^ 21)))
    (x < 2 ^ 14 → (bit x 13 = true ∨ va < 2 ^ 55) → s.stores = [] → s.atomics = [] → s.nears = [] →
      ∃ t : State, exec (.tlbi a b sc) s = .next t ∧ t = { s with tlbs := t.tlbs, walks := t.walks } ∧
        (∀ y ∈ t.walks, y ∈ s.walks) ∧ (∀ y ∈ s.walks, (bit x 12 = true ∨ y.asid = x % 2 ^ 12) → 4 ≤ sc →
          (bit x 13 = true ∨ y.page / 8192 = va / 2 ^ 29) → y ∉ t.walks) ∧
        (∀ y ∈ t.tlbs, y ∈ s.tlbs) ∧ (∀ y ∈ s.tlbs, ¬named y → y ∈ t.tlbs) ∧
        (4 ≤ sc → ∀ y ∈ t.tlbs, ¬named y) ∧
        (∀ y ∈ t.tlbs, y.kind = 0 → (if sc ≤ 1 then y.unit = s.coreNo else if sc = 2 then y.unit / 16 = s.coreNo / 16
          else if sc = 3 then y.unit / 384 = s.coreNo / 384 else True) → ¬named y) ∧
        ∀ y ∈ t.tlbs, (y.kind = 1 ∧ y.unit = s.coreNo / 16) ∨ (y.kind = 2 ∧ y.unit = s.coreNo / 384) → ¬named y) ∧
    (2 ^ 14 ≤ x → exec (.tlbi a b sc) s = trapOutcome s (s.takeTrap 0x08 x)) ∧
    (x < 2 ^ 14 → bit x 13 = false → 2 ^ 55 ≤ va → exec (.tlbi a b sc) s = trapOutcome s (s.takeTrap 0x08 va))

/-- Agistment leases (R248, R249, R419 to R421) in supervisor mode: a record with this package's id as lender is offered, or
refused with the reason as TVAL; another's is asked of the lender while the strand waits, its backing kept for it (from the
request on is the model's choice, log 87), and the answer to the take of that record, which is the environment's (log 19), lets
it go on or refuses it; `muster` withdraws an offer, musters a lent lease, returns a held one, and does nothing to the others. -/
def LeaseInstructions : Prop :=
  ∀ (s : State) (a p : Nat) (u : State) (w : List Nat), s.me.sup = true → s.leaseRecord (s.rs a) = .ok (u, w, p) →
    let lender := nth w 0 / 2 ^ 32 % 2 ^ 15
    let t : Take := { hart := u.hart, words := w, recPlace := p, since := u.cycle }
    ((∀ e ∈ s.me.taken ++ u.me.taken, State.takesRecord e.1 w p = false) →
      (lender = u.hub.pkg → u.offerReason w = 0 → exec (.agist a) s = .next (u.makeOffer w p)) ∧
      (lender = u.hub.pkg → u.offerReason w ≠ 0 →
        exec (.agist a) s = trapOutcome s (s.takeTrap 0x08 (u.offerReason w))) ∧
      (lender ≠ u.hub.pkg → u.asksFor w p = true → exec (.agist a) s = .next s.hold) ∧
      (lender ≠ u.hub.pkg → u.asksFor w p = false → u.takeReason w p ≠ 0 →
        exec (.agist a) s = trapOutcome s (s.takeTrap 0x08 (u.takeReason w p))) ∧
      (lender ≠ u.hub.pkg → u.asksFor w p = false → u.takeReason w p = 0 →
        (u.flowHeld .control (State.takeLender t) = true → exec (.agist a) s = .next s.hold) ∧
        (u.flowHeld .control (State.takeLender t) = false →
          let v := u.takeFrames (u.backingFrames (State.leaseOf w p u.hub.pkg 5))
          exec (.agist a) s = .next (State.hold { v with hub := { v.hub with takes := v.hub.takes ++ [t] } })))) ∧
    (∀ e : Take × Nat, s.me.taken.find? (fun e => State.takesRecord e.1 w p && e.2 != 0) = some e →
      exec (.agist a) s = trapOutcome (s.forgetTake e) ((s.forgetTake e).takeTrap 0x08 e.2)) ∧
    (∀ e : Take × Nat, s.me.taken.find? (fun e => State.takesRecord e.1 w p && e.2 != 0) = none → lender ≠ u.hub.pkg →
      u.me.taken.find? (fun e => State.takesRecord e.1 w p) = some e → exec (.agist a) s = .next (u.forgetTake e)) ∧
    (∀ l : AgistLease, u.hub.agist.find? (fun x => x.id == nth w 0 % 2 ^ 32 && x.lender == lender) = some l →
      (l.state = 1 → exec (.muster a) s = .next ((u.giveFrames (State.lentFrames l)).freeLease l)) ∧
      (l.state = 2 → exec (.muster a) s = .next (u.setLease { l with state := 3, since := u.cycle })) ∧
      (l.state = 5 → exec (.muster a) s = .next ((u.abandonPlacements l).setLease { l with state := 6 })) ∧
      (l.state = 3 ∨ l.state = 4 ∨ l.state = 6 → exec (.muster a) s = .next u)) ∧
    (u.hub.agist.find? (fun x => x.id == nth w 0 % 2 ^ 32 && x.lender == lender) = none →
      exec (.muster a) s = trapOutcome s (s.takeTrap 0x08 (s.rs a)))

/-- A lease record that the issuing strand may read and write, at place `p` (R419), with nothing on its way in memory. -/
def RecordAt (s : State) (va p : Nat) : Prop :=
  ∃ f, va % 64 = 0 ∧ s.GlobalAt va 64 f ∧ p = placeIn f va ∧ s.stores = [] ∧ s.atomics = [] ∧ s.nears = [] ∧
    s.poison = [] ∧ s.hub.fenced = [] ∧ s.hub.moves = []

/-- Where `agist` and `muster` complete (R419, R421), by the record's eight words: an offer with nothing to refuse it, a take
that the lender has accepted, and a muster of a lease in any of its states. -/
def LeaseInstructionsComplete : Prop :=
  ∀ (s : State) (a p : Nat), s.me.sup = true → RecordAt s (s.rs a) p →
    let w := (List.range 8).map (fun i => s.readAt (p + 8 * i) 8)
    let lender := nth w 0 / 2 ^ 32 % 2 ^ 15
    let state := fun (t : State) => bits (t.readAt (p + 0x38) 8) 8 3
    ((∀ e ∈ s.me.taken, State.takesRecord e.1 w p = false) → lender = s.hub.pkg → s.offerReason w = 0 →
      ∃ t : State, exec (.agist a) s = .next t ∧ t = s.makeOffer w p ∧ state t = 1 ∧
        t.hub.agist = s.hub.agist ++ [State.leaseOf w p 0 1] ∧
        ∀ i, i < nth w 2 / 65536 → s.hub.pkg * 2 ^ 29 + nth w 1 / 65536 + i ∈ t.hub.usedFrames) ∧
    (∀ x : Take, lender ≠ s.hub.pkg → s.me.taken = [(x, 0)] → State.takesRecord x w p = true →
      ∃ t : State, exec (.agist a) s = .next t ∧ t.me.taken = [] ∧ t.hub = s.hub ∧ t.mem = s.mem) ∧
    ∀ l : AgistLease, s.hub.agist.find? (fun x => x.id == nth w 0 % 2 ^ 32 && x.lender == lender) = some l → l.recPlace = p →
      (l.state = 1 → ∃ t : State, exec (.muster a) s = .next t ∧ state t = 0 ∧
        (∀ i, i < l.size / 65536 → l.lender * 2 ^ 29 + l.lbase / 65536 + i ∉ t.hub.usedFrames)) ∧
      (l.state = 2 → ∃ t : State, exec (.muster a) s = .next t ∧ state t = 3 ∧ { l with state := 3, since := s.cycle } ∈ t.hub.agist) ∧
      (l.state = 5 → ∃ t : State, exec (.muster a) s = .next t ∧ state t = 6 ∧ { l with state := 6 } ∈ t.hub.agist) ∧
      (l.state = 3 ∨ l.state = 4 ∨ l.state = 6 → exec (.muster a) s = .next s)

/-- The tables of an address space map a virtual address to a normal base page of this package's HBM (R227 to R231): the
root is valid, the die's walk cache holds the pointers of levels 3 and 2, the leaf `e` stands at `at_`, and nothing goes ahead
of the walk's reads on their path. -/
def MappedBy (s : State) (die asid va at_ e : Nat) : Prop :=
  let word := fun (p : Nat) => s.readAt p 8
  let table := fun (p : Nat) => (localTier (localOfPlace p) = 1 ∨ localTier (localOfPlace p) = 3) ∧ s.placeBusy p = false
  let rootAt := placeOf s.hub.pkg (bits s.hub.asidtab.toNat 16 29 * 65536 + 8 * asid)
  let cached := fun (level : Nat) => s.tlbs.find? (fun t =>
    t.kind == 2 && t.unit == die && t.asid == asid && t.level == level && t.page == va / 2 ^ (if level = 3 then 42 else 29))
  table rootAt ∧ bit (word rootAt) 0 = true ∧ s.tablePageOk (word rootAt) = true ∧
  (∃ t3 t2 : Tlb, cached 3 = some t3 ∧ cached 2 = some t2 ∧
    s.tablePageOk t3.entry = true ∧ s.tablePageOk t2.entry = true ∧
    (let at2 := entryPage t3.entry + 8 * bits va 29 13
     table at2 ∧ bits (word at2) 1 3 = 0) ∧
    at_ = entryPage t2.entry + 8 * bits va 16 13) ∧
  table at_ ∧ word at_ = e ∧ bit e 0 = true ∧ bits e 1 3 ≠ 0 ∧ bits e 13 3 = 0 ∧ bits e 9 2 = 0 ∧ bits e 6 3 = 1 ∧
  bits e 16 44 / 2 ^ 29 = s.hub.pkg ∧ bits e 16 44 % 2 ^ 29 < 2 ^ 23

/-- Where `pgmig` completes (R422): a mapped, movable page of HBM that is not moving, for a tier of this package with a free
frame, enters the engine with that frame as its destination. -/
def PageMigrationCompletes : Prop :=
  ∀ (s : State) (a b at_ e : Nat), s.me.sup = true → s.inPaddock s.hub.pkg = true → s.rs a < 2 ^ 55 →
    MappedBy s (s.coreNo / 384) s.me.asid (s.rs a) at_ e → bit e 11 = false → (∀ m ∈ s.hub.moves, m.leafAddr ≠ at_) →
    s.hub.moves.length < 8 →
    let o := s.rs b
    let first := s.hub.pkg * 2 ^ 29 + (if o % 8 = 1 then 0 else 2 ^ 26)
    let count := if o % 8 = 1 then 2 ^ 23 else 6 * 2 ^ 24
    (o % 8 = 1 ∨ o % 8 = 3) → o / 2 ^ 4 % 2 ^ 12 = 0 → o / 2 ^ 16 = s.hub.pkg → s.hub.usedFrames.length < count →
    ∃ (t : State) (dst : Nat), exec (.pgmig a b) s = .next t ∧ first ≤ dst ∧ dst < first + count ∧
      dst ∉ s.hub.usedFrames ∧ t.hub.usedFrames = s.hub.usedFrames ++ [dst] ∧ t.mem = s.mem ∧
      t.hub.moves = s.hub.moves ++ [
        { asid := s.me.asid, va := s.rs a / 65536 * 65536, leafAddr := at_, leaf := e, src := bits e 16 44 * 65536,
          dst := dst * 65536, dstTier := o % 8, force := bit o 3 }]

/-- `pgmig` (R422) in supervisor mode: a movable page that is not moving enters the engine with its leaf, its destination
and its options, while fewer than eight moves are in flight; malformed options and a page that fails are bounds faults. -/
def PageMigrationResults : Prop :=
  ∀ (s : State) (a b : Nat), s.me.sup = true →
    let va := s.rs a
    let o := s.rs b
    let ok := 1 ≤ o % 8 ∧ o % 8 ≤ 3 ∧ o / 2 ^ 4 % 2 ^ 12 = 0 ∧ o < 2 ^ 31 ∧
      (if o % 8 = 2 then o / 2 ^ 16 = 0 else s.inPaddock (o / 2 ^ 16 % 2 ^ 15) = true)
    (¬ok → exec (.pgmig a b) s = trapOutcome s (s.takeTrap 0x08 o)) ∧
    (ok → 2 ^ 55 ≤ va → exec (.pgmig a b) s = trapOutcome s (s.takeTrap 0x08 va)) ∧
    ∀ (u : State) (r : Option (Nat × Nat × Bool)), ok → va < 2 ^ 55 → s.walk (s.coreNo / 384) s.me.asid va = .ok (u, r) →
      (r = none → exec (.pgmig a b) s = trapOutcome s (s.takeTrap 0x08 va)) ∧
      ∀ (e at_ : Nat) (large : Bool), r = some (e, at_, large) →
        let fits := large = false ∧ bits e 9 2 = 0 ∧ bit e 11 = false ∧ (bits e 6 3 = 1 ∨ bits e 6 3 = 3)
        (¬fits → exec (.pgmig a b) s = trapOutcome s (s.takeTrap 0x08 va)) ∧
        (fits → u.moving at_ = false → 8 ≤ u.hub.moves.length → exec (.pgmig a b) s = .next s.hold) ∧
        (fits → u.moving at_ = false → u.hub.moves.length < 8 →
          (u.pageDest o (bits e 16 44) = none → exec (.pgmig a b) s = trapOutcome s (s.takeTrap 0x08 va)) ∧
          ∀ (v : State) (dst : Nat) (l : Option AgistLease), u.pageDest o (bits e 16 44) = some (v, dst, l) →
            let m : PageMove :=
              { asid := v.me.asid, va := va / 65536 * 65536, leafAddr := at_, leaf := e, src := bits e 16 44 * 65536,
                dst := dst * 65536, dstTier := o % 8, force := bit o 3, lease := l.map (fun x => x.lender * 2 ^ 32 + x.id) }
            exec (.pgmig a b) s = .next { v with hub := { v.hub with moves := v.hub.moves ++ [m] } })

end Sys2Proof

/-- The system operations of memory (R238, R418 to R422). -/
def Obligations.MemorySystemOperations : Prop :=
  TlbiResults ∧ LeaseInstructions ∧ LeaseInstructionsComplete ∧ PageMigrationResults ∧ PageMigrationCompletes

namespace Sys2Proof

/-! ### The steps of a core and its cluster (R14 to R20, R31, R36, R40, R110 to R115, R286 to R295)

A row without an encoding acts on the operands in `ev`; each statement says what it does where it is enabled. -/

/-- CORE_ISSUE (R15): a free slot goes to exactly one ready strand: the one with the highest counter among the aged ones,
else one of the highest class, in turn within it; its counter is reset, and those of the other ready strands rise. The
drover issues on its own path (R122). While issue is gated, no strand is ready in every second cycle (R442; that it is the odd
ones is log 51), and a strand whose word reads a short result that is still on its way is not ready (R14, R29). -/
def IssueSlotGoesToOneStrand : Prop :=
  ∀ (s : State), s.issuing = false →
    let c := s.ev.core
    let h := fun (j : Nat) => s.hartAt (8 * c + j)
    let ready := fun (j : Nat) => decide (j < 4) && s.canIssue (8 * c + j) && !s.ev.list.contains j
    let turn := fun (j : Nat) => (j + 4 - (s.coreAt c).rrClass.getD (h j).cls 0) % 4
    (s.ev.strand ≠ 4 → (∀ j, ready j = false) → exec .coreIssue s = .next s) ∧
    (s.ev.strand ≠ 4 → (∃ j, ready j = true) → (∀ j, j < 4 → (h j).age < 200000 ∧ (h j).cls < 8) →
      ∃ (j : Nat) (t : State), exec .coreIssue s = .next t ∧ ready j = true ∧ t.hart = 8 * c + j ∧ t.issuing = true ∧
        ((∃ i, ready i = true ∧ 192 ≤ (h i).age) →
          192 ≤ (h j).age ∧ ∀ i, ready i = true → (h i).age ≤ (h j).age ∧ ((h i).age = (h j).age → j ≤ i)) ∧
        ((∀ i, ready i = true → (h i).age < 192) →
          ∀ i, ready i = true → (h i).cls ≤ (h j).cls ∧ ((h i).cls = (h j).cls → turn j ≤ turn i)) ∧
        (∀ i, i < 4 → (t.hartAt (8 * c + i)).age = if ready i && decide (i ≠ j) then (h i).age + 1 else 0) ∧
        t.mem = s.mem ∧ t.hub = s.hub ∧ t.clusters = s.clusters) ∧
    (s.ev.strand = 4 → (s.coreAt c).mailWait = none → (h 4).occ = true → (h 4).halted = false → (h 4).parked = false →
      s.flockIssues (8 * c + 4) = true → s.interlocked (8 * c + 4) = false → s.gated = false →
      ((s.coreAt c).mailbox = none ∨ (s.coreAt c).joins = []) →
      exec .coreIssue s = .next { s with hart := 8 * c + 4, issuing := true }) ∧
    (s.hub.gating = true → s.cycle % 2 = 1 → (∀ k, s.canIssue k = false) ∧ (s.ev.strand ≠ 4 → exec .coreIssue s = .next s)) ∧
    ∀ (k n : Nat) (e : Fetched) (i : Instr), k % 8 < 4 → (s.hartAt k).fetch.find? (fun e => e.addr == (s.hartAt k).pc) = some e →
      bit e.w0 31 = true → (s.hartAt k).word = 0 → decode (payload e.w0) = .ok i → n ∈ sources false i →
      s.cycle < Store.get 0 (s.hartAt k).late n → s.canIssue k = false

/-- Fetch, `herd` and the return of long results (R15, R19, R20, R31, R90, R241): the block of the cluster's next core in turn
that has a request (of its strands the lowest first is the model's choice, log 84), what it brings, how a missing
line is filled where no ECC event comes with it, how strands leave `herd`, and the marker after the last
result. -/
def StrandSteps : Prop :=
  ∀ (s : State),
    let k := 8 * s.ev.core + s.ev.strand
    let h := s.hartAt k
    let done := fun (t : State) => (Host.Outcome.next t : Host.Outcome State Fault Refusal)
    (s.canIssue k = true → h.age = 191 → exec .strandAged s = done (s.setHart k { h with age := 192 })) ∧
    (∀ (i : Nat) (line : List Nat),
      let cl := s.ev.core
      let line? := fun (j : Nat) => (s.clusterAt cl).icache.find? (fun l =>
        l.1 == (s.hartAt j).asid && l.2.1 == (s.hartAt j).pc / 64)
      let waits := fun (j : Nat) => j / 128 = cl ∧ j % 8 < 4 ∧ (s.hartAt j).occ = true ∧ (s.hartAt j).halted = false ∧
        ∀ e ∈ (s.hartAt j).fetch, e.addr ≠ (s.hartAt j).pc
      let turn := fun (j : Nat) => (j / 8 + 16 - (s.clusterAt cl).fetchRr) % 16
      let same := fun (j : Nat) => waits j ∧ (s.hartAt j).asid = (s.hartAt i).asid ∧
        (s.hartAt j).pc / 2 ^ 5 = (s.hartAt i).pc / 2 ^ 5
      (s.clusterAt cl).fetchRr < 16 → waits i → line? i = some ((s.hartAt i).asid, (s.hartAt i).pc / 64, line) →
      (∀ j, waits j → line? j ≠ none → turn i < turn j ∨ (turn i = turn j ∧ i ≤ j)) →
      ∃ t : State, exec .fetchBlockDeliver s = done t ∧ (t.clusterAt cl).fetchRr = (i / 8 + 1) % 16 ∧
        (∀ j, same j → s.mayFetch j = true → (t.hartAt j).fetch = State.bundlesFrom (s.hartAt j).pc line) ∧
        (∀ j, same j → s.mayFetch j = false →
          (t.hartAt j).fetch = [{ addr := (s.hartAt j).pc, w0 := 0, w1 := 0, fault := some (0x05, (s.hartAt j).pc) }]) ∧
        (∀ j, ¬same j → t.hartAt j = s.hartAt j) ∧ t.mem = s.mem) ∧
    (s.fetchers s.ev.core s.ev.val s.ev.addr 6 ≠ [] → s.ev.ecc = 0 →
      (∀ (t : State) (l : List Nat), s.readLine s.ev.core s.ev.val s.ev.addr = .ok (t, l) →
        exec .icacheMissFill s = done (t.fillLine s.ev.core s.ev.val s.ev.addr l)) ∧
      ∀ (f : Nat) (e : Tlb), s.QuietMemory → s.ev.addr < 2 ^ 55 → s.PageAt (16 * s.ev.core) s.ev.val (s.ev.addr / 64 * 64) f →
        s.tlbs.find? (fun t => t.kind == 0 && t.unit == 16 * s.ev.core && t.covers s.ev.val (s.ev.addr / 64 * 64)) = some e →
        bit e.entry 3 = true →
        exec .icacheMissFill s = done (s.fillLine s.ev.core s.ev.val s.ev.addr
          (s.bytesAt (placeIn f (s.ev.addr / 64 * 64)) 64))) ∧
    (∀ t : Nat, h.herd = some t → t + 16 * s.herdCount k ≤ s.cycle →
      exec .herdTimeout s = done (s.setHart k { h with herd := none, herdPassed := true })) ∧
    (h.herd ≠ none →
      (∀ j ∈ s.flockMates k, (s.hartAt j).herd ≠ none ∧ (s.hartAt j).pc = h.pc ∧ (s.hartAt j).asid = h.asid) →
      ∃ t : State, exec .herdRelease s = done t ∧
        (∀ j ∈ s.flockMates k, t.hartAt j = { s.hartAt j with herd := none, herdPassed := true }) ∧
        (∀ j, j ∉ s.flockMates k → t.hartAt j = s.hartAt j) ∧ t.mem = s.mem ∧ t.hub = s.hub) ∧
    ∀ (l m : List LongRes) (r : LongRes), h.longs = l ++ r :: m → s.ev.idx = l.length → r.queued = false →
      r.returned = false →
      let back := fun (x : LongRes) => s.setHart k { h with longs := l ++ { x with returned := true } :: m }
      (s.ev.aux = 0 → (h.parked = false ∨ ∃ x ∈ l ++ m, x.returned = false) → exec .longResultReturn s = done (back r)) ∧
      (s.ev.aux = 0 → h.parked = true → (∀ x ∈ l ++ m, x.returned = true) →
        exec .longResultReturn s = done ((back r).onHart k (fun v => v.marker v.wordAddr))) ∧
      (∀ a p : Nat, s.ev.aux = 4 → h.parked = false → r.src[s.ev.val]? = some a → (s.accessPlaces k a)[s.ev.addr]? = some p →
        s.remote p = true →
        exec .longResultReturn s = done (back { r with fault := if r.fault = none then some (0x0E, a) else r.fault }))

/-- Arbitration of the scratchpads (R110, R111, R113, R115), without an ECC event: the requests that one cycle of local memory
grants claim disjoint banks, and none that an earlier access goes on with; a granted access keeps its further cycles; a
request alone is granted; a cluster scratchpad moves its turn on; a slice of a die scratchpad serves one request. -/
def ArbitrationSteps : Prop :=
  ∀ (s : State), s.ev.aux = 0 →
    let done := fun (t : State) => (Host.Outcome.next t : Host.Outcome State Fault Refusal)
    let c := s.coreAt s.ev.core
    (let l := localReqs s.ev.list.length 0 s.ev.list
     let now := fun (q : PortReq) => q.cycles.headD 0
     ∃ (busy : List (List Nat)) (got : List Nat),
      exec .localMemArbitration s = done (s.setCore s.ev.core { c with portBusy := busy, portGrants := got }) ∧
      (∀ i ∈ got, ∃ q ∈ l, q.idx = i) ∧
      (∀ q ∈ l, q.idx ∈ got → ∀ b ∈ c.portBusy.head?, now q &&& b.headD 0 = 0) ∧
      (∀ q ∈ l, ∀ r ∈ l, q.idx ∈ got → r.idx ∈ got → q.idx ≠ r.idx → now q &&& now r = 0) ∧
      (∀ q ∈ l, q.idx ∈ got → 1 < q.cycles.length → q.cycles.tail ∈ busy) ∧
      (∀ w x : Nat, s.ev.list = [0, w, 1, x] → c.portBusy = [] →
        got = [0] ∧ busy = [] ∧ l.map (·.cycles) = [[2 ^ (x / 8 % 64)]])) ∧
    (let l := spadReqs s.ev.list.length 0 s.ev.list
     let x := s.clusterAt s.ev.core
     ∃ (busy : List (List Nat)) (got : List Nat),
      exec .clusterSpadArbitration s =
        done (s.setCluster s.ev.core { x with portBusy := busy, portGrants := got, rr := (x.rr + 1) % 16 }) ∧
      (∀ i ∈ got, ∃ q ∈ l, q.idx = i) ∧
      ∀ p w o : Nat, s.ev.list = [0, p, w, o] → p ≤ 16 → x.portBusy = [] → got = [0] ∧ busy = []) ∧
    (let l := spadReqs s.ev.list.length 0 s.ev.list
     ∃ got : List (Nat × Nat), exec .dieSpadSliceGrant s = done { s with hub := { s.hub with dieGrants := got } } ∧
      (got.map (·.1)).Nodup ∧
      (∀ e ∈ got, ∃ q ∈ l, q.idx = e.2 ∧ e.1 = 48 * s.ev.core + q.offset / 256 % 48) ∧
      ∀ q ∈ l, ∃ e ∈ got, e.1 = 48 * s.ev.core + q.offset / 256 % 48)

/-- A continuation has been picked up from a record's words, with the record slot `a` (R35, R37). That it runs in user mode is
the model's choice (log 31). -/
def PickedUp (w : List Nat) (a : Nat) (g : Hart) : Prop :=
  g.occ = true ∧ g.pc = nth w 0 ∧ g.vt.toNat = nth w 1 ∧ g.nowS 31 = nth w 2 ∧ g.nowS 1 = nth w 3 ∧ g.nowS 2 = nth w 4 ∧
    g.nowS 3 = nth w 5 ∧ g.nowS 4 = nth w 6 ∧ (∀ n, 4 < n → n ≠ 31 → g.nowS n = 0) ∧ g.cls = nth w 7 % 8 ∧
    g.level = nth w 7 / 8 % 8 ∧ g.f = [] ∧ g.v = [] ∧ g.sup = false ∧ g.record = some a

/-- The eight words of a record in memory. -/
def recordWords (s : State) (p : Nat) : List Nat := (List.range 8).map (fun i => s.readAt (p + 8 * i) 8)

/-- The record's words are well-formed (R38). -/
def RecordOk (w : List Nat) : Prop := nth w 0 % 8 = 0 ∧ nth w 7 < 2 ^ 32 ∧ nth w 7 / 2 ^ 6 % 2 ^ 10 = 0

/-- Where records are picked up (R36, R37, R294, R295, R443): by an idle strand of a flock with a free pool slot, in user
mode (log 31), from its core's or its cluster's; a core with nothing else steals one; a `yield` gets its slot. -/
def RecordsArePickedUp : Prop :=
  ∀ (s : State) (f : Flock) (free : Nat),
    let c := s.ev.core
    let k := 8 * c + s.ev.strand
    let x := s.clusterAt (c / 16)
    let goes := fun (i : Instr) (k : Nat) (w : List Nat) (a : Nat) (P : State → Prop) =>
      ∃ t : State, exec i s = .next t ∧ PickedUp w a (t.hartAt k) ∧ P t
    let pool := poolAddr f.cluster free
    let has := fun (k : Nat) => s.flockOf k = some f ∧ f.pool.find? (fun i => !(s.clusterAt f.cluster).poolBusy.contains i) = some free
    s.ev.strand < 4 → c < 1536 → f.cluster < 96 → free < 256 → (∃ e ∈ (s.clusterAt f.cluster).pool, e.1 = free) →
    s.QuietMemory → (s.coreAt c).inbox = [] →
    (∀ j : Nat, has k → (s.dequeFor c k).getLast? = some j →
      let w := recordWords s (dequePlace c ((s.coreAt c).dqHead + j))
      RecordOk w → goes .continuationPickup k w pool (fun t =>
        (t.coreAt c).dqCount + 1 = (s.coreAt c).dqCount ∧ t.readAt (poolPlace f.cluster free) 64 = joinLanes 64 w)) ∧
    (∀ (cl i : Nat) (l : List (Nat × Nat)), s.dequeFor c k = [] → s.readyFor k = some (poolAddr cl i, (s.hartAt k).slot.getD 0) →
      x.ready = (poolAddr cl i, (s.hartAt k).slot.getD 0) :: l → cl < 96 → i < 256 →
      let w := recordWords s (poolPlace cl i)
      RecordOk w → some (nth w 7 / 2 ^ 16) = (s.hartAt k).slot →
      goes .continuationPickup k w (poolAddr cl i) (fun t => (t.clusterAt (c / 16)).ready = l)) ∧
    (∀ j : Nat, has k → s.dequeFor c k = [] → s.readyFor k = none → (s.clusterDequeFor (c / 16) k).head? = some j →
      let w := recordWords s (clusterDequePlace (c / 16) (x.cdHead + j))
      RecordOk w → goes .continuationPickup k w pool (fun t => (t.clusterAt (c / 16)).cdCount + 1 = x.cdCount)) ∧
    (∀ v k' j : Nat, s.maySteal c = true → s.stealFrom c = some (v, k', j) → has k' →
      let w := recordWords s (dequePlace v ((s.coreAt v).dqHead + j))
      RecordOk w → goes .workSteal k' w pool (fun t => (t.coreAt v).dqCount + 1 = (s.coreAt v).dqCount)) ∧
    ((s.hartAt k).susp = some .yield_ → (s.hartAt k).waitSlot = true → (s.hartAt k).record = none → has k →
      ∃ t : State, exec .recordPoolSlotFree s = .next t ∧ (t.hartAt k).occ = false ∧
        nth (recordWords t (poolPlace f.cluster free)) 0 = (s.hartAt k).npc % 2 ^ 64 / 8 * 8 ∧
        (pool, (s.hartAt k).slot.getD 0) ∈ (t.clusterAt f.cluster).ready)

/-- How an idle strand takes work (R36 to R40, R286, R288, R294, R295): a deliverable message before the newest record of its
core's deque, before the oldest address of its cluster's ready queue, before the oldest record of its cluster's deque, after
untaken messages have been discarded (R289); a handler starts at its entry with the message in s1, s2 and v31, in
user mode, which is log 31; a suspension that waited for a slot is made when one is free. -/
def WorkSteps : Prop :=
  ∀ (s : State), s.ev.strand < 4 →
    let k := 8 * s.ev.core + s.ev.strand
    let done := fun (t : State) => (Host.Outcome.next t : Host.Outcome State Fault Refusal)
    let r := s.dropUnreachable s.ev.core
    let own := (r.dequeFor (k / 8) k).getLast?
    (∀ (x : InMsg) (t : Nat) (e : HandlerEntry), r.handlerStrand k = true → r.chooseMessage (k / 8) = some (x, t, e) →
      ∃ u : State, exec .messageDeliver s = done u ∧ exec .continuationPickup s = done u ∧
        let g := u.hartAt k
        g.occ = true ∧ g.pc = e.pc ∧ g.nowS 1 = x.msg.ts % 2 ^ 64 ∧ g.nowS 2 = x.msg.hdr % 2 ^ 64 ∧
        (∀ n, n ≠ 1 → n ≠ 2 → g.nowS n = 0) ∧ g.readV 31 = BitVec.ofNat 1024 (joinLanes 64 x.msg.payload) ∧
        g.vt = (if e.timed then BitVec.ofNat 64 x.msg.ts else BitVec.allOnes 64) ∧ g.cls = e.prio ∧
        g.latch = some x.msg ∧ g.handlerTag = some t ∧ g.mcause = (if t = x.msg.tag then 0 else 1) ∧ g.sup = false ∧
        u.mem = s.mem) ∧
    (∀ (j : Nat) (t : State), r.deliver k = none → own = some j → r.takeDeque (k / 8) k j = .ok t →
      exec .continuationPickup s = done t) ∧
    (∀ (e : Nat × Nat) (t : State), r.deliver k = none → own = none → r.readyFor k = some e → r.takeReady k e = .ok t →
      exec .continuationPickup s = done t) ∧
    (∀ (j : Nat) (t : State), r.deliver k = none → own = none → r.readyFor k = none →
      (r.clusterDequeFor (k / 128) k).head? = some j → r.takeClusterDeque (k / 128) k j = .ok t →
      exec .continuationPickup s = done t) ∧
    (∀ (v j i : Nat) (t : State), s.maySteal s.ev.core = true → s.stealFrom s.ev.core = some (v, j, i) →
      s.takeDeque v j i = .ok t → exec .workSteal s = done t ∧ v / 16 = s.ev.core / 16 ∧ v ≠ s.ev.core ∧ j / 8 = s.ev.core ∧
        s.deliver j = none ∧ s.readyFor j = none ∧ s.clusterDequeFor (j / 128) j = []) ∧
    (∀ (l m : List InMsg) (x : InMsg) (t : Nat), (s.coreAt s.ev.core).inbox = l ++ x :: m → s.ev.idx = l.length →
      x.since = some t → t + 65536 ≤ s.cycle →
      exec .messageAged s =
        done (s.setCore s.ev.core { s.coreAt s.ev.core with inbox := l ++ { x with aged := true } :: m })) ∧
    ∀ (p : Susp) (u : State), (s.hartAt k).susp = some p → (s.hartAt k).waitSlot = true →
      (let v : State := ({ s with hart := k } : State).setHart k { s.hartAt k with waitSlot := false, susp := none }
       v.runSusp (s.hartAt k).npc p = .ok u) →
      (u.hartAt k).flow ≠ .wait → exec .recordPoolSlotFree s = done { u with hart := s.hart }

end Sys2Proof

/-- The steps of a core and its cluster where they are enabled (R15, R19, R20, R31, R40, R111, R113, R115, R286 to R295). -/
def Obligations.CoreAndClusterSteps : Prop :=
  IssueSlotGoesToOneStrand ∧ StrandSteps ∧ ArbitrationSteps ∧ WorkSteps ∧ RecordsArePickedUp

namespace Sys2Proof

/-! ### The steps of the drover, of the homes of accesses and of the matrix unit (R116 to R126, R141 to R146, R215, R256) -/

/-- A move may read and write `n` bytes at a virtual address, in the page at frame `f` (R148, R241). -/
def MayMove (s : State) (m : Move) (va n f : Nat) : Prop :=
  va + n ≤ 2 ^ 55 ∧ va % 65536 + n ≤ 65536 ∧ s.PageAt (m.hart / 8) m.asid va f ∧
    ∃ (k : Nat) (l : Launch) (e : Lease), m.launch = some k ∧ s.launchAt k = some l ∧ e ∈ l.ranges ∧ e.r = true ∧
      e.w = true ∧ e.base ≤ va ∧ va + n ≤ e.base + e.size

/-- A move has a row to move next. -/
def MovesRows (m : Move) (plane : Bool) : Prop :=
  m.kind = .tile plane ∧ m.active = true ∧ m.stopped = false ∧ m.row < m.rows

/-- A move's number comes after the number of the core's last row, as ticket numbers wrap (R116, R117). -/
def AfterRow (s : State) (c : Nat) (m : Move) : Prop :=
  m.seq ≠ (s.coreAt c).rrMove ∧ (m.seq + 2 ^ 32 - (s.coreAt c).rrMove) % 2 ^ 32 < 2 ^ 31

/-- The move is the next in turn of a core's moves with rows left (R116): the first after the number of the last row, or the
first of all where none comes after it. -/
def NextInTurn (s : State) (c : Nat) (m : Move) : Prop :=
  ∃ l1 l2 : List Move, (s.coreAt c).moves = l1 ++ m :: l2 ∧
    let waits := fun (x : Move) => x.active = false ∨ x.stopped = true ∨ x.total ≤ x.row ∨ ∃ va, x.kind = .pageIn va
    ((AfterRow s c m ∧ ∀ x ∈ l1, waits x ∨ ¬AfterRow s c x) ∨
      ((∀ x ∈ l1, waits x) ∧ ¬AfterRow s c m ∧ ∀ x ∈ l2, waits x ∨ ¬AfterRow s c x))

/-- Tile moves (R116, R118, R119, R121, R148, R152): the next queued move starts while fewer than four are active, unless its
descriptor is malformed; of the active moves with rows left, one in turn moves its bytes from the source row to the
destination row, or fails and writes nothing; a move whose rows are all written is complete. A `pgin` of a page that is in
HBM already completes at its start. Which value a byte has that an earlier row of an unordered move has written over is a
free value (R120, log 4): the last clause speaks of a row whose source no earlier row has written over. -/
def TileMoveSteps : Prop :=
  ∀ (s : State) (m : Move),
    let c := s.ev.core
    let done := fun (t : State) => (Host.Outcome.next t : Host.Outcome State Fault Refusal)
    (∀ plane : Bool, s.nextQueued c = some m → m.kind = .tile plane →
      (m.tileOk plane = true → exec .tileMoveStart s = done (s.setMove c { m with active := true })) ∧
      (m.tileOk plane = false → exec .tileMoveStart s = done (s.failAt c m 0x01 m.descAddr))) ∧
    (s.nextQueued c = some m → m.kind = .gather → m.gatherOk (s.routeOk m.route) = true → m.ivm = true →
      exec .tileMoveStart s = done (s.setMove c { m with active := true })) ∧
    (∀ va at_ e : Nat, s.nextQueued c = some m → m.kind = .pageIn va → MappedBy s (c / 384) m.asid va at_ e →
      (∀ x ∈ s.hub.moves, x.leafAddr ≠ at_) → exec .tileMoveStart s = done (s.completeMove c m)) ∧
    (∀ plane : Bool, MovesRows m plane → NextInTurn s c m → s.ev.ecc = 0 →
      let v := s.setCore c { s.coreAt c with rrMove := m.seq }
      (∀ t : State, v.tileRow c m = .ok (t, none) →
        exec .tileMoveRow s = done (t.setMove c { m with row := m.row + 1, old := v.overwritten m })) ∧
      (∀ (t : State) (k : Nat), v.tileRow c m = .ok (t, some k) →
        exec .tileMoveRow s = done (t.failAt c m k ((m.src + m.row * m.sstride) % 2 ^ 64))) ∧
      ∀ x a : Nat, v.tileRow c m = .error (.trap x a) → exec .tileMoveRow s = done (v.failAt c m x a)) ∧
    (∀ plane : Bool, (s.coreAt c).moves[s.ev.idx]? = some m → m.kind = .tile plane → m.active = true → m.stopped = false →
      m.rows ≤ m.row → exec .tileMoveComplete s = done (s.completeMove c m)) ∧
    ∀ src dst f g : Nat, s.QuietMemory → s.ev.ecc = 0 → (s.coreAt c).moves = [m] → MovesRows m false → m.mode = 0 → m.old = [] →
      1 ≤ m.rbytes → src = (m.src + m.row * m.sstride) % 2 ^ 64 → dst = (m.dst + m.dstride * m.row) % 2 ^ 64 →
      MayMove s m src m.rbytes f → MayMove s m dst m.rbytes g →
      ∃ t : State, exec .tileMoveRow s = done t ∧
        t.bytesAt (placeIn g dst) m.rbytes = s.bytesAt (placeIn f src) m.rbytes ∧
        s.SameMemoryBut t (placeIn g dst) m.rbytes ∧
        ∃ x, (t.coreAt c).moves = [x] ∧ x.seq = m.seq ∧ x.row = m.row + 1 ∧ x.active = true

/-- Streams (R125, R126): while fewer than eight elements wait and none of them failed, the next row's bytes arrive as an element,
where no ECC event comes with them; a drover program that stops with a fault leaves it in the mailbox (R124): the cause, and the
offset of the bundle at its pc (for a fault that is a step of its own, log 73), once what it has under way has performed (R260).
-/
def StreamAndProgramSteps : Prop :=
  ∀ (s : State),
    let k := 8 * s.ev.core + s.ev.strand
    let h := s.hartAt k
    let x : Stream := Store.get {} h.q s.ev.idx
    let done := fun (t : State) => (Host.Outcome.next t : Host.Outcome State Fault Refusal)
    (∀ (t : State) (l : List Nat), s.ev.ecc = 0 → x.state = 1 → x.fetched < x.rows → x.elems.length < 8 → (∀ e ∈ x.elems, e.2 = none) →
      s.readBytes { s.whoHart k with asid := x.asid, user := x.user } .read ((x.src + x.fetched * x.stride) % 2 ^ 64) x.rbytes 1 =
        .ok (t, l) →
      exec .streamElementArrive s = done (t.setHart k { t.hartAt k with
        q := Store.set {} (t.hartAt k).q s.ev.idx { x with elems := x.elems ++ [(l, none)], fetched := x.fetched + 1 } })) ∧
    (∀ low : Nat, s.ev.ecc = 0 → s.ev.strand < 4 → x.state = 1 → x.fetched < x.rows → x.elems.length < 8 → (∀ e ∈ x.elems, e.2 = none) →
      x.user = false → s.poison = [] → s.stores = [] → s.atomics = [] → 1 ≤ x.rbytes →
      (x.src + x.fetched * x.stride) % 2 ^ 64 = ownLocal low → low + x.rbytes ≤ 2 ^ 19 →
      exec .streamElementArrive s = done (s.setHart k { h with q := Store.set {} h.q s.ev.idx { x with
        elems := x.elems ++ [(s.bytesAt (placeLocal s.ev.core low) x.rbytes, none)], fetched := x.fetched + 1 } })) ∧
    (let d := 8 * s.ev.core + 4
     let value := BitVec.ofNat 64 (2 ^ 63 + s.ev.val % 2 ^ 8 * 2 ^ 32 + (s.hartAt d).pc / 8 * 8 % 2 ^ 32)
     (s.hartAt d).occ = true →
      ((∀ y ∈ s.stores, y.hart ≠ d) → (∀ y ∈ s.atomics, y.hart ≠ d) → (∀ y ∈ s.nears, y.hart ≠ d) →
        (∀ e ∈ s.cores, (∀ y ∈ e.2.moves, y.hart ≠ d) ∧ ∀ y ∈ e.2.outbound ++ e.2.netWait, y.hart ≠ some d) →
        (s.coreAt s.ev.core).joins = [] →
        ∃ t : State, exec .droverProgramFault s = done t ∧ (t.hartAt d).occ = false ∧
          (t.coreAt s.ev.core).mailbox = some value ∧ (t.coreAt s.ev.core).droverOwner = none ∧
          ((s.hartAt d).slot = none → t.mem = s.mem)) ∧
      ((∃ y ∈ (s.coreAt s.ev.core).moves, y.hart = d ∧ y.since ≤ s.cycle) → (∃ e ∈ s.cores, e.1 = s.ev.core) →
        (s.hartAt d).slot = none →
        ∃ t : State, exec .droverProgramFault s = done t ∧ (t.coreAt s.ev.core).mailWait = some value ∧
          (t.coreAt s.ev.core).mailbox = (s.coreAt s.ev.core).mailbox ∧
          (t.coreAt s.ev.core).droverOwner = (s.coreAt s.ev.core).droverOwner))

/-- Accesses at their homes (R128, R133, R141 to R144, R146, R160, R256, R258): the oldest atomic reads its word and writes the
new one in one step and its result comes back; a store writes its bytes at its home and nothing else; one that fails is
lost and poisons its strand at the scope of its home (R274), as a store does to a hole of the CXL range (R438; that an
address which no decoder covers is a hole is log 100). -/
def HomeSteps : Prop :=
  ∀ (s : State), s.poison = [] → s.hub.agist = [] → s.hub.fenced = [] → s.hub.ckdctl = 0 →
    let done := fun (t : State) => (Host.Outcome.next t : Host.Outcome State Fault Refusal)
    (∀ (t : PendingAtomic) (l : List PendingAtomic) (id : Nat), s.atomics = t :: l → s.ev.idx = 0 → s.ev.aux = 0 → s.ev.ecc = 0 →
      s.stores = [] → isScratch t.place = true → t.release = none → t.long = some id → (t.size = 4 ∨ t.size = 8) →
      let old := s.readAt t.place t.size
      let new := if t.kind = 0 then atomicNew t.op t.size old (t.operands.getD 0 0)
        else if old = t.operands.getD 0 0 then t.operands.getD 1 0 else old
      (t.kind = 0 ∨ t.kind = 1) →
      ∃ u : State, exec .atomicExecute s = done u ∧ u.atomics = l ∧ u.readAt t.place t.size = new % 2 ^ (8 * t.size) ∧
        s.SameMemoryBut u t.place t.size ∧ ∀ k, u.hartAt k = if k = t.hart then
          (s.hartAt k).fill id (fun r => { r with writes := [.s t.d (BitVec.ofNat 64 old)], queued := false })
          else s.hartAt k) ∧
    (∀ (t : PendingNear) (l : List PendingNear) (u : State), s.nears = t :: l → s.ev.idx = 0 → s.ev.aux = 0 → s.stores = [] →
      s.atomics = [] → ({ s with nears := l } : State).runNear t = .ok u → exec .nearMemoryExecute s = done u) ∧
    ∀ (t : PendingStore) (l m : List PendingStore), s.stores = l ++ t :: m → s.ev.idx = l.length →
      let home := isScratch t.place = true ∨ (pkgOfPlace t.place = s.hub.pkg ∧ localTier (localOfPlace t.place) = 1)
      (home → t.data ≠ [] → t.skip = [] → t.release = none → t.replica = false →
        (∀ x ∈ l, x.hart ≠ t.hart ∨ x.meets t = false) →
        ∃ u : State, exec .storePerformsAtHome s = done u ∧ u.stores = l ++ m ∧
          u.readAt t.place t.data.length = ofBytes (t.data.map (· % 2 ^ 8)) ∧
          s.SameMemoryBut u t.place t.data.length ∧ u.harts = s.harts) ∧
      (s.ev.aux = 0 → t.slot = none → t.owner = .hart t.hart → bit (s.hartAt t.hart).tstatus 4 = false →
        (∀ x ∈ l ++ m, x.release = none) → (∀ x ∈ s.atomics, x.release = none) →
        ∃ u : State, exec .storeAsyncFailure s = done u ∧ u.stores = l ++ m ∧ u.mem = s.mem ∧
          let g := (u.hartAt t.hart).tstatus
          bit g 4 = true ∧ g / 2 ^ 5 = s.targetScope t.hart t.place ∧ g % 2 ^ 4 = (s.hartAt t.hart).tstatus % 2 ^ 4) ∧
      (l = [] → s.atomics = [] → t.slot = none → t.owner = .hart t.hart → bit (s.hartAt t.hart).tstatus 4 = false →
        t.release = none → (∀ x ∈ m, x.release = none) → isScratch t.place = false → pkgOfPlace t.place = s.hub.pkg →
        s.hub.cxlHole (localOfPlace t.place) = true →
        ∃ u : State, exec .storePerformsAtHome s = done u ∧ u.stores = m ∧ u.mem = s.mem ∧
          let g := (u.hartAt t.hart).tstatus
          bit g 4 = true ∧ g / 2 ^ 5 = 7 ∧ g % 2 ^ 4 = (s.hartAt t.hart).tstatus % 2 ^ 4)

/-- The matrix unit (R172, R215, R221, R224): the oldest product reads its operands, which counts once and changes no tile
before the marker; the finished one leaves the queue, and its result is ready. The operands are the bytes that stand there
when the product consumes them, which is the model's choice (log 63: R216 allows any moment since issue). -/
def MatrixSteps : Prop :=
  ∀ (s : State) (p : Product) (l : List Product),
    let c := s.ev.core
    let h := s.hartAt p.hart
    let done := fun (t : State) => (Host.Outcome.next t : Host.Outcome State Fault Refusal)
    (s.coreAt c).products = p :: l → (∀ q ∈ l, q.hart ≠ p.hart ∨ q.long ≠ p.long) →
    (p.consumed = false → s.ev.val = 0 → s.ev.list = [] → s.ev.ecc = 0 → s.poison = [] → (∀ u ∈ s.stores, u.hart ≠ p.hart) →
      p.dual = false →
      let rows := s.readTile c p.fa p.a
      let cols := s.readTile c p.fb p.b
      exec .mmaOperandsConsumed s = done ((s.setHart p.hart (h.fill p.long (fun r =>
          { r with tiles := [.product p.tile p.fa p.fb p.k rows cols] }))).setCore c { s.coreAt c with
        consumed := ((s.coreAt c).consumed + 1) % 2 ^ 64, products := { p with consumed := true } :: l })) ∧
    (p.consumed = true →
      exec .mmaFinish s = done ((s.setHart p.hart (h.fill p.long (fun r => { r with queued := false }))).setCore c
        { s.coreAt c with products := l }))

end Sys2Proof

/-- The steps of the drover, of the homes of accesses and of the matrix unit, where they are enabled. -/
def Obligations.MoveAndHomeSteps : Prop := TileMoveSteps ∧ StreamAndProgramSteps ∧ HomeSteps ∧ MatrixSteps

namespace Sys2Proof

/-! ### The steps of the hub's page engines (R228, R235, R238, R244 to R254, R267, R270, R419, R421) -/

/-- The walker and the migration engine (R228, R233, R234, R244, R245): a walk's leaf enters the TLBs that asked; a walk may
stay in flight, as the step's operand says, with the leaf that it reads at its start (the model's choice, log 62), and one that
found no leaf leaves nothing; at the end of an epoch every count halves, and with the engine off
nothing moves. -/
def WalkAndEpochSteps : Prop :=
  ∀ (s : State),
    let done := fun (t : State) => (Host.Outcome.next t : Host.Outcome State Fault Refusal)
    (∀ (t : State) (r : Option (Nat × Bool)), s.ev.aux = 0 → s.walks = [] → s.walkQueue = [] →
      s.walkFor s.ev.core s.ev.val s.ev.addr s.ev.ok = .ok (t, r) → exec .tableWalk s = done t) ∧
    (∀ at_ e : Nat, MappedBy s (s.ev.core / 384) s.ev.val s.ev.addr at_ e → s.walks = [] → s.walkQueue = [] →
      (s.ev.aux = 0 → s.ev.ok = false → bit e 4 = true →
        ∃ u : State, exec .tableWalk s = done u ∧ u.mem = s.mem ∧
          ∃ x ∈ u.tlbs, x.kind = 0 ∧ x.unit = s.ev.core ∧ x.asid = s.ev.val ∧ x.large = false ∧ x.entry = e ∧
            x.covers s.ev.val s.ev.addr = true) ∧
      (s.ev.aux = 1 → exec .tableWalk s = done { s with walks := [
        { die := s.ev.core / 384, asid := s.ev.val, page := s.ev.addr / 65536, core := s.ev.core,
          leaf := some (e, at_, false) }] })) ∧
    (∀ w : Walk, s.ev.aux = 2 → s.walks[s.ev.idx]? = some w → w.leaf = none →
      exec .tableWalk s = done { s with walks := s.walks.erase w }) ∧
    (s.hub.epochAt + 1100000 ≤ s.cycle → bit s.hub.migctl.toNat 0 = false →
      exec .migrationEpochEnd s = done { s with hub := { s.hub with
        counted := s.hub.counted.map (fun c => { c with counts := c.counts.map (fun e => (e.1, e.2 / 2)) }),
        epochAt := s.cycle } })

/-- Moves of a page (R238, R246, R247): the copy leaves the destination with the source's bytes; the drain lets every access
perform and copies the logged lines; the switch writes the frame and the tier into the leaf and removes its
translations; the move then ends. A leaf that has changed, a lost line and a failing write abandon it. -/
def PageMoveSteps : Prop :=
  ∀ (s : State) (m : PageMove), s.hub.moves[s.ev.idx]? = some m →
    let done := fun (t : State) => (Host.Outcome.next t : Host.Outcome State Fault Refusal)
    let src := m.src / 65536
    let dst := m.dst / 65536
    (m.stage = 0 → m.copied = false → s.ev.ok = true → s.ev.list = [] → s.MemCanonical → s.hub.ckdctl = 0 → src ≠ dst →
      s.homeLost m.src = false →
      ∃ t : State, exec .pageMoveCopy s = done t ∧
        (∀ i, i < 65536 → t.byteAt (dst * 65536 + i) = s.byteAt (src * 65536 + i)) ∧
        s.SameMemoryBut t (dst * 65536) 65536 ∧
        t.hub.moves = s.hub.moves.map (fun x => if x.leafAddr = m.leafAddr then { m with copied := true } else x)) ∧
    (m.stage = 0 → m.copied = false → s.ev.ok = false → exec .pageMoveCopy s = done (s.abandonMove m m.va)) ∧
    (m.stage = 0 → m.copied = false → s.ev.ok = true → s.homeLost m.src = true → m.force = false →
      exec .pageMoveCopy s = done (s.abandonMove m m.va)) ∧
    (m.stage = 0 → m.copied = false → s.ev.ok = true → s.homeLost m.src = false → ∀ l t, s.ev.list = l :: t → m.force = false →
      exec .pageMoveCopy s = done (s.abandonMove m (m.va + 64 * (l % 1024)))) ∧
    (m.stage = 0 → m.copied = true → s.stores = [] → s.atomics = [] → m.logged = [] →
      (∀ x ∈ s.hub.moves, x.leafAddr = m.leafAddr → x = m) →
      exec .pageMoveDrain s = done (s.setPageMove { m with stage := 1 })) ∧
    (m.stage = 1 → s.stores = [] → s.atomics = [] → s.nears = [] → setBits (s.readAt m.leafAddr 8) 4 2 0 = setBits m.leaf 4 2 0 →
      s.hub.ckdctl = 0 → s.hub.agist = [] → s.poison = [] →
      ∃ t : State, exec .pageMoveSwitch s = done t ∧
        t.readAt m.leafAddr 8 = setBits (setBits (s.readAt m.leafAddr 8) 16 44 dst) 6 3 m.dstTier % 2 ^ 64 ∧
        s.SameMemoryBut t m.leafAddr 8 ∧
        (∀ x ∈ t.tlbs, x.asid = m.asid → ¬(x.kind ≤ 1 ∧ x.large = false ∧ x.page = m.va / 65536)) ∧
        ∃ x ∈ t.hub.moves, x.leafAddr = m.leafAddr ∧ x.stage = 2) ∧
    (m.stage = 1 → setBits (s.readAt m.leafAddr 8) 4 2 0 ≠ setBits m.leaf 4 2 0 →
      exec .pageMoveSwitch s = done (s.abandonMove m m.va)) ∧
    (m.stage = 2 → exec .pageMoveResume s = done (s.resumePage m)) ∧
    (m.stage = 2 → m.lease = none → m.pgin = none → s.heldLeases = [] →
      ∃ t : State, exec .pageMoveResume s = done t ∧ (∀ x ∈ t.hub.moves, x.leafAddr ≠ m.leafAddr) ∧
        src ∉ t.hub.usedFrames ∧ t.mem = s.mem ∧
        (src ≠ dst → Store.get 0 t.hub.leaseCounts dst = Store.get 0 s.hub.leaseCounts src ∧
          Store.get 0 t.hub.leaseCounts src = 0)) ∧
    (m.stage < 2 → exec .pageMoveAbandon s = done (s.abandonMove m s.ev.addr)) ∧
    (m.stage < 2 → m.lease = none → m.pgin = none →
      ∃ t : State, exec .pageMoveAbandon s = done t ∧ (∀ x ∈ t.hub.moves, x.leafAddr ≠ m.leafAddr) ∧
        dst ∉ t.hub.usedFrames ∧ t.mem = s.mem)

/-- The only take has its answer (R419): it is no longer asked, and its strand has the answer, unless the strand is gone. -/
def Answered (s : State) (t : Take) (reason : Nat) : State :=
  let u : State := { s with hub := { s.hub with takes := [] } }
  if t.orphan = true then u else u.setHart t.hart { s.hartAt t.hart with taken := (s.hartAt t.hart).taken ++ [(t, reason)] }

/-- Agistment (R248 to R254, R419 to R421): the states a lease goes through at each end of it. A page that RETURNING remaps
takes its backing frame at tier 3 in its leaf, and every other byte but that of its lease-map slot stays; with no page placed,
a restored borrower and a borrower whose lender is lost end the lease at once. The other package's answers come with the step,
as its operands (log 19). -/
def AgistmentSteps : Prop :=
  ∀ (s : State),
    let done := fun (t : State) => (Host.Outcome.next t : Host.Outcome State Fault Refusal)
    (∀ (a : AgistLease), s.hub.agist[s.ev.idx]? = some a →
      (5 ≤ a.state → s.ev.aux ∈ a.dirtyPages → s.ev.aux ∉ a.cleaning →
        exec .leasePageClean s = done (s.keepLease { a with
          dirtyPages := a.dirtyPages.filter (fun j => j ≠ s.ev.aux), cleaning := a.cleaning ++ [s.ev.aux] })) ∧
      (5 ≤ a.state → s.ev.aux ∈ a.cleaning → exec .leasePageClean s = done
        ((s.copyFrame (a.lender * 2 ^ 29 + a.lbase / 65536 + s.ev.aux) (s.hub.pkg * 2 ^ 29 + a.backing / 65536 + s.ev.aux)).keepLease
          { a with cleaning := a.cleaning.filter (fun j => j ≠ s.ev.aux) })) ∧
      (a.state = 5 → exec .musterNoticeArrive s = done ((s.abandonPlacements a).setLease { a with state := 6 })) ∧
      (a.state = 6 → exec .musterNoticeArrive s = done s) ∧
      (a.state = 6 → a.placed = [] → exec .leasePageRemap s = done ((s.demotionMessage a).endLease a)) ∧
      (∀ t : State, a.state = 6 → s.returnPage a = .ok t → exec .leasePageRemap s = done t) ∧
      (a.state = 3 ∨ a.state = 2 → exec .musterDoneReceived s = done (s.setLease { a with state := 4 })) ∧
      (a.state = 4 → s.hub.ckdctl = 0 → s.hub.agist = [a] → s.hub.moves = [] → s.MemCanonical →
        a.lender < 2 ^ 15 → isScratch a.recPlace = false →
        (a.recPlace + 0x40 ≤ placeOf a.lender a.lbase ∨ placeOf a.lender a.lbase + a.size ≤ a.recPlace) →
        ∃ t : State, exec .zeroFillDone s = done t ∧
          (∀ p, placeOf a.lender a.lbase ≤ p → p < placeOf a.lender a.lbase + a.size → t.byteAt p = 0) ∧
          (∀ f ∈ State.lentFrames a, f ∉ t.hub.usedFrames) ∧ t.hub.agist = [] ∧ bits (t.readAt (a.recPlace + 0x38) 8) 8 3 = 0) ∧
      (a.state = 3 → a.since + a.mwin * 1100 ≤ s.cycle → s.lost a.borrower = true →
        exec .musterWindowExpire s = done (s.setLease { a with
          state := 4, revoked := true, notRemapped := min s.ev.val (a.size / 65536) })) ∧
      (a.state = 3 → s.cycle < a.since + a.mwin * 1100 → exec .musterWindowExpire s = done s) ∧
      (∀ t : State, 5 ≤ a.state → s.restoreBorrower a = .ok t → exec .borrowerHubRestored s = done t) ∧
      (∀ t : State, 5 ≤ a.state → s.cutOff a.lender = true → s.loseLender a = .ok t → exec .lenderLost s = done t) ∧
      (s.hub.agist = [a] → s.stores = [] → s.atomics = [] →
        (∀ (i j asid va x y leaf : Nat) (l : List (Nat × Nat × Nat)), a.state = 6 → a.placed = (i, asid, va) :: (j, x, y) :: l →
          i ≠ j → a.dirtyPages = [] → a.cleaning = [] → s.hub.ckdctl = 0 → leaf = s.readAt (a.lmap % 2 ^ 60 + 8 * i) 8 →
          leaf ≠ 0 → leaf < 2 ^ 60 → (leaf + 8 ≤ a.lmap % 2 ^ 60 + 8 * i ∨ a.lmap % 2 ^ 60 + 8 * i + 8 ≤ leaf) →
          ∃ t : State, exec .leasePageRemap s = done t ∧
            t.readAt leaf 8 =
              setBits (setBits (s.readAt leaf 8) 16 44 (s.hub.pkg * 2 ^ 29 + a.backing / 65536 + i)) 6 3 3 % 2 ^ 64 ∧
            t.readAt (a.lmap % 2 ^ 60 + 8 * i) 8 = 0 ∧
            (∀ p, p < leaf ∨ leaf + 8 ≤ p → p < a.lmap % 2 ^ 60 + 8 * i ∨ a.lmap % 2 ^ 60 + 8 * i + 8 ≤ p →
              t.byteAt p = s.byteAt p) ∧
            ∃ b, t.hub.agist = [b] ∧ b.state = 6 ∧ b.moved = a.moved + 1 ∧ (i, asid, va) ∉ b.placed ∧ (j, x, y) ∈ b.placed) ∧
        (a.placed = [] → s.hub.moves = [] → 5 ≤ a.state →
          exec .borrowerHubRestored s = done (s.endLease a) ∧
          (a.lender ∈ s.hub.fenced → exec .lenderLost s = done ((s.demotionMessage a).endLease a))))) ∧
    (s.ev.list = [] → ∀ a : AgistLease, s.hub.agist = [a] → a.state = 1 → a.lender = s.hub.pkg → a.id = s.ev.idx →
      (a.lbase = s.ev.addr → a.size = s.ev.val → a.mwin = s.ev.aux → s.inPaddock s.ev.core = true → s.ev.core ≠ s.hub.pkg →
        exec .agistTakeRequest s = done (s.setLease { a with state := 2, borrower := s.ev.core })) ∧
      ((a.lbase ≠ s.ev.addr ∨ a.size ≠ s.ev.val ∨ a.mwin ≠ s.ev.aux) → exec .agistTakeRequest s = done s)) ∧
    (∀ (k : Nat) (x : List Nat) (t : Take), s.ev.list = k :: x → s.hub.takes = [t] → t.hart = k →
      (s.ev.ok = true → exec .agistTakeRequest s = done ((Answered s t 0).holdLease t.words t.recPlace)) ∧
      (s.ev.ok = false → exec .agistTakeRequest s = done ((Answered s t 4).giveFrames
        (s.backingFrames (State.leaseOf t.words t.recPlace s.hub.pkg 5))))) ∧
    ∀ t : Take, s.hub.takes = [t] → t.hart = 8 * s.ev.core + s.ev.strand → t.since + 1100000 ≤ s.cycle →
      exec .lenderAnswerTimeout s = done ((Answered s t 5).giveFrames
        (s.backingFrames (State.leaseOf t.words t.recPlace s.hub.pkg 5)))

/-- Flush markers and multicast generations (R267, R270): a marker arrives where nothing that was sent before it is on its way
there, and the last of a hart's markers is acknowledged; the acknowledgement takes the package out of the hart's destination set;
an old generation leaves the switches when no store is on its way to its members. -/
def FlushSteps : Prop :=
  ∀ (s : State),
    let done := fun (t : State) => (Host.Outcome.next t : Host.Outcome State Fault Refusal)
    (∀ (m : FlushMark) (l : List FlushMark), s.hub.flushMarks = m :: l → s.ev.idx = 0 →
      (∀ t ∈ s.stores, pkgOfPlace t.place ≠ m.dest) → (∀ t ∈ s.atomics, pkgOfPlace t.place ≠ m.dest) →
      (∀ e ∈ s.cores, ∀ x ∈ e.2.netWait, x.dest / 2 ^ 11 ≠ m.dest) →
      exec .flushMarkerArrive s = done { s with hub := { s.hub with
        flushMarks := l, flushAcks := if l.any (fun x => x.hart == m.hart && x.dest == m.dest) then s.hub.flushAcks
          else s.hub.flushAcks ++ [(m.hart, m.dest)] } }) ∧
    (∀ (k p : Nat) (l : List (Nat × Nat)), s.hub.flushAcks = (k, p) :: l → s.ev.idx = 0 →
      exec .flushAckReturn s = done (({ s with hub := { s.hub with flushAcks := l } } : State).setHart k
        { s.hartAt k with dests := (s.hartAt k).dests.filter (fun q => q ≠ p) })) ∧
    ∀ (n : Nat) (members : List Nat) (l : List (Nat × List Nat)), (s.groupAt s.ev.idx).old = (n, members) :: l →
      (∀ t ∈ s.stores, t.pkg ∉ members) →
      exec .mcgGenerationRetire s = done { s with hub := { s.hub with
        groups := Store.set {} s.hub.groups s.ev.idx { s.groupAt s.ev.idx with old := l } } }

end Sys2Proof

/-- The steps of the hub's page engines and of the fabric's flushes, where they are enabled. -/
def Obligations.PageEngineSteps : Prop := WalkAndEpochSteps ∧ PageMoveSteps ∧ AgistmentSteps ∧ FlushSteps

namespace Sys2Proof

/-! ### The steps of messages, waits, floors and hangs (R99, R277, R278, R281, R285, R289, R298, R314 to R317, R322, R331) -/

/-- Messages (R107, R277, R278, R285, R289, R314, R322): the head of an outbound queue leaves for its core, for another package
against a credit of its link (R428); one from another package of the paddock comes before its core; one that its core accepts
enters the inbox, stands in its slot of local memory and counts as received in its colour for its society (log 91); one that finds
no launch to accept it is discarded and counted; a positive message and its anti-message annihilate. -/
def MessageSteps : Prop :=
  ∀ (s : State),
    let c := s.ev.core
    let x := s.coreAt c
    let done := fun (t : State) => (Host.Outcome.next t : Host.Outcome State Fault Refusal)
    (∀ (m : Msg) (l : List Msg), x.outbound = m :: l →
      let t := s.setCore c { x with outbound := l }
      (m.pkg ≠ s.hub.pkg → exec .messageDepart s = done (if s.flowHeld .message m.pkg = true then s else t)) ∧
      (m.pkg = s.hub.pkg → exec .messageDepart s =
        done (t.setCore m.core { t.coreAt m.core with netWait := (t.coreAt m.core).netWait ++ [m] }))) ∧
    (s.ev.list.length = 8 → ∃ m : Msg, m.ts = s.ev.list.getD 0 0 ∧ m.hdr = s.ev.list.getD 1 0 ∧ m.payload = s.ev.list.drop 2 ∧
      m.asid = s.ev.val ∧ m.dest = s.hub.pkg * 2 ^ 11 + c ∧
      (s.inPaddock (m.src / 2 ^ 11) = true → m.src / 2 ^ 11 ≠ s.hub.pkg →
        exec .messageArrive s = done (s.setCore c { x with netWait := x.netWait ++ [m] })) ∧
      (s.inPaddock (m.src / 2 ^ 11) = false → exec .messageArrive s = done s)) ∧
    ∀ (m : Msg) (l : List Msg), s.ev.list.length ≠ 8 → x.netWait = m :: l → s.ev.idx = 0 →
      let i := if m.anti = true then Instr.antiMessageArrive else Instr.messageArrive
      (s.acceptsMessage c m = false →
        ∃ t : State, exec i s = done t ∧ (t.coreAt c).netWait = l ∧ (t.coreAt c).inbox = x.inbox ∧
          (t.coreAt c).msgdrop = min (x.msgdrop + 1) (2 ^ 32 - 1) ∧ t.mem = s.mem) ∧
      (s.acceptsMessage c m = true →
        (∀ y ∈ x.inbox, y.msg.partner m = false) → (x.inbox.filter (fun y => y.general)).length < 240 →
        ∃ (t : State) (y : InMsg), exec i s = done t ∧ (t.coreAt c).netWait = l ∧ (t.coreAt c).inbox = x.inbox ++ [y] ∧
          y.msg = { m with hart := none, since := 0, reinjected := false } ∧ y.held = false ∧ y.aged = false ∧
          (t.coreAt c).msgdrop = x.msgdrop ∧
          (∀ n : Nat, m.timed = true → m.reinjected = false → s.messageSlot c m = some n → (s.societyOf (some n)).isSome = true →
            m.colour < (s.tally c n).received.length →
            (t.tally c n).received.getD m.colour 0 = (s.tally c n).received.getD m.colour 0 + 1) ∧
          (let p := placeLocal c (0x2000 + 64 * y.place)
           y.place < 256 ∧ s.SameMemoryBut t p 64 ∧ t.readAt p 8 = m.ts % 2 ^ 64 ∧ t.readAt (p + 8) 8 = m.hdr % 2 ^ 64)) ∧
      (s.acceptsMessage c m = true → ∀ (y : InMsg), x.inbox = [y] → y.msg.partner m = true → (y.msg.anti = true ∨ y.held = false) →
        ∃ t : State, exec i s = done t ∧ (t.coreAt c).netWait = l ∧ (t.coreAt c).inbox = [] ∧ t.mem = s.mem) ∧
      (s.acceptsMessage c m = true → m.anti = false → m.serial ≠ 0 → m.reinjected = false → (∀ y ∈ x.inbox, y.msg.partner m = false) →
        240 ≤ (x.inbox.filter (fun y => y.general)).length → exec i s = done s)

/-- Waiting continuations (R99, R281, R327, R331): a sleep that is over, and a watched word that differs when it is read
again, place the continuation on its ready queue; a word that still has its value does not. -/
def WaitSteps : Prop :=
  ∀ (s : State) (c : Cont), s.hub.conts[s.ev.idx]? = some c → c.state = .waiting →
    let done := fun (t : State) => (Host.Outcome.next t : Host.Outcome State Fault Refusal)
    (∀ n : Nat, c.waits = some (.sleeping n) → n ≤ s.cycle →
      exec .sleepExpire s = done (s.makeReady c.recAddr c.slot (16 * c.cluster))) ∧
    (∀ n : Nat, c.waits = some (.sleeping n) → s.cycle < n → exec .sleepExpire s = done s) ∧
    (∀ (core low : Nat) (v : Word), s.poison = [] → core < 1536 → low % 8 = 0 → low + 8 ≤ 2 ^ 19 →
      c.waits = some (.word (0xF4 * 2 ^ 56 + core * 2 ^ 19 + low) v) →
      (s.readAt (placeLocal core low) 8 = v.toNat → exec .waitwTrigger s = done s ∧ exec .waitwPoll s = done s) ∧
      (s.readAt (placeLocal core low) 8 ≠ v.toNat →
        exec .waitwTrigger s = done (s.makeReady c.recAddr c.slot (16 * c.cluster)) ∧
        exec .waitwPoll s = done (s.makeReady c.recAddr c.slot (16 * c.cluster)))) ∧
    ∀ (a : Nat) (v : Word) (t : State) (l : List Nat), c.waits = some (.word a v) →
      s.readBytes (s.whoLaunch (128 * c.cluster) c.slot) .read a 8 8 = .ok (t, l) →
      (ofBytes l = v.toNat → exec .waitwTrigger s = done t ∧ exec .waitwPoll s = done t) ∧
      (ofBytes l ≠ v.toNat →
        exec .waitwTrigger s = done (t.makeReady c.recAddr c.slot (16 * c.cluster)) ∧
        exec .waitwPoll s = done (t.makeReady c.recAddr c.slot (16 * c.cluster)))

/-- Floor rounds (R281, R315, R316): a round starts every interval and flips the colour, of all its cores in one step (log 105);
while sent and received of the old colour differ the cores report again; when they agree the round ends and the floor is the
lowest report, never lower than before. -/
def FloorSteps : Prop :=
  ∀ (s : State) (x : Society), s.hub.societies[s.ev.idx]? = some x → s.hub.societies = [x] →
    let done := fun (t : State) => (Host.Outcome.next t : Host.Outcome State Fault Refusal)
    (x.inRound = false → x.roundAt + x.interval * 11 / 10 ≤ s.cycle →
      ∃ t : State, exec .floorRoundStart s = done t ∧
        t.hub.societies = [{ x with colour := 1 - x.colour, inRound := true, roundAt := s.cycle, reports := 1 }] ∧
        (∀ c ∈ s.societyCores x.slot, (t.tally c x.slot).colour = 1 - x.colour ∧ (t.tally c x.slot).lowestSent = 2 ^ 64 - 1) ∧
        (∀ c, c ∉ s.societyCores x.slot → t.coreAt c = s.coreAt c) ∧ t.mem = s.mem) ∧
    (x.inRound = true → s.floorSum x.slot (1 - x.colour) ≠ 0 →
      exec .floorReportRepeat s = done (s.updateSociety x.slot (fun y => { y with reports := y.reports + 1 }))) ∧
    (x.inRound = true → s.floorSum x.slot (1 - x.colour) = 0 →
      ∃ t : State, exec .floorRoundEnd s = done t ∧ ∃ y ∈ t.hub.societies, y.id = x.id ∧ y.inRound = false ∧
        x.floor.toNat ≤ y.floor.toNat ∧ y.rounds = x.rounds + 1 ∧
        ((x.started = true ∨ s.floorMin x.slot < 2 ^ 64 - 1) → y.floor.toNat = max x.floor.toNat (s.floorMin x.slot)) ∧
        (x.started = false → s.floorMin x.slot = 2 ^ 64 - 1 → y.floor = x.floor))

/-- Hangs (R298): a launch that has been hung long enough starts its hang handler on an idle strand, or ends with HANG status
where it has none. -/
def HangSteps : Prop :=
  ∀ (s : State) (l : Launch), s.launchAt s.ev.idx = some l → s.hangDue s.ev.idx l = true →
    (∀ t : State, s.hangNow s.ev.idx l = .ok t → exec .hangDetect s = .next t) ∧
    (∀ (k i : Nat) (f : Flock), l.onhang ≠ 0 → l.hungBefore = false →
      ((l.flocks.filter (fun f => f.status == 1)).flatMap (fun f => f.strands)).find? (fun k => s.eligible k s.ev.idx) = some k →
      s.flockOf k = some f → f.pool.find? (fun i => !(s.clusterAt f.cluster).poolBusy.contains i) = some i →
      ∃ t : State, exec .hangDetect s = .next t ∧ (t.hartAt k).occ = true ∧ (t.hartAt k).pc = l.onhang / 8 * 8 ∧
        (t.hartAt k).nowS 1 = 0x12 ∧ (t.hartAt k).nowS 2 = s.waitingCount s.ev.idx % 2 ^ 64 ∧ (t.hartAt k).cls = 7 ∧
        (t.hartAt k).record = some (poolAddr f.cluster i) ∧ t.mem = s.mem) ∧
    (l.onhang = 0 → exec .hangDetect s = .next
      (((s.setLaunch s.ev.idx (some { l with hang := true })).recordHang s.ev.idx).abortLaunch s.ev.idx))

end Sys2Proof

/-- The steps of messages, waits, floors and hangs, where they are enabled. -/
def Obligations.MessageAndFloorSteps : Prop := MessageSteps ∧ WaitSteps ∧ FloorSteps ∧ HangSteps

namespace Sys2Proof

/-! ### Host queues and packets (R352 to R364) -/

/-- What it is for the packet at the read index of an ACTIVE queue to be read well-formed and free to start (R353 to R355):
`w` are its words and `t` the state after the read. -/
def HeadPacket (s t : State) (q type : Nat) (w : List Nat) : Prop :=
  let x := s.queueAt q
  x.en = true ∧ x.error = false ∧ x.ridx < x.dbval ∧
    (∃ l : List Nat, s.hubRead x.asid ((x.rbase + 64 * (x.ridx % 2 ^ x.logn)) % 2 ^ 64) 64 64 = .ok (t, l) ∧
      w = splitLanes 64 8 (ofBytes l)) ∧
    State.packetOk w = true ∧ bits (nth w 0) 0 8 = type ∧ s.startsNow q w = true ∧ t.startsNow q w = true

/-- `n` bytes at a virtual address that the hub may read and write, in the page at frame `f`. -/
def HubAt (s : State) (asid va n f : Nat) : Prop := va + n ≤ 2 ^ 55 ∧ va % 65536 + n ≤ 65536 ∧ s.PageAt 1536 asid va f

/-- The words of an aligned block of `n` words that the hub may read. -/
def HubWords (s : State) (asid va n : Nat) (w : List Nat) : Prop :=
  ∃ f, HubAt s asid va (8 * n) f ∧ w = (List.range n).map (fun i => s.readAt (placeIn f va + 8 * i) 8)

/-- A well-formed packet of a type stands at the read index of a queue that runs, in memory at rest, and no packet of the
queue is under way (R353 to R355). -/
def PacketAt (s : State) (q type : Nat) (w : List Nat) : Prop :=
  let x := s.queueAt q
  let a := (x.rbase + 64 * (x.ridx % 2 ^ x.logn)) % 2 ^ 64
  x.en = true ∧ x.error = false ∧ x.ridx < x.dbval ∧ a % 64 = 0 ∧ HubWords s x.asid a 8 w ∧ s.QuietMemory ∧
    State.packetOk w = true ∧ nth w 0 % 2 ^ 8 = type ∧ ∀ p ∈ s.hub.packets, p.queue ≠ q

/-- Where packets start (R355 to R357, R361, R371), with `u` the state whose read index has moved past the packet: a NOP
without a signal completes; a SIGNAL stores or adds its value; a LAUNCH whose record is well-formed, without images, completion
record and count word, enters the launches under way; a BARRIER on one signal completes when it reads zero and stays pending
otherwise, and a later read of the signal does the same; a COPY enters with its leases and moves a line at a time. -/
def PacketsComplete : Prop :=
  ∀ (s : State) (w : List Nat),
    let q := s.ev.idx
    let x := s.queueAt q
    let u := s.setQueue q { x with ridx := x.ridx + 1 }
    let done := fun (t : State) => (Host.Outcome.next t : Host.Outcome State Fault Refusal)
    (PacketAt s q 5 w → nth w 1 = 0 → exec .packetNop s = done u) ∧
    (∀ g : Nat, PacketAt s q 4 w → nth w 1 ≠ 0 → HubAt s x.asid (nth w 1) 8 g →
      let p := placeIn g (nth w 1)
      ∃ t : State, exec .packetSignal s = done t ∧ s.SameMemoryBut t p 8 ∧ (t.queueAt q).ridx = x.ridx + 1 ∧
        t.readAt p 8 = (if nth w 3 = 1 then nth w 2 else s.readAt p 8 + nth w 2) % 2 ^ 64) ∧
    (∀ r : List Nat, PacketAt s q 1 w → HubWords s x.asid (nth w 2) 32 r → recordOk r = true → nth r 5 = 0 → nth r 6 = 0 →
      nth r 9 = 0 → nth w 3 = 0 →
      let y := launchOfRecord r w [] [] q x.ridx x.asid
      y.total ≠ 0 → y.total < 2 ^ 32 →
      exec .packetLaunch s = done (u.addPacket { queue := q, index := x.ridx, type := 1, words := w, record := some y })) ∧
    (∀ a g : Nat, PacketAt s q 3 w → ((w.drop 2).take 5).filter (· ≠ 0) = [a] → HubAt s x.asid a 8 g →
      let v := s.readAt (placeIn g a) 8
      let p : Packet := { queue := q, index := x.ridx, type := 3, words := w, pending := [a] }
      (v = 0 → nth w 1 = 0 → exec .packetBarrier s = done u) ∧
      (0 < v → v < 2 ^ 63 → exec .packetBarrier s = done (u.addPacket p))) ∧
    (∀ (a g : Nat) (p : Packet), s.QuietMemory → s.hub.packets = [p] → s.ev.idx = 0 → p.type = 3 → p.pending = [a] →
      a % 8 = 0 → HubAt s (s.queueAt p.queue).asid a 8 g →
      let v := s.readAt (placeIn g a) 8
      (v = 0 → nth p.words 1 = 0 → exec .barrierSignalRead s = done { s with hub := { s.hub with packets := [] } }) ∧
      (0 < v → v < 2 ^ 63 → exec .barrierSignalRead s = done s)) ∧
    (∀ r : List Nat, PacketAt s q 2 w → HubWords s x.asid (nth w 5 + 0x80) 16 r →
      (s.hub.packets.filter (fun p => p.type == 2)).length < 8 →
      exec .packetCopy s = done (u.addPacket
        { queue := q, index := x.ridx, type := 2, words := w, leases := (r.filter (· ≠ 0)).map leaseOfWord })) ∧
    ∀ (p : Packet) (a b f g : Nat) (e : Lease), s.QuietMemory → s.hub.packets = [p] → s.ev.idx = 0 → p.type = 2 →
      64 * (p.lines + 1) < nth p.words 4 → a = nth p.words 2 + 64 * p.lines → b = nth p.words 3 + 64 * p.lines →
      a % 64 = 0 → b % 64 = 0 → HubAt s (s.queueAt p.queue).asid a 64 f → HubAt s (s.queueAt p.queue).asid b 64 g →
      e ∈ p.leases → e.r = true → e.w = true → e.base ≤ a → a + 64 ≤ e.base + e.size → e.base ≤ b → b + 64 ≤ e.base + e.size →
      ∃ t : State, exec .copyLine s = done t ∧ t.hub.packets = [{ p with lines := p.lines + 1 }] ∧
        t.bytesAt (placeIn g b) 64 = s.bytesAt (placeIn f a) 64 ∧ s.SameMemoryBut t (placeIn g b) 64

/-- Doorbells, resets and the packets that complete at once (R352, R355, R356, R359, R363, R364). -/
def QueueSteps : Prop :=
  ∀ (s : State),
    let q := s.ev.idx
    let x := s.queueAt q
    let done := fun (t : State) => (Host.Outcome.next t : Host.Outcome State Fault Refusal)
    (q < 1024 → s.ev.val < 2 ^ 64 →
      (x.dbval ≤ s.ev.val → s.ev.val ≤ x.ridx + 2 ^ x.logn →
        exec .doorbellWrite s = done (s.setQueue q { x with dbval := s.ev.val })) ∧
      (s.ev.val < x.dbval → exec .doorbellWrite s = done s) ∧
      (x.dbval ≤ s.ev.val → x.ridx + 2 ^ x.logn < s.ev.val → x.error = false →
        exec .doorbellWrite s = done ((s.setQueue q { x with
          error := true, errIndex := x.ridx, errCause := 0x43, errAddr := s.ev.val }).raiseVector 1))) ∧
    (q < 1024 → x.prio < 8 → x.asid < 2 ^ 12 → x.logn < 2 ^ 5 →
      ∃ t : State, exec .queueReset s = done t ∧
        (t.queueAt q).error = false ∧ (t.queueAt q).ridx = x.dbval ∧ (t.queueAt q).errIndex = 0 ∧
        (t.queueAt q).errCause = 0 ∧ (t.queueAt q).errAddr = 0 ∧ (t.queueAt q).en = x.en ∧ (t.queueAt q).prio = x.prio ∧
        (t.queueAt q).dbval = x.dbval ∧ (t.queueAt q).rbase = x.rbase ∧ ∀ k, k ≠ q → t.queueAt k = s.queueAt k) ∧
    (∀ (t u : State) (w : List Nat), HeadPacket s t q 5 w → (t.advance q).completePacket q (t.queueAt q).ridx w none = .ok u →
      exec .packetNop s = done u) ∧
    (∀ (t : State) (w : List Nat), HeadPacket s t q 5 w → nth w 1 = 0 → (∀ y ∈ t.stores, y.hart ≠ State.hubAgent) →
      ∃ u : State, exec .packetNop s = done u ∧ (u.queueAt q).ridx = (t.queueAt q).ridx + 1 ∧ u.mem = t.mem) ∧
    (∀ (t u : State) (w : List Nat), HeadPacket s t q 4 w → (t.advance q).completePacket q (t.queueAt q).ridx w none = .ok u →
      exec .packetSignal s = done u) ∧
    (∀ (t : State) (l : List Nat), x.en = true → x.error = false → x.ridx < x.dbval →
      s.hubRead x.asid ((x.rbase + 64 * (x.ridx % 2 ^ x.logn)) % 2 ^ 64) 64 64 = .ok (t, l) →
      State.packetOk (splitLanes 64 8 (ofBytes l)) = false → (∀ p ∈ s.hub.packets, p.queue ≠ q) →
      ∀ i, i = Instr.packetNop ∨ i = .packetSignal ∨ i = .packetLaunch ∨ i = .packetBarrier →
        exec i s = done (t.queueError q x.ridx 0x41 ((x.rbase + 64 * (x.ridx % 2 ^ x.logn)) % 2 ^ 64)))

/-- The signal of a packet (R356): while no group, device or fault is in the way, the packet's completion adds minus one to
its signal word, and a SIGNAL packet adds or stores its value. -/
def SignalIsWritten : Prop :=
  ∀ (s t u : State) (asid a v : Nat) (c : Chunk),
    bits c.leaf 9 2 = 0 → c.n = 8 → u.poison = [] → u.homeLost c.place = false → u.stores = [] → u.atomics = [] →
    u.hub.agist = [] → u.hub.ckdctl = 0 → t.poison = [] → t.homeLost c.place = false →
    (s.check (s.whoHub asid) (.load 8) a 8 8 = .ok (t, [c]) → t.check (t.whoHub asid) .store a 8 8 = .ok (u, [c]) →
      ∃ z : State, s.writeSignal asid a v false = .ok z ∧
        z.readAt c.place 8 = (u.readAt c.place 8 + v) % 2 ^ 64 ∧ u.SameMemoryBut z c.place 8) ∧
    (s.check (s.whoHub asid) .store a 8 8 = .ok (u, [c]) →
      ∃ z : State, s.writeSignal asid a v true = .ok z ∧ z.readAt c.place 8 = v % 2 ^ 64 ∧ u.SameMemoryBut z c.place 8)

/-- Barriers and copies (R355, R357, R361): a barrier starts and reads its signals, ends when none is pending, and keeps the
pending ones; a copy starts with its leases, moves one line at a time and completes after its last. -/
def BarrierAndCopySteps : Prop :=
  ∀ (s : State),
    let q := s.ev.idx
    let done := fun (t : State) => (Host.Outcome.next t : Host.Outcome State Fault Refusal)
    (∀ (t u : State) (w : List Nat), HeadPacket s t q 3 w →
      let p : Packet :=
        { queue := q, index := (t.queueAt q).ridx, type := 3, words := w,
          pending := ((w.drop 2).take 5).filter (· ≠ 0) }
      ((t.advance q).addPacket p).barrierPass p = .ok u → exec .packetBarrier s = done u) ∧
    (∀ (p : Packet), s.hub.packets[s.ev.idx]? = some p → p.type = 3 →
      (∀ t u : State, s.readSignals (s.queueAt p.queue).asid p.pending = .ok (t, [], none) →
        t.completePacket p.queue p.index p.words none = .ok u → exec .barrierSignalRead s = done u) ∧
      ∀ (t : State) (a : Nat) (l : List Nat), s.readSignals (s.queueAt p.queue).asid p.pending = .ok (t, a :: l, none) →
        exec .barrierSignalRead s = done (t.setPacket { p with pending := a :: l })) ∧
    (∀ (t v : State) (w l : List Nat), HeadPacket s t q 2 w → (s.hub.packets.filter (fun p => p.type == 2)).length < 8 →
      let u := t.advance q
      u.hubRead (u.queueAt q).asid ((nth w 5 + 0x80) % 2 ^ 64) 128 8 = .ok (v, l) →
      exec .packetCopy s = done (v.addPacket
        { queue := q, index := (t.queueAt q).ridx, type := 2, words := w,
          leases := ((splitLanes 64 16 (ofBytes l)).filter (· ≠ 0)).map leaseOfWord })) ∧
    ∀ (p : Packet), s.hub.packets[s.ev.idx]? = some p → p.type = 2 →
      (∀ (t u : State) (l : List Nat), s.copyTwin p = none → s.copyRead p = .ok (t, l) → t.copyWrite p l = .ok u →
        (64 * (p.lines + 1) < nth p.words 4 → exec .copyLine s = done (u.setPacket { p with lines := p.lines + 1 })) ∧
        ∀ v : State, nth p.words 4 ≤ 64 * (p.lines + 1) → u.completePacket p.queue p.index p.words none = .ok v →
          exec .copyLine s = done v) ∧
      (∀ (t u v z : State) (x : Packet) (l : List Nat) (cs : List Chunk), s.copyTwin p = some x → s.copyRead p = .ok (t, l) →
        t.copyStep p l = .ok u → u.check (u.whoCopy x) .moveRead (State.copySrc x) 64 64 = .ok (v, cs) →
        v.copyStep x l = .ok z → exec .copyLine s = done z) ∧
      ∀ (u : State) (c a : Nat), s.copyRead p = .error (.trap c a) →
        s.completePacket p.queue p.index p.words (some (c, a)) = .ok u → exec .copyLine s = done u

end Sys2Proof

/-- Host queues, their packets and the signals (R352 to R364). -/
def Obligations.QueueAndPacketSteps : Prop := QueueSteps ∧ PacketsComplete ∧ SignalIsWritten ∧ BarrierAndCopySteps

namespace Sys2Proof

/-! ### The stages of a launch, placement and the partitioner (R304, R312, R343, R365 to R381, R390) -/

/-- The stages of a launch (R312, R343, R370 to R373, R379): a LAUNCH packet that reads and shapes a launch with flocks
enters the launches under way, and one without flocks completes at once; a launch takes a free slot and the next launch
id; it registers its society, or waits and posts an event once; its pages become resident; and it waits for the proxy
cores. -/
def LaunchStageSteps : Prop :=
  ∀ (s : State),
    let done := fun (t : State) => (Host.Outcome.next t : Host.Outcome State Fault Refusal)
    let n := s.ev.idx
    (∀ (t u v : State) (w : List Nat) (x y : Launch), HeadPacket s t n 1 w →
      let k := (t.queueAt n).ridx
      (t.advance n).readRecord n k w = .ok (u, x) → u.readShape x w = .ok (v, y) → y.total ≠ 0 →
      exec .packetLaunch s = done (v.addPacket { queue := n, index := k, type := 1, words := w, record := some y })) ∧
    (∀ (p : Packet) (x : Launch), s.hub.packets[n]? = some p → p.type = 1 → p.record = some x → s.hub.launchCount + 1 < 2 ^ 48 →
      (∃ i, i < 4096 ∧ s.launchAt i = none) →
      let stage := if x.society = none then Stage.leases else Stage.society
      let y : Launch := { x with id := s.hub.pkg * 2 ^ 48 + (s.hub.launchCount + 1), stage := stage }
      ∃ (t : State) (i : Nat), exec .launchSlotAcquire s = done t ∧ i < 4096 ∧ s.launchAt i = none ∧ t.launchAt i = some y ∧
        t.hub.launchCount = s.hub.launchCount + 1 ∧ (∀ j, j ≠ i → t.launchAt j = s.launchAt j) ∧ t.mem = s.mem) ∧
    (∀ (l : Launch) (id scope : Nat), s.launchAt n = some l → l.stage = .society → l.society = some (id, scope) →
      let period := [0, 0, 1000, 2000, 4000, 10000, 20000].getD scope 0
      let y : Society := { id := id, scope := scope, slot := n, interval := period, roundAt := s.cycle }
      (s.ev.ok = true → s.hub.societies.length < 16 → (∀ x ∈ s.hub.societies, x.id ≠ id) →
        ∃ t : State, exec .societyRegister s = done t ∧ t.launchAt n = some { l with stage := .leases, waiting := none } ∧
          t.hub.societies = s.hub.societies ++ [y]) ∧
      ((s.ev.ok = false ∨ 16 ≤ s.hub.societies.length ∨ ∃ x ∈ s.hub.societies, x.id = id) → l.waiting = some (3, id) →
        exec .societyRegister s = done s)) ∧
    (∀ (l : Launch) (t : State), s.launchAt n = some l → l.stage = .leases → s.makeLeases n l = .ok t →
      exec .leaseResidency s = done t) ∧
    (∀ (l : Launch), s.launchAt n = some l → l.stage = .leases → l.leases = [] → l.arenaSize = 0 → l.proxy = false →
      exec .leaseResidency s = done (s.setLaunch n
        (some { l with stage := .place, waiting := none, held := [], placedAt := s.cycle }))) ∧
    ∀ l : Launch, s.launchAt n = some l → l.stage = .proxy →
      (s.proxyFree = true →
        exec .proxyReserve s = done (s.setLaunch n (some { l with stage := .place, placedAt := s.cycle }))) ∧
      (s.proxyFree = false → exec .proxyReserve s = done s)

/-- Placement (R26, R27, R291, R360, R374 to R378): a new flock's strands start at the launch's entry with its argument in s1 and
every other register zero, at the ages the rules give, in user mode, which is the model's choice (log 31); a flock whose strands
are idle, whose records, moves and messages are gone, ends and gives back what it holds; a launch that waits 8 ms to place is aged
(since when is log 111); fault fields of a completion record that are still due are written (R390). -/
def PlacementSteps : Prop :=
  ∀ (s : State),
    let done := fun (t : State) => (Host.Outcome.next t : Host.Outcome State Fault Refusal)
    (∀ (slot cl : Nat) (l : Launch) (strands : List Nat), s.nextPlacement = some (slot, l, none, cl, strands) →
      strands.Nodup →
      ∃ t : State, exec .flockPlace s = done t ∧
        (∀ k ∈ strands, let h := t.hartAt k
          h.occ = true ∧ h.pc = l.entry ∧ h.readS 1 = BitVec.ofNat 64 l.arg ∧ (∀ r, r ≠ 1 → h.readS r = 0) ∧ h.f = [] ∧
          h.v = [] ∧ h.m = [] ∧ h.sup = false ∧ h.slot = some slot ∧ h.flock = l.flocks.length ∧ h.asid = l.asid ∧
          h.tvec = l.tvec ∧ h.frm = l.frm ∧ h.fflags = 0 ∧ h.ecapdef = 64 ∧ h.mstatus = 0 ∧ h.retired = 0 ∧
          h.vt = BitVec.allOnes 64) ∧
        (∀ k, k ∉ strands → t.hartAt k = s.hartAt k) ∧ t.stores = s.stores) ∧
    (∀ l : Launch, s.launchAt s.ev.idx = some l → State.wantsPlace l = true → l.placedAt + 8800000 ≤ s.cycle →
      exec .placeAged s = done (s.setLaunch s.ev.idx (some { l with aged := true }))) ∧
    (∀ l : Launch, s.launchAt s.ev.idx = some l → (State.allEnded l = false ∨ s.accessesDone s.ev.idx = false) →
      l.recordDue = true → exec .launchDone s = done (s.writeFaults s.ev.idx l)) ∧
    (∀ (l : Launch) (f : Flock), s.evFlock = some (l, f) → s.flockOver s.ev.idx f = true →
      ∃ t : State, exec .flockEnd s = done t ∧ (∀ k ∈ f.strands, t.hartAt k = {}) ∧
        (∀ k, k ∉ f.strands → t.hartAt k = s.hartAt k) ∧
        (∃ m : Launch, t.launchAt s.ev.idx = some m ∧ ∀ g ∈ m.flocks, g.num = f.num → g.status = 4) ∧ t.mem = s.mem) ∧
    ∀ (l : Launch) (t : State), s.launchAt s.ev.idx = some l → State.allEnded l = true → s.accessesDone s.ev.idx = true →
      (s.endLaunch s.ev.idx l = .ok t → exec .launchDone s = done t) ∧
      (∀ p : Packet, l.complete = 0 → l.recFault = none → l.fcount = 0 → l.hang = false → l.aborted = false →
        s.hub.packets = [p] → p.queue = l.queue → p.index = l.index → nth p.words 1 = 0 →
        (∀ y ∈ s.stores, y.hart ≠ State.hubAgent) →
        ∃ u : State, exec .launchDone s = done u ∧ u.launchAt s.ev.idx = none ∧ u.hub.packets = [] ∧ u.mem = s.mem ∧
          u.harts = s.harts)

/-- The event ring and the partitioner (R373, R380, R381): writes of EVBASE and PARTCTL; a count that moves clusters toward
their phase; drains that pre-empt after 200 µs, and end when no flock of the old class is left. -/
def PartitionSteps : Prop :=
  ∀ (s : State),
    let done := fun (t : State) => (Host.Outcome.next t : Host.Outcome State Fault Refusal)
    let c := s.ev.idx
    let x := s.clusterAt c
    (exec .evbaseWrite s = done { s with hub := { s.hub with
      evbase := BitVec.ofNat 64 (s.ev.val / 2 ^ 12 % 2 ^ 48 * 2 ^ 12), widx := 0, evridx := 0, evdrop := false } }) ∧
    (∃ t : State, exec .partctlWrite s = done t ∧ t.hub.parten = bit s.ev.val 0 ∧
      t.hub.pmin = min (s.ev.val / 2 ^ 8 % 2 ^ 5) 12 ∧
      (s.hub.parten = false → bit s.ev.val 0 = true → ∀ k, k < 96 →
        (t.clusterAt k).cls = (if k % 24 < 12 then 0 else 1) ∧ (t.clusterAt k).draining = false) ∧
      (s.hub.parten = true → bit s.ev.val 0 = false → ∀ k, k < 96 →
        (t.clusterAt k).cls = 2 ∧ (t.clusterAt k).draining = false) ∧ t.harts = s.harts ∧ t.mem = s.mem) ∧
    (s.hub.parten = true → s.hub.partAt + 1100000 ≤ s.cycle → s.unplaced 1 + s.unplaced 2 = 0 →
      exec .partitionTick s = done { s with hub := { s.hub with partAt := s.cycle } }) ∧
    (s.hub.parten = true → s.hub.partAt + 1100000 ≤ s.cycle → s.unplaced 1 + s.unplaced 2 ≠ 0 →
      let nd := max s.hub.pmin (min (24 - s.hub.pmin)
        (roundHalfEven (24 * s.unplaced 2) (s.unplaced 1 + s.unplaced 2)))
      ∃ t : State, exec .partitionTick s = done t ∧ t.hub.partAt = s.cycle ∧ ∀ k, k < 96 →
        let goal := if 24 - nd ≤ k % 24 then 1 else 0
        (t.clusterAt k).target = goal ∧ (t.clusterAt k).cls = (s.clusterAt k).cls ∧
          (t.clusterAt k).draining = decide (goal ≠ (s.clusterAt k).cls)) ∧
    (x.draining = true → x.drainDue = false → x.drainAt + 220000 ≤ s.cycle → (∀ r ∈ s.oldFlocks c, r.2.status ≠ 1) →
      exec .drainTimeout s = done (s.setCluster c { x with drainDue := true })) ∧
    (x.draining = true → x.drainDue = false → x.drainAt + 220000 ≤ s.cycle →
      exec .drainTimeout s = done (((s.oldFlocks c).filter (fun r => r.2.status == 1)).foldl
        (fun t r => (t.startDrain r.1 r.2.num false).1) (s.setCluster c { x with drainDue := true }))) ∧
    (x.draining = true → s.oldFlocks c = [] →
      exec .clusterDrained s = done (s.setCluster c { x with
        cls := x.target, draining := false, drainAt := 0, drainDue := false }))

end Sys2Proof

/-- The stages of a launch, placement and the partitioner (R304, R312, R343, R360, R370 to R381). -/
def Obligations.LaunchAndPlacementSteps : Prop := LaunchStageSteps ∧ PlacementSteps ∧ PartitionSteps

namespace Sys2Proof

/-! ### Pre-emption and recovery (R298, R382, R388, R393, R397 to R404, R413) -/

/-- Traps and aborts as steps of their own (R298, R382, R388, R393): a trap of a strand at its next word; one in a handler or
without a usable vector; and a launch whose hang is due and has no handler ends with every strand of it idle. -/
def TrapAndAbortSteps : Prop :=
  ∀ (s : State),
    let done := fun (t : State) => (Host.Outcome.next t : Host.Outcome State Fault Refusal)
    let k := 8 * s.ev.core + s.ev.strand
    let h := s.hartAt k
    let u : State := { s with hart := k }
    (h.occ = true → h.halted = false → h.parked = false → h.waitSlot = false → s.flockIssues k = true →
      (∀ t : State, u.takeTrap (s.ev.val % 256) s.ev.addr = .ok t → exec .trapEntry s = done { t with hart := s.hart }) ∧
      (u.TrapsToHandler → h.slot = none → h.longs = [] → u.NothingUnderWay → u.myCore.products = [] →
        ∃ t : State, exec .trapEntry s = done t ∧ (t.hartAt k).tcause = s.ev.val % 256 ∧
          (t.hartAt k).tval = BitVec.ofNat 64 s.ev.addr ∧ (t.hartAt k).pc = h.tvec ∧ (t.hartAt k).sup = true ∧
          (t.hartAt k).s = h.s ∧ t.mem = s.mem ∧ ∀ j, j ≠ k → t.hartAt j = s.hartAt j)) ∧
    (s.ev.ok = true → h.occ = true → k % 8 ≠ 4 → (h.tstatus % 2 = 1 ∨ h.tvec = 0 ∨ 2 ^ 55 ≤ h.tvec) →
      ∀ t : State, u.takeTrap (s.ev.val % 256) s.ev.addr = .ok t → exec .launchAbort s = done { t with hart := s.hart }) ∧
    ∀ l : Launch, s.ev.ok = false → s.launchAt s.ev.idx = some l → s.hangDue s.ev.idx l = true → l.onhang = 0 →
      l.complete = 0 →
      ∃ (t : State) (m : Launch), exec .launchAbort s = done t ∧ t.launchAt s.ev.idx = some m ∧ m.hang = true ∧
        m.aborted = true ∧ (∀ j, (t.hartAt j).slot = some s.ev.idx → (t.hartAt j).occ = false) ∧ t.mem = s.mem

/-- The life of a pre-emption (R397 to R401, R404): PREQ starts the drain of a resident flock, and takes no second request
meanwhile; a drained flock becomes SAVED and leaves its strands; one that is chosen comes back with the strands of its images,
whose registers are those whose dirty bits were set; and a launch's state is written for a checkpoint. Whether an image fits,
and where it stands, are free values (log 4, log 93). -/
def PreemptionSteps : Prop :=
  ∀ (s : State),
    let done := fun (t : State) => (Host.Outcome.next t : Host.Outcome State Fault Refusal)
    let v := s.ev.val
    let slot := v / 2 ^ 32 % 2 ^ 12
    let num := v % 2 ^ 32
    (s.hub.preqJob.isSome = true → bit v 63 = true → exec .preemptRequest s = done s) ∧
    (bit v 63 = false → exec .preemptRequest s = done { s with hub := { s.hub with
      preq := BitVec.ofNat 64 (v % 2 ^ 44 + bool1 (bit v 61) * 2 ^ 61) } }) ∧
    (∀ l : Launch, s.hub.preqJob = none → bit v 63 = true → s.residentFlock slot num = true → s.launchAt slot = some l →
      ∃ t : State, exec .preemptRequest s = done t ∧
        t.hub.preqJob = (if s.imageFits.1 = true then some (slot, num) else none) ∧
        (s.imageFits.1 = true → t.mem = s.mem ∧ t.launchAt slot = some { l with
          flocks := l.flocks.map (fun f => if f.num = num then { f with status := 2, ckpt := bit v 61 } else f) }) ∧
        (s.imageFits.1 = false → t.launchAt slot = some l ∧ t.harts = s.harts)) ∧
    (∀ (l : Launch) (f : Flock), s.evFlock = some (l, f) → f.status = 2 → s.flockOver s.ev.idx f = false →
      s.drained s.ev.idx f = true →
      (∀ t : State, s.saveFlock s.ev.idx l f = .ok t → exec .flockSaved s = done t) ∧
      (s.stores = [] → s.atomics = [] → s.nears = [] → s.hub.imgbase.toNat % 2 ^ 16 = 0 →
        ∃ (t : State) (m : Launch), exec .flockSaved s = done t ∧ t.launchAt s.ev.idx = some m ∧
          (∀ g ∈ m.flocks, g.num = f.num → g.status = 3 ∧ g.images.getLast? = some (s.imageOf s.ev.idx l f)) ∧
          (∀ k ∈ f.strands, t.hartAt k = {}) ∧ t.mem = s.mem)) ∧
    (∀ (sl cl : Nat) (l : Launch) (f : Flock) (i : Image) (strands : List Nat),
      s.nextPlacement = some (sl, l, some f, cl, strands) → f.images.getLast? = some i →
      (i.harts.map (fun e => e.1)).Nodup →
      ∃ (t : State) (m : Launch), exec .flockRestore s = done t ∧
        (∀ e ∈ i.harts, t.hartAt e.1 = State.restoredHart f.images e.1 e.2) ∧ t.launchAt sl = some m ∧
        ∀ g ∈ m.flocks, g.num = f.num → g.status = 1) ∧
    (∀ (k : Nat) (h : Hart) (i : Image), i.regs = (State.dirtyRegs h).map (fun r => (k, r)) →
      let g := State.restoredHart [i] k (State.bareHart h)
      g.pc = h.pc ∧ g.tstatus = h.tstatus ∧ g.vt = h.vt ∧ g.longs = h.longs ∧
        (∀ n, n < 31 → n ≠ 0 → (bit h.dirty n = true ∨ h.nowS n = 0) → g.nowS n = h.nowS n) ∧
        ∀ n, n < 32 → (bit h.dirty (64 + n) = true ∨ Store.get 0 h.v n = 0) → Store.get 0 g.v n = Store.get 0 h.v n) ∧
    ∀ (sl : Nat) (l : Launch), s.saveAsked = some (sl, l) →
      (∀ (t : State) (lines : List (Nat × List Nat)), s.writeRegion l = .ok (t, lines) →
        let x : SavedLaunch := { s.savedLaunch sl l with asid := (s.queueAt l.queue).asid, lines := lines }
        exec .launchStateSave s = done (({ t with hub := { t.hub with savedLaunches := t.hub.savedLaunches ++ [x] } } : State).clearBusy
          sl State.noFlock)) ∧
      (s.hub.imgbase.toNat % 2 ^ 16 = 0 →
        ∃ (t : State) (x : SavedLaunch), exec .launchStateSave s = done t ∧ t.hub.preqJob = none ∧
          x ∈ t.hub.savedLaunches ∧ x.slot = sl ∧ x.launch = l ∧ x.conts = s.hub.conts.filter (fun c => c.slot == sl) ∧
          t.harts = s.harts ∧ t.mem = s.mem)

/-- Recovery (R402 to R404): the fence drops a failed package's traffic and ends its leases; a spare with its id takes its
place, of whose memory the model lists nothing (log 1); and the launches whose state stands in the image region are reinstalled:
that a state which has been written over is not is log 93. -/
def RecoverySteps : Prop :=
  ∀ (s : State),
    let done := fun (t : State) => (Host.Outcome.next t : Host.Outcome State Fault Refusal)
    let p := s.ev.val % 2 ^ 15
    let f : State := { s with hub := { s.hub with fenced := s.hub.fenced ++ [p] } }
    (p ∈ s.hub.failed → p ∉ s.hub.fenced → p ≠ s.hub.pkg →
      (s.hub.agist = [] → exec .recoveryFence s = done f) ∧
      ∀ t : State, f.endLostLeases = .ok t → exec .recoveryFence s = done t) ∧
    (p ∈ s.hub.fenced → p ≠ s.hub.pkg → s.MemCanonical →
      ∃ t : State, exec .recoveryReconfigure s = done t ∧ p ∉ t.hub.failed ∧ p ∉ t.hub.fenced ∧
        (∀ q, t.byteAt q = if q < 2 ^ 63 ∧ pkgOfPlace q = p then 0 else s.byteAt q) ∧ t.harts = s.harts) ∧
    ((∀ x ∈ s.hub.savedLaunches, s.stands x = false) → exec .recoveryRestore s = done s) ∧
    ∀ x : SavedLaunch, s.hub.savedLaunches = [x] → s.stands x = true →
      ∃ t : State, exec .recoveryRestore s = done t ∧ t.launchAt x.slot = some x.launch ∧
        (∀ c ∈ x.conts, c ∈ t.hub.conts) ∧ ∀ k, (s.hartAt k).slot = some x.slot → t.hartAt k = {}

end Sys2Proof

/-- Pre-emption and recovery (R298, R382, R388, R393, R397 to R404). -/
def Obligations.PreemptAndRecoverySteps : Prop := TrapAndAbortSteps ∧ PreemptionSteps ∧ RecoverySteps

namespace Sys2Proof

/-! ### The fabric, the host port, register writes, boot, management and power (R7, R396, R407, R410 to R412, R415, R424 to
R442) -/

/-- Links and circuits (R395, R396, R426, R428 to R432): replays are counted; buffers retire; a link that fails, or has fewer
than 24 of them, leaves its plane, and the last link of a plane takes the plane with it; a port in training takes its new
state; keepalives of 5 ms and silence of 80 ms; and a removed circuit loses what is in flight. That a link which leaves is a
lasting entry of the error log, with vector 2, is the model's choice (log 47), as is that a flit ends a report of silence
(log 94). -/
def FabricSteps : Prop :=
  ∀ (s : State),
    let done := fun (t : State) => (Host.Outcome.next t : Host.Outcome State Fault Refusal)
    let n := s.ev.idx % 32
    let l := s.linkAt n
    let more : Link := { l with replays := min (l.replays + 1) 0xFFFF }
    let less : Link := { l with retired := min (l.retired + 1) 96 }
    let still := s.stores = [] ∧ s.atomics = [] ∧ s.nears = [] ∧ s.hub.flushMarks = [] ∧ ∀ e ∈ s.harts, e.2.longs = []
    let leaves := fun (i : Instr) (x : Link) =>
      (∀ t : State, (s.setLink n { x with state := l.state }).linkLeaves n x.state = .ok t → exec i s = done t) ∧
      (s.upLinks (n / 4) ≠ [n] ∨ still →
        ∃ t : State, exec i s = done t ∧ t.linkAt n = x ∧ (∀ k, k ≠ n → t.linkAt k = s.linkAt k) ∧ 2 ∈ t.hub.vectors ∧
          3 ∈ t.hub.vectors ∧ (∀ k, k ∈ t.upLinks (n / 4) ↔ k ∈ s.upLinks (n / 4) ∧ k ≠ n) ∧
          (∀ p, n / 4 ∈ t.planesTo p ↔ n / 4 ∈ s.planesTo p ∧ s.upLinks (n / 4) ≠ [n]) ∧ t.stores = s.stores ∧ t.mem = s.mem)
    (s.ev.ok = true → s.ev.aux = 0 → exec .flitReplay s = done ((s.setLink n more).logError logLink n 0 true)) ∧
    (s.ev.ok = false → leaves .flitReplay { more with state := 2 }) ∧
    (s.ev.aux = 1 → exec .linkDegrade s = done (s.logError logLink n 0 true)) ∧
    (s.ev.aux = 0 → (l.state ≠ 0 ∨ l.retired + 1 ≤ 72) → exec .linkDegrade s = done (s.setLink n less)) ∧
    (s.ev.aux = 0 → l.state = 0 → 72 ≤ l.retired → leaves .linkDegrade { less with state := 1 }) ∧
    (∀ t : State, s.ev.aux = 2 → (s.planeLost (s.ev.val % 2 ^ 15) (s.ev.idx % 8) = .ok t → exec .linkDegrade s = done t) ∧
      (s.planeBack (s.ev.val % 2 ^ 15) (s.ev.idx % 8) = .ok t → exec .linkRetrain s = done t)) ∧
    (l.state = 3 → s.ev.aux = 1 → exec .linkRetrain s = done (s.setLink n { l with state := 4 })) ∧
    (l.state = 3 → s.ev.aux = 0 → s.ev.ok = false → exec .linkRetrain s = done (s.setLink n { l with state := 2 })) ∧
    (l.state = 3 → s.ev.aux = 0 → s.ev.ok = true → 72 < l.retired →
      exec .linkRetrain s = done (s.setLink n { l with state := 1 })) ∧
    (l.state = 3 → s.ev.aux = 0 → s.ev.ok = true → l.retired ≤ 72 →
      (∀ t : State, s.linkJoins n = .ok t → exec .linkRetrain s = done t) ∧
      (s.stores = [] → s.atomics = [] → s.nears = [] → ∃ t : State, exec .linkRetrain s = done t ∧
        t.linkAt n = { l with state := 0 } ∧ (∀ k, k ∈ t.upLinks (n / 4) ↔ k ∈ s.upLinks (n / 4) ∨ k = n) ∧ t.mem = s.mem)) ∧
    (s.ev.aux = 0 → Store.get 0 s.hub.keptAt n + 5500000 ≤ s.cycle →
      (s.linkCredit n .control = true →
        exec .keepaliveSend s = done { s with hub := { s.hub with keptAt := Store.set 0 s.hub.keptAt n s.cycle } }) ∧
      (s.linkCredit n .control = false → exec .keepaliveSend s = done s)) ∧
    (let p := s.ev.val % 2 ^ 15
     (s.ev.aux = 1 → ∃ t : State, exec .keepaliveSend s = done t ∧ (∀ x, x ∈ t.hub.silent ↔ x ∈ s.hub.silent ∧ x ≠ 32 * p + n) ∧
       Store.get 0 t.hub.flitAt (32 * p + n) = s.cycle) ∧
     (Store.get 0 s.hub.flitAt (32 * p + n) + 88000000 ≤ s.cycle → ∃ t : State, exec .keepaliveTimeout s = done t ∧
       (∀ x, x ∈ t.hub.silent ↔ x ∈ s.hub.silent ∨ x = 32 * p + n) ∧
       (p ∈ t.hub.failed ↔ p ∈ s.hub.failed ∨ ∀ i, i < 32 → 32 * p + i ∈ t.hub.silent) ∧ t.mem = s.mem) ∧
     (s.cycle < Store.get 0 s.hub.flitAt (32 * p + n) + 88000000 → exec .keepaliveTimeout s = done s)) ∧
    (s.ev.ok = true → ∃ t : State, exec .circuitChange s = done t ∧
      (∀ x ∈ t.stores, s.remote x.place = true → pkgOfPlace x.place ∉ s.ev.list) ∧
      (∀ x ∈ t.atomics, s.remote x.place = true → pkgOfPlace x.place ∉ s.ev.list) ∧
      (∀ p ∈ s.ev.list, p ≠ s.hub.pkg → t.planesTo p = []) ∧ (∀ p, p ∉ s.ev.list → t.planesTo p = s.planesTo p) ∧
      (still → t = { s with hub := { s.hub with awayPlanes := t.hub.awayPlanes } })) ∧
    (s.ev.ok = false → ∃ t : State, exec .circuitChange s = done t ∧
      t = { s with hub := { s.hub with awayPlanes := t.hub.awayPlanes } } ∧
      ∀ e, e ∈ t.hub.awayPlanes ↔ e ∈ s.hub.awayPlanes ∧ (e.1 ∈ s.ev.list → e.1 = s.hub.pkg)) ∧
    (s.hub.agist = [] →
      ∃ t : State, exec .paddockWrite s = done t ∧ t.hub.agist = [] ∧ t.mem = s.mem ∧ ∀ i, i < 128 →
        t.hub.paddock.getLsbD i =
          if (s.ev.aux = 1 ↔ 64 ≤ i) then s.ev.val.testBit (i % 64) else s.hub.paddock.getLsbD i) ∧
    ∀ t : State, (s.writePaddock (s.ev.aux == 1) s.ev.val).endLostLeases = .ok t → exec .paddockWrite s = done t

/-- The host port (R433 to R436): BAR0 reads and writes the hub's registers in aligned accesses of 4 or 8 bytes; BAR2 is a
window into an address space; BAR4 is the MSI-X table and the pending bits, laid out as PCI Express has them (log 99); a
failing access enters the error log, and its read is unsupported, as is every other access; while the port is down, writes
are dropped. -/
def HostPortSteps : Prop :=
  ∀ (s : State),
    let done := fun (t : State) => (Host.Outcome.next t : Host.Outcome State Fault Refusal)
    let x := s.ev.addr
    let l := s.ev.list
    let n := s.ev.val
    let fits0 := fun (n : Nat) => (n = 4 ∨ n = 8) ∧ x % n = 0 ∧ x < 2 ^ 20
    let size := fun (n : Nat) => n = 1 ∨ n = 2 ∨ n = 4 ∨ n = 8
    let y := 0x8000000000 + x
    let a := s.hostAddr x
    (s.hostUp = false → exec .hostWrite s = done s ∧ exec .hostRead s = done (s.answerHost none)) ∧
    (s.hostUp = true → s.ev.idx = 0 →
      (fits0 l.length → ∀ t : State, s.writeDevice true y l.length (ofBytes l) = .ok t → exec .hostWrite s = done t) ∧
      (x = 0x30020 → l.length = 8 → (∀ b ∈ l, b < 256) → exec .hostWrite s = done { s with hub := { s.hub with
        hostwin := BitVec.ofNat 64 (ofBytes l % 2 ^ 12 + ofBytes l / 2 ^ 40 % 2 ^ 15 * 2 ^ 40) } }) ∧
      (¬fits0 l.length → exec .hostWrite s = done s) ∧
      (fits0 n → ∀ v : Nat, s.readReg (y - y % 8) = some v →
        exec .hostRead s = done (s.answerHost (some (bytesOf n (v / 2 ^ (8 * (y % 8)) % 2 ^ (8 * n)))))) ∧
      (¬fits0 n → exec .hostRead s = done (s.answerHost none))) ∧
    (s.hostUp = true → s.ev.idx = 2 →
      (x + l.length ≤ 2 ^ 40 → ∀ (u : State) (c : Chunk), c.n = l.length → c.type = 0 → u.hub.ckdctl = 0 →
        u.hubHeld c = false → u.homeLost c.place = false →
        s.check (s.whoHub s.hostAsid) .store (s.hostAddr x) l.length (State.hostAlign l.length) = .ok (u, [c]) →
        ∃ t : State, exec .hostWrite s = done t ∧ t.bytesAt c.place c.n = l.map (· % 256) ∧
          u.SameMemoryBut t c.place c.n) ∧
      (∀ f : Nat, x + l.length ≤ 2 ^ 40 → size l.length → a % l.length = 0 → HubAt s s.hostAsid a l.length f → s.QuietMemory →
        ∃ t : State, exec .hostWrite s = done t ∧ t.bytesAt (placeIn f a) l.length = l.map (· % 256) ∧
          s.SameMemoryBut t (placeIn f a) l.length) ∧
      (∀ f : Nat, x + n ≤ 2 ^ 40 → size n → a % n = 0 → HubAt s s.hostAsid a n f → s.QuietMemory →
        exec .hostRead s = done (s.answerHost (some (s.bytesAt (placeIn f a) n)))) ∧
      (2 ^ 40 < x + l.length → exec .hostWrite s = done s) ∧
      (x + n ≤ 2 ^ 40 → ∀ (t : State) (b : List Nat),
        s.readBytes (s.whoHub s.hostAsid) (.load n) (s.hostAddr x) n (State.hostAlign n) = .ok (t, b) →
        exec .hostRead s = done (t.answerHost (some b))) ∧
      (x + n ≤ 2 ^ 40 → ∀ (e : Stop) (t : State) (c a : Nat),
        s.readBytes (s.whoHub s.hostAsid) (.load n) (s.hostAddr x) n (State.hostAlign n) = .error e →
        e.trapped s = some (t, c, a) → exec .hostRead s = done ((t.hostError a c).answerHost none)) ∧
      (2 ^ 40 < x + n → exec .hostRead s = done (s.answerHost none))) ∧
    (s.hostUp = true → s.ev.idx = 4 →
      (l.length = 4 → x % 4 = 0 → x < 0x100 → ∃ t : State, exec .hostWrite s = done t ∧
        t.hub.msixWord (x / 4) = ofBytes l % 2 ^ 32 ∧ (∀ i, i ≠ x / 4 → t.hub.msixWord i = s.hub.msixWord i) ∧
        (∀ v, t.hub.pendingBits.testBit v = (s.hub.pendingBits.testBit v &&
          !(decide (x = 16 * v + 12) && decide (ofBytes l % 2 = 0)))) ∧ t.mem = s.mem) ∧
      (l.length = 4 → x % 4 = 0 → 0x100 ≤ x → x < 2 ^ 16 → exec .hostWrite s = done s) ∧
      (n = 4 → x % 4 = 0 → x < 0x100 →
        exec .hostRead s = done (s.answerHost (some (bytesOf 4 (s.hub.msixWord (x / 4)))))) ∧
      (n = 4 → x = 0x8000 → exec .hostRead s = done (s.answerHost (some (bytesOf 4 s.hub.pendingBits)))) ∧
      (¬((l.length = 4 ∨ l.length = 8) ∧ x % l.length = 0 ∧ x < 2 ^ 16) → exec .hostWrite s = done s) ∧
      (¬((n = 4 ∨ n = 8) ∧ x % n = 0 ∧ x < 2 ^ 16) → exec .hostRead s = done (s.answerHost none)))

/-- What MCGSYNC installs from a value (R414, R415): the group of a well-formed entry of the table, of the generation after the
installed one, whose members are in the paddock, each once. -/
def GroupEntry (s : State) (v : Nat) (y : Group) : Prop :=
  let p := placeOf s.hub.pkg (s.hub.mcgtab.toNat / 2 ^ 16 % 2 ^ 29 * 65536 + 64 * v)
  let w := s.readAt p 8
  let old := s.groupAt v
  v < 4096 ∧ w < 2 ^ 32 ∧ w / 2 ^ 13 % 2 ^ 3 = 0 ∧ w / 2 ^ 4 % 2 ^ 4 = 0 ∧ w / 2 % 2 ^ 3 < 4 ∧ w / 2 ^ 8 % 2 ^ 5 < 28 ∧
    w / 2 ^ 16 = (old.gen + 1) % 2 ^ 16 ∧
    y.members = (List.range (w / 2 ^ 8 % 2 ^ 5 + 1)).map (fun i => s.readAt (p + 8 + 2 * i) 2) ∧
    (∀ m ∈ y.members, m < 2 ^ 15 ∧ s.inPaddock m = true) ∧ y.members.Nodup ∧
    y.valid = decide (w % 2 = 1) ∧ y.gen = w / 2 ^ 16 ∧ y.op = w / 2 % 2 ^ 3 ∧
    y.old = if old.valid = true then old.old ++ [(old.gen, old.members)] else old.old

/-- Register writes as steps of their own (R7, R407, R408, R410 to R412, R415, R434, R438), by an occupied strand in supervisor
mode: the fields of the map, with reserved bits ignored; FLOORINT is held between 200 and 1,000,000; MCGSYNC installs the group's
entry after a release, where the entry may be installed; a decoder of a CXL port maps its range once it is committed, where the
model has its registers (log 100). -/
def RegisterWriteSteps : Prop :=
  ∀ (s : State),
    let done := fun (t : State) => (Host.Outcome.next t : Host.Outcome State Fault Refusal)
    let k := 8 * s.ev.core + s.ev.strand
    let h := s.hartAt k
    let u : State := { s with hart := k }
    let v := s.ev.val
    (h.occ = true → h.halted = false → k % 8 ≠ 4 → h.sup = true → v < 2 ^ 64 →
      (∀ e ∈ swrTable h (BitVec.ofNat 64 v), ∀ t, s.ev.list = e.1 :: t → exec .registerWrite s = done (s.setHart k e.2)) ∧
      exec .tstatusWrite s = done (s.setHart k { h with tstatus := v % 2 ^ 8 }) ∧
      exec .asidWrite s = done (s.setHart k { h with asid := v % 2 ^ 12 }) ∧
      (h.slot = none → exec .floorintWrite s = done s) ∧
      (∀ y : Society, s.hub.societies = [y] → h.slot = some y.slot → exec .floorintWrite s =
        done { s with hub := { s.hub with societies := [{ y with interval := max 200 (min (v % 2 ^ 32) 1000000) }] } }) ∧
      (h.slot ≠ none → u.myCore.tableOwner = h.slot → s.ev.idx < 4 →
        ∃ r : BitVec 256, exec .tagRegisterWrite s = done (s.setCore (k / 8) { s.coreAt (k / 8) with tagen := r }) ∧
          ∀ i, i < 256 → r.getLsbD i =
            if i / 64 = s.ev.idx then v.testBit (i % 64) else (s.coreAt (k / 8)).tagen.getLsbD i) ∧
      (u.NothingUnderWay → u.ReleasesFreely →
        (∀ t : State, u.installGroup v = .ok t → exec .mcgsyncWrite s = done { t with hart := s.hart }) ∧
        ∀ y : Group, GroupEntry s v y →
          exec .mcgsyncWrite s = done { s with hub := { s.hub with groups := Store.set {} s.hub.groups v y } })) ∧
    (h.occ = false → s.ev.list ≠ [] → ∀ i, i = Instr.registerWrite ∨ i = .tstatusWrite ∨ i = .asidWrite ∨
      i = .floorintWrite ∨ i = .tagRegisterWrite ∨ i = .mcgsyncWrite → exec i s = done s) ∧
    (s.ev.list = [] →
      (∀ t : State, s.writeDevice true (s.ev.addr / 8 * 8) 8 v = .ok t → exec .registerWrite s = done t) ∧
      (s.ev.addr = 0x8000030020 → v < 2 ^ 64 → exec .registerWrite s = done { s with hub := { s.hub with
        hostwin := BitVec.ofNat 64 (v % 2 ^ 12 + v / 2 ^ 40 % 2 ^ 15 * 2 ^ 40) } }) ∧
      ∀ n p : Nat, n < 8 → p < 2 → s.ev.addr = 0x8000061220 + 0x10000 * p + 32 * n → v < 2 ^ 64 →
        let base := s.hub.decoderWord p n 0 + 2 ^ 32 * s.hub.decoderWord p n 1
        let size := s.hub.decoderWord p n 2 + 2 ^ 32 * s.hub.decoderWord p n 3
        ∃ t : State, exec .registerWrite s = done t ∧ t.mem = s.mem ∧
          ∀ a, t.hub.decodes p n a = (v.testBit 9 && decide (base ≤ a ∧ a < base + size)))

/-- Boot and resets (R407, R439, R441): a reset package has no strand and no scratchpad byte other than zero; it boots from a slot
whose bundle is signed by the key of the fused hash, at a version not below the fused counter, and trains its links, or stays in
reset; and a die's reset clears the die. That HBM is as before, and that a reset package is not booted and has its host port down
until it is powered on, is the model's choice (log 50); how each port's training ends comes with the step (log 113). -/
def BootAndResetSteps : Prop :=
  ∀ (s : State), s.MemCanonical →
    let done := fun (t : State) => (Host.Outcome.next t : Host.Outcome State Fault Refusal)
    let fresh := fun (t : State) => t.harts = [] ∧ t.cores = [] ∧ t.clusters = [] ∧ t.stores = [] ∧ t.atomics = [] ∧
      t.hub.queues = [] ∧ t.hub.launches = [] ∧ t.hub.pkg = s.hub.pkg ∧
      ∀ p, t.byteAt p = if p < 2 ^ 63 then s.byteAt p else 0
    let passes := fun (i : Nat) => ∃ b : Bundle, s.hub.slots[i]? = some b ∧ b.signed = true ∧ b.keyHash = s.hub.keyFuse ∧
      s.hub.rollback ≤ b.version
    let good := passes s.hub.activeSlot ∨ passes (1 - s.hub.activeSlot)
    let d := s.ev.idx % 4
    (∃ t : State, exec .packageReset s = done t ∧ fresh t ∧ t.hub.booted = false ∧ t.hostUp = false) ∧
    (s.hub.booted = true → exec .powerOn s = done s) ∧
    (s.hub.booted = false →
      (good → s.ev.ok = true → ∃ t : State, exec .powerOn s = done t ∧ fresh t ∧ t.hub.booted = true ∧ t.hostUp = true ∧
        ∀ n, n < 32 → (t.linkAt n).state = s.ev.list.getD n 0 % 5) ∧
      (good → s.ev.ok = false → ∃ t : State, exec .powerOn s = done t ∧ fresh t ∧ t.hub.booted = false ∧
        ∃ e ∈ t.hub.errorLog, e.kind = logFirmware) ∧
      (¬good → ∃ t : State, exec .powerOn s = done t ∧ fresh t ∧ t.hub.booted = false ∧ t.hub.bootFail = true)) ∧
    ∃ t : State, exec .dieReset s = done t ∧ (∀ k, dieOf (k / 8) = d → t.hartAt k = {}) ∧
      (∀ c, dieOf c = d → t.coreAt c = {}) ∧ t.cycleOf d = 0 ∧
      ∀ p, t.byteAt p = if State.onDie d p = true then 0 else s.byteAt p

/-- Management and power (R436, R439, R440, R442): the firmware slots, the error log, readings whose values but for the power are
free (log 4), the cap between 1,000 and 2,800 W in steps of 10 W, the vectors, and the clock's steps between 8 and 16 sixteenths,
down while the measured power exceeds the cap and up once it is 5 % below it. The measured power and the firmware bundle come with
the step (log 113). -/
def ManagementAndPowerSteps : Prop :=
  ∀ (s : State),
    let done := fun (t : State) => (Host.Outcome.next t : Host.Outcome State Fault Refusal)
    let u := s.hub
    let hub := fun (x : Hub) => (Host.Outcome.next { s with hub := x } : Host.Outcome State Fault Refusal)
    let m : Hub := { u with power := s.ev.val }
    let good := s.ev.ok = true ∧ s.ev.aux = u.keyFuse ∧ u.rollback ≤ s.ev.val
    (∃ t : State, exec .firmwareUpdate s = done t ∧
      (good → t.hub.activeSlot = 1 - u.activeSlot) ∧ (¬good → t.hub.activeSlot = u.activeSlot) ∧
      t = { s with hub := { u with activeSlot := t.hub.activeSlot, slots := t.hub.slots } } ∧
      (u.slots.length = 2 → u.activeSlot < 2 → t.hub.slots[u.activeSlot]? = u.slots[u.activeSlot]? ∧
        t.hub.slots[1 - u.activeSlot]? = some { keyHash := s.ev.aux, signed := s.ev.ok, version := s.ev.val })) ∧
    exec .readErrorLog s = hub { u with answers := (u.errorLog.flatMap
      (fun e => [e.time, e.kind, e.location, e.cause, bool1 e.transient])).map (BitVec.ofNat 64) } ∧
    (∃ t : State, exec .readSensors s = done t ∧ t.hub.answers.length = 14 ∧
      t.hub.answers[0]? = some (BitVec.ofNat 64 u.power) ∧
      t = { s with fresh := t.fresh, hub := { u with answers := t.hub.answers } }) ∧
    (∃ t : State, exec .getMeasurements s = done t ∧ t.hub.answers.length = 5 ∧
      t = { s with fresh := t.fresh, hub := { u with answers := t.hub.answers } }) ∧
    (∃ p : Nat, exec .setPowerCap s = hub { u with pcap := p, answers := [BitVec.ofNat 64 p] } ∧ 1000 ≤ p ∧ p ≤ 2800 ∧ p % 10 = 0 ∧
      (1000 ≤ s.ev.val → s.ev.val ≤ 2800 → p ≤ s.ev.val ∧ s.ev.val < p + 10)) ∧
    (let bits := if u.msixWord 19 % 2 = 1 then u.pendingBits ||| 2 ^ 4 else u.pendingBits
     exec .notifyHost s = hub { u with vectors := u.vectors ++ [4], pendingBits := bits }) ∧
    (u.pcap < s.ev.val → 8 < u.clockStep →
      exec .powerThrottle s = hub { m with clockStep := u.clockStep - 1, powerAt := s.cycle }) ∧
    ((s.ev.val ≤ u.pcap ∨ u.clockStep ≤ 8) → exec .powerThrottle s = hub m) ∧
    ((s.ev.val ≤ u.pcap ∨ u.clockStep ≠ 8 ∨ u.gating = true ∨ s.cycle < u.powerAt + 5500000) → exec .issueGating s = hub m) ∧
    (u.pcap < s.ev.val → u.clockStep = 8 → u.gating = false → u.powerAt + 5500000 ≤ s.cycle →
      ∃ t : State, exec .issueGating s = done t ∧
      t.hub.gating = true ∧ t.hub.power = s.ev.val ∧ t.hub.vectors = u.vectors ++ [5] ∧
      ∃ e ∈ t.hub.errorLog, e.kind = logPower ∧ e.transient = true ∧ e.time = s.cycle) ∧
    (95 * u.pcap < 100 * s.ev.val → exec .powerRecover s = hub m) ∧
    (100 * s.ev.val ≤ 95 * u.pcap →
      (u.gating = true → exec .powerRecover s = hub { m with gating := false, powerAt := s.cycle }) ∧
      (u.gating = false → u.clockStep < 16 →
        exec .powerRecover s = hub { m with clockStep := u.clockStep + 1, powerAt := s.cycle }) ∧
      (u.gating = false → 16 ≤ u.clockStep → exec .powerRecover s = hub m))

end Sys2Proof

/-- The steps of the fabric and of the host port (R396, R424 to R435). -/
def Obligations.FabricAndHostSteps : Prop := FabricSteps ∧ HostPortSteps

/-- Register writes, boot, resets, management and power as steps (R7, R407, R410 to R412, R415, R436, R439 to R442). -/
def Obligations.RegisterAndManagementSteps : Prop := RegisterWriteSteps ∧ BootAndResetSteps ∧ ManagementAndPowerSteps

/-! ### Reset, and the invariant of memory (R7, R360 to R362, R380, R397, R407 to R413, R424, R431, R434, R439) -/

/-- What reset leaves: no strand runs, and its registers hold their values at reset; the descriptors of the queues, the
hub's registers and the package sysregs hold theirs; every port is in training; and every scratchpad byte is zero (R439).
That every other byte reads as zero too is the model's choice (log 1), as are the package id 0, with the fold 0 (log 2), and
the zero of the registers to which no rule gives a value (log 2). -/
def Obligations.ResetLeaves : Prop :=
  let s := State.reset
  let u := s.hub
  (∀ k, let h := s.hartAt k
    h.occ = false ∧ h.fflags = 0 ∧ h.vt = BitVec.allOnes 64 ∧ h.ectx = 0 ∧ h.rngseed = 0 ∧ h.rngstream = 0 ∧ h.ecapdef = 64 ∧
    h.retired = 0 ∧ h.mstatus = 0 ∧ h.lc = 0 ∧ h.mcause = 0 ∧ h.tcause = 0 ∧ h.tepc = 0 ∧ h.tval = 0 ∧ h.tstatus = 0 ∧
    h.tresume = 0 ∧ ∀ r, h.readS r = 0 ∧ h.readF r = 0 ∧ h.readV r = 0) ∧
  (∀ c, (s.coreAt c).tagpnd = 0 ∧ (s.coreAt c).msgdrop = 0 ∧ (s.coreAt c).dqCount = 0 ∧ (s.coreAt c).inbox = []) ∧
  (∀ q o, q < 1024 → o < 8 → s.readReg (0x8000010000 + 64 * q + 8 * o) = some 0) ∧
  s.readReg 0x8000030000 = some 0 ∧ s.readReg 0x8000030008 = some 0 ∧ s.readReg 0x8000030010 = some (2 * 2 ^ 8) ∧
  s.readReg 0x8000030018 = some 0 ∧ s.readReg 0x8000030020 = some 0 ∧
  (∀ n, n < 32 → s.readReg (0x8000050000 + 8 * n) = some (n / 4 * 8 + 3)) ∧
  s.readReg 0x8000050100 = some 1 ∧ s.readReg 0x8000050108 = some 0 ∧
  u.asidtab = 0 ∧ u.migctl = 0 ∧ u.imgbase = 0 ∧ u.ckdctl = 0 ∧ u.mcgtab = 0 ∧ (∀ d, s.cycleOf d = 0) ∧
  (∀ p, s.byteAt p = 0) ∧ s.poison = [] ∧ s.MemCanonical

/-- Every step keeps memory in its canonical form: the addresses of the list rise, and no byte that it lists is one that an
unlisted address reads as. So two memories that read alike at every address are one list. -/
def Obligations.MemoryCanonicalKeptByStep : Prop :=
  (∀ s t : State, s.MemCanonical → step s = .next t → t.MemCanonical) ∧
  ∀ s t : State, s.MemCanonical → t.MemCanonical → (∀ p, t.byteAt p = s.byteAt p) → t.mem = s.mem

end
end

