-- ==== Sys2Proof/Laws/Store.lean ====
section
/-!
SUPPORT. The laws of sparse tables: a read after a write, and the canonical form of what a write or a filter leaves.
-/

namespace Sys2Proof.Store

variable {α : Type}

@[simp] theorem get_nil (d : α) (k : Nat) : get d [] k = d := rfl

theorem get_drop_same (d : α) (l : Store α) (k : Nat) : get d (drop l k) k = d := by
  induction l with
  | nil => rfl
  | cons e t ih => by_cases h : e.1 = k <;> simp [drop, get, h, ih]

theorem get_drop_other (d : α) (l : Store α) {k j : Nat} (hj : j ≠ k) : get d (drop l k) j = get d l j := by
  induction l with
  | nil => rfl
  | cons e t ih =>
    by_cases h : e.1 = k
    · simp [drop, get, h, ih, Ne.symm hj]
    · simp [drop, get, h, ih]

theorem get_put_drop_same (d : α) (l : Store α) (k : Nat) (v : α) : get d (put (drop l k) k v) k = v := by
  induction l with
  | nil => simp [drop, put, get]
  | cons e t ih =>
    by_cases h : e.1 = k
    · simpa [drop, h] using ih
    · by_cases hlt : k < e.1
      · simp [drop, put, get, h, hlt]
      · simp [drop, put, get, h, hlt, ih]

theorem get_put_other (d : α) (l : Store α) {k j : Nat} (v : α) (hj : j ≠ k) : get d (put l k v) j = get d l j := by
  induction l with
  | nil => simp [put, get, Ne.symm hj]
  | cons e t ih =>
    by_cases hlt : k < e.1
    · simp [put, get, hlt, Ne.symm hj]
    · simp [put, get, hlt, ih]

section Set
variable [DecidableEq α]

/-- The value just written is read. -/
@[simp] theorem get_set_same (d : α) (l : Store α) (k : Nat) (v : α) : get d (set d l k v) k = v := by
  by_cases h : v = d
  · simp [set, h, get_drop_same]
  · simp [set, h, get_put_drop_same]

/-- A write leaves every other key alone. -/
theorem get_set_other (d : α) (l : Store α) {k j : Nat} (v : α) (hj : j ≠ k) : get d (set d l k v) j = get d l j := by
  by_cases h : v = d
  · simp [set, h, get_drop_other d l hj]
  · simp [set, h, get_put_other d _ v hj, get_drop_other d l hj]

theorem get_set (d : α) (l : Store α) (k j : Nat) (v : α) :
    get d (set d l k v) j = if j = k then v else get d l j := by
  by_cases h : j = k
  · simp [h]
  · simp [h, get_set_other d l v h]

/-! ### The canonical form -/

theorem wfFrom_mono (d : α) {lo hi : Nat} (h : lo ≤ hi) {l : Store α} (hw : wfFrom d hi l = true) :
    wfFrom d lo l = true := by
  cases l with
  | nil => rfl
  | cons e t =>
    simp only [wfFrom, Bool.and_eq_true, decide_eq_true_eq] at hw ⊢
    exact ⟨⟨Nat.le_trans h hw.1.1, hw.1.2⟩, hw.2⟩

theorem wfFrom_drop (d : α) (k : Nat) : ∀ (l : Store α) (lo : Nat), wfFrom d lo l = true → wfFrom d lo (drop l k) = true
  | [], _, _ => rfl
  | (k', v) :: t, lo, hw => by
    simp only [wfFrom, Bool.and_eq_true, decide_eq_true_eq] at hw
    have ih := wfFrom_drop d k t (k' + 1) hw.2
    by_cases h : k' = k
    · simpa [drop, h] using wfFrom_mono d (by omega) ih
    · simp [drop, h, wfFrom, hw.1.1, hw.1.2, ih]

theorem wfFrom_put_drop (d : α) (k : Nat) (v : α) (hv : v ≠ d) :
    ∀ (l : Store α) (lo : Nat), lo ≤ k → wfFrom d lo l = true → wfFrom d lo (put (drop l k) k v) = true
  | [], lo, hlo, _ => by simp [drop, put, wfFrom, hlo, hv]
  | (k', v') :: t, lo, hlo, hw => by
    simp only [wfFrom, Bool.and_eq_true, decide_eq_true_eq] at hw
    by_cases h : k' = k
    · simpa [drop, h] using
        wfFrom_put_drop d k v hv t lo hlo (wfFrom_mono d (by omega) hw.2)
    · by_cases hlt : k < k'
      · have ht := wfFrom_mono d (Nat.le_refl _) (wfFrom_drop d k t (k' + 1) hw.2)
        simp [drop, h, put, hlt, wfFrom, hlo, hv, hw.1.2, ht] <;> omega
      · simp [drop, h, put, hlt, wfFrom, hw.1.1, hw.1.2, wfFrom_put_drop d k v hv t (k' + 1) (by omega) hw.2]

/-- A write keeps the canonical form. -/
theorem wf_set (d : α) {l : Store α} (k : Nat) (v : α) (hw : wf d l = true) : wf d (set d l k v) = true := by
  by_cases h : v = d
  · simpa [wf, set, h] using wfFrom_drop d k l 0 hw
  · simpa [wf, set, h] using wfFrom_put_drop d k v h l 0 (Nat.zero_le k) hw

theorem wfFrom_filter (d : α) (p : Nat × α → Bool) :
    ∀ (l : Store α) (lo : Nat), wfFrom d lo l = true → wfFrom d lo (l.filter p) = true
  | [], _, _ => rfl
  | e :: t, lo, hw => by
    simp only [wfFrom, Bool.and_eq_true, decide_eq_true_eq] at hw
    have ih := wfFrom_filter d p t (e.1 + 1) hw.2
    by_cases h : p e = true
    · simp [List.filter, h, wfFrom, hw.1.1, hw.1.2, ih]
    · simpa [List.filter, h] using wfFrom_mono d (by omega) ih

/-- A filter keeps the canonical form. -/
theorem wf_filter (d : α) (p : Nat × α → Bool) {l : Store α} (hw : wf d l = true) : wf d (l.filter p) = true :=
  wfFrom_filter d p l 0 hw

end Set

end Sys2Proof.Store
end

