-- ==== Sys2Proof/Laws/State.lean ====
section
/-!
SUPPORT. What each update of the state does to each field, and the reads of a unit after its write.
-/

namespace Sys2Proof.Machine.State

/-! ### setHart -/

@[simp] theorem setHart_hart (s : State) (k : Nat) (h : Hart) : (s.setHart k h).hart = s.hart := rfl
@[simp] theorem setHart_issuing (s : State) (k : Nat) (h : Hart) : (s.setHart k h).issuing = s.issuing := rfl
@[simp] theorem setHart_ev (s : State) (k : Nat) (h : Hart) : (s.setHart k h).ev = s.ev := rfl
@[simp] theorem setHart_agenda (s : State) (k : Nat) (h : Hart) : (s.setHart k h).agenda = s.agenda := rfl
@[simp] theorem setHart_harts (s : State) (k : Nat) (h : Hart) : (s.setHart k h).harts = Store.set {} s.harts k h := rfl
@[simp] theorem setHart_cores (s : State) (k : Nat) (h : Hart) : (s.setHart k h).cores = s.cores := rfl
@[simp] theorem setHart_clusters (s : State) (k : Nat) (h : Hart) : (s.setHart k h).clusters = s.clusters := rfl
@[simp] theorem setHart_mem (s : State) (k : Nat) (h : Hart) : (s.setHart k h).mem = s.mem := rfl
@[simp] theorem setHart_poison (s : State) (k : Nat) (h : Hart) : (s.setHart k h).poison = s.poison := rfl
@[simp] theorem setHart_written (s : State) (k : Nat) (h : Hart) : (s.setHart k h).written = s.written := rfl
@[simp] theorem setHart_stores (s : State) (k : Nat) (h : Hart) : (s.setHart k h).stores = s.stores := rfl
@[simp] theorem setHart_atomics (s : State) (k : Nat) (h : Hart) : (s.setHart k h).atomics = s.atomics := rfl
@[simp] theorem setHart_nears (s : State) (k : Nat) (h : Hart) : (s.setHart k h).nears = s.nears := rfl
@[simp] theorem setHart_tlbs (s : State) (k : Nat) (h : Hart) : (s.setHart k h).tlbs = s.tlbs := rfl
@[simp] theorem setHart_walks (s : State) (k : Nat) (h : Hart) : (s.setHart k h).walks = s.walks := rfl
@[simp] theorem setHart_walkQueue (s : State) (k : Nat) (h : Hart) : (s.setHart k h).walkQueue = s.walkQueue := rfl
@[simp] theorem setHart_hub (s : State) (k : Nat) (h : Hart) : (s.setHart k h).hub = s.hub := rfl
@[simp] theorem setHart_fresh (s : State) (k : Nat) (h : Hart) : (s.setHart k h).fresh = s.fresh := rfl
@[simp] theorem setHart_cycle (s : State) (k : Nat) (h : Hart) : (s.setHart k h).cycle = s.cycle := rfl

/-! ### setMe -/

@[simp] theorem setMe_hart (s : State) (h : Hart) : (s.setMe h).hart = s.hart := rfl
@[simp] theorem setMe_issuing (s : State) (h : Hart) : (s.setMe h).issuing = s.issuing := rfl
@[simp] theorem setMe_ev (s : State) (h : Hart) : (s.setMe h).ev = s.ev := rfl
@[simp] theorem setMe_agenda (s : State) (h : Hart) : (s.setMe h).agenda = s.agenda := rfl
@[simp] theorem setMe_harts (s : State) (h : Hart) : (s.setMe h).harts = Store.set {} s.harts s.hart h := rfl
@[simp] theorem setMe_cores (s : State) (h : Hart) : (s.setMe h).cores = s.cores := rfl
@[simp] theorem setMe_clusters (s : State) (h : Hart) : (s.setMe h).clusters = s.clusters := rfl
@[simp] theorem setMe_mem (s : State) (h : Hart) : (s.setMe h).mem = s.mem := rfl
@[simp] theorem setMe_poison (s : State) (h : Hart) : (s.setMe h).poison = s.poison := rfl
@[simp] theorem setMe_written (s : State) (h : Hart) : (s.setMe h).written = s.written := rfl
@[simp] theorem setMe_stores (s : State) (h : Hart) : (s.setMe h).stores = s.stores := rfl
@[simp] theorem setMe_atomics (s : State) (h : Hart) : (s.setMe h).atomics = s.atomics := rfl
@[simp] theorem setMe_nears (s : State) (h : Hart) : (s.setMe h).nears = s.nears := rfl
@[simp] theorem setMe_tlbs (s : State) (h : Hart) : (s.setMe h).tlbs = s.tlbs := rfl
@[simp] theorem setMe_walks (s : State) (h : Hart) : (s.setMe h).walks = s.walks := rfl
@[simp] theorem setMe_walkQueue (s : State) (h : Hart) : (s.setMe h).walkQueue = s.walkQueue := rfl
@[simp] theorem setMe_hub (s : State) (h : Hart) : (s.setMe h).hub = s.hub := rfl
@[simp] theorem setMe_fresh (s : State) (h : Hart) : (s.setMe h).fresh = s.fresh := rfl
@[simp] theorem setMe_cycle (s : State) (h : Hart) : (s.setMe h).cycle = s.cycle := rfl

/-! ### setCore -/

@[simp] theorem setCore_hart (s : State) (k : Nat) (x : Core) : (s.setCore k x).hart = s.hart := rfl
@[simp] theorem setCore_issuing (s : State) (k : Nat) (x : Core) : (s.setCore k x).issuing = s.issuing := rfl
@[simp] theorem setCore_ev (s : State) (k : Nat) (x : Core) : (s.setCore k x).ev = s.ev := rfl
@[simp] theorem setCore_agenda (s : State) (k : Nat) (x : Core) : (s.setCore k x).agenda = s.agenda := rfl
@[simp] theorem setCore_harts (s : State) (k : Nat) (x : Core) : (s.setCore k x).harts = s.harts := rfl
@[simp] theorem setCore_cores (s : State) (k : Nat) (x : Core) : (s.setCore k x).cores = Store.set {} s.cores k x := rfl
@[simp] theorem setCore_clusters (s : State) (k : Nat) (x : Core) : (s.setCore k x).clusters = s.clusters := rfl
@[simp] theorem setCore_mem (s : State) (k : Nat) (x : Core) : (s.setCore k x).mem = s.mem := rfl
@[simp] theorem setCore_poison (s : State) (k : Nat) (x : Core) : (s.setCore k x).poison = s.poison := rfl
@[simp] theorem setCore_written (s : State) (k : Nat) (x : Core) : (s.setCore k x).written = s.written := rfl
@[simp] theorem setCore_stores (s : State) (k : Nat) (x : Core) : (s.setCore k x).stores = s.stores := rfl
@[simp] theorem setCore_atomics (s : State) (k : Nat) (x : Core) : (s.setCore k x).atomics = s.atomics := rfl
@[simp] theorem setCore_nears (s : State) (k : Nat) (x : Core) : (s.setCore k x).nears = s.nears := rfl
@[simp] theorem setCore_tlbs (s : State) (k : Nat) (x : Core) : (s.setCore k x).tlbs = s.tlbs := rfl
@[simp] theorem setCore_walks (s : State) (k : Nat) (x : Core) : (s.setCore k x).walks = s.walks := rfl
@[simp] theorem setCore_walkQueue (s : State) (k : Nat) (x : Core) : (s.setCore k x).walkQueue = s.walkQueue := rfl
@[simp] theorem setCore_hub (s : State) (k : Nat) (x : Core) : (s.setCore k x).hub = s.hub := rfl
@[simp] theorem setCore_fresh (s : State) (k : Nat) (x : Core) : (s.setCore k x).fresh = s.fresh := rfl
@[simp] theorem setCore_cycle (s : State) (k : Nat) (x : Core) : (s.setCore k x).cycle = s.cycle := rfl

/-! ### setCluster -/

@[simp] theorem setCluster_hart (s : State) (k : Nat) (x : Cluster) : (s.setCluster k x).hart = s.hart := rfl
@[simp] theorem setCluster_issuing (s : State) (k : Nat) (x : Cluster) : (s.setCluster k x).issuing = s.issuing := rfl
@[simp] theorem setCluster_ev (s : State) (k : Nat) (x : Cluster) : (s.setCluster k x).ev = s.ev := rfl
@[simp] theorem setCluster_agenda (s : State) (k : Nat) (x : Cluster) : (s.setCluster k x).agenda = s.agenda := rfl
@[simp] theorem setCluster_harts (s : State) (k : Nat) (x : Cluster) : (s.setCluster k x).harts = s.harts := rfl
@[simp] theorem setCluster_cores (s : State) (k : Nat) (x : Cluster) : (s.setCluster k x).cores = s.cores := rfl
@[simp] theorem setCluster_clusters (s : State) (k : Nat) (x : Cluster) : (s.setCluster k x).clusters = Store.set {} s.clusters k x := rfl
@[simp] theorem setCluster_mem (s : State) (k : Nat) (x : Cluster) : (s.setCluster k x).mem = s.mem := rfl
@[simp] theorem setCluster_poison (s : State) (k : Nat) (x : Cluster) : (s.setCluster k x).poison = s.poison := rfl
@[simp] theorem setCluster_written (s : State) (k : Nat) (x : Cluster) : (s.setCluster k x).written = s.written := rfl
@[simp] theorem setCluster_stores (s : State) (k : Nat) (x : Cluster) : (s.setCluster k x).stores = s.stores := rfl
@[simp] theorem setCluster_atomics (s : State) (k : Nat) (x : Cluster) : (s.setCluster k x).atomics = s.atomics := rfl
@[simp] theorem setCluster_nears (s : State) (k : Nat) (x : Cluster) : (s.setCluster k x).nears = s.nears := rfl
@[simp] theorem setCluster_tlbs (s : State) (k : Nat) (x : Cluster) : (s.setCluster k x).tlbs = s.tlbs := rfl
@[simp] theorem setCluster_walks (s : State) (k : Nat) (x : Cluster) : (s.setCluster k x).walks = s.walks := rfl
@[simp] theorem setCluster_walkQueue (s : State) (k : Nat) (x : Cluster) : (s.setCluster k x).walkQueue = s.walkQueue := rfl
@[simp] theorem setCluster_hub (s : State) (k : Nat) (x : Cluster) : (s.setCluster k x).hub = s.hub := rfl
@[simp] theorem setCluster_fresh (s : State) (k : Nat) (x : Cluster) : (s.setCluster k x).fresh = s.fresh := rfl
@[simp] theorem setCluster_cycle (s : State) (k : Nat) (x : Cluster) : (s.setCluster k x).cycle = s.cycle := rfl

/-! ### setLaunch -/

@[simp] theorem setLaunch_hart (s : State) (k : Nat) (l : Option Launch) : (s.setLaunch k l).hart = s.hart := rfl
@[simp] theorem setLaunch_issuing (s : State) (k : Nat) (l : Option Launch) : (s.setLaunch k l).issuing = s.issuing := rfl
@[simp] theorem setLaunch_ev (s : State) (k : Nat) (l : Option Launch) : (s.setLaunch k l).ev = s.ev := rfl
@[simp] theorem setLaunch_agenda (s : State) (k : Nat) (l : Option Launch) : (s.setLaunch k l).agenda = s.agenda := rfl
@[simp] theorem setLaunch_harts (s : State) (k : Nat) (l : Option Launch) : (s.setLaunch k l).harts = s.harts := rfl
@[simp] theorem setLaunch_cores (s : State) (k : Nat) (l : Option Launch) : (s.setLaunch k l).cores = s.cores := rfl
@[simp] theorem setLaunch_clusters (s : State) (k : Nat) (l : Option Launch) : (s.setLaunch k l).clusters = s.clusters := rfl
@[simp] theorem setLaunch_mem (s : State) (k : Nat) (l : Option Launch) : (s.setLaunch k l).mem = s.mem := rfl
@[simp] theorem setLaunch_poison (s : State) (k : Nat) (l : Option Launch) : (s.setLaunch k l).poison = s.poison := rfl
@[simp] theorem setLaunch_written (s : State) (k : Nat) (l : Option Launch) : (s.setLaunch k l).written = s.written := rfl
@[simp] theorem setLaunch_stores (s : State) (k : Nat) (l : Option Launch) : (s.setLaunch k l).stores = s.stores := rfl
@[simp] theorem setLaunch_atomics (s : State) (k : Nat) (l : Option Launch) : (s.setLaunch k l).atomics = s.atomics := rfl
@[simp] theorem setLaunch_nears (s : State) (k : Nat) (l : Option Launch) : (s.setLaunch k l).nears = s.nears := rfl
@[simp] theorem setLaunch_tlbs (s : State) (k : Nat) (l : Option Launch) : (s.setLaunch k l).tlbs = s.tlbs := rfl
@[simp] theorem setLaunch_walks (s : State) (k : Nat) (l : Option Launch) : (s.setLaunch k l).walks = s.walks := rfl
@[simp] theorem setLaunch_walkQueue (s : State) (k : Nat) (l : Option Launch) : (s.setLaunch k l).walkQueue = s.walkQueue := rfl
@[simp] theorem setLaunch_hub (s : State) (k : Nat) (l : Option Launch) : (s.setLaunch k l).hub = { s.hub with launches := Store.set none s.hub.launches k l } := rfl
@[simp] theorem setLaunch_fresh (s : State) (k : Nat) (l : Option Launch) : (s.setLaunch k l).fresh = s.fresh := rfl
@[simp] theorem setLaunch_cycle (s : State) (k : Nat) (l : Option Launch) : (s.setLaunch k l).cycle = s.cycle := rfl

/-! ### setQueue -/

@[simp] theorem setQueue_hart (s : State) (k : Nat) (x : Queue) : (s.setQueue k x).hart = s.hart := rfl
@[simp] theorem setQueue_issuing (s : State) (k : Nat) (x : Queue) : (s.setQueue k x).issuing = s.issuing := rfl
@[simp] theorem setQueue_ev (s : State) (k : Nat) (x : Queue) : (s.setQueue k x).ev = s.ev := rfl
@[simp] theorem setQueue_agenda (s : State) (k : Nat) (x : Queue) : (s.setQueue k x).agenda = s.agenda := rfl
@[simp] theorem setQueue_harts (s : State) (k : Nat) (x : Queue) : (s.setQueue k x).harts = s.harts := rfl
@[simp] theorem setQueue_cores (s : State) (k : Nat) (x : Queue) : (s.setQueue k x).cores = s.cores := rfl
@[simp] theorem setQueue_clusters (s : State) (k : Nat) (x : Queue) : (s.setQueue k x).clusters = s.clusters := rfl
@[simp] theorem setQueue_mem (s : State) (k : Nat) (x : Queue) : (s.setQueue k x).mem = s.mem := rfl
@[simp] theorem setQueue_poison (s : State) (k : Nat) (x : Queue) : (s.setQueue k x).poison = s.poison := rfl
@[simp] theorem setQueue_written (s : State) (k : Nat) (x : Queue) : (s.setQueue k x).written = s.written := rfl
@[simp] theorem setQueue_stores (s : State) (k : Nat) (x : Queue) : (s.setQueue k x).stores = s.stores := rfl
@[simp] theorem setQueue_atomics (s : State) (k : Nat) (x : Queue) : (s.setQueue k x).atomics = s.atomics := rfl
@[simp] theorem setQueue_nears (s : State) (k : Nat) (x : Queue) : (s.setQueue k x).nears = s.nears := rfl
@[simp] theorem setQueue_tlbs (s : State) (k : Nat) (x : Queue) : (s.setQueue k x).tlbs = s.tlbs := rfl
@[simp] theorem setQueue_walks (s : State) (k : Nat) (x : Queue) : (s.setQueue k x).walks = s.walks := rfl
@[simp] theorem setQueue_walkQueue (s : State) (k : Nat) (x : Queue) : (s.setQueue k x).walkQueue = s.walkQueue := rfl
@[simp] theorem setQueue_hub (s : State) (k : Nat) (x : Queue) : (s.setQueue k x).hub = { s.hub with queues := Store.set {} s.hub.queues k x } := rfl
@[simp] theorem setQueue_fresh (s : State) (k : Nat) (x : Queue) : (s.setQueue k x).fresh = s.fresh := rfl
@[simp] theorem setQueue_cycle (s : State) (k : Nat) (x : Queue) : (s.setQueue k x).cycle = s.cycle := rfl

/-! ### setByte -/

@[simp] theorem setByte_hart (s : State) (p x : Nat) : (s.setByte p x).hart = s.hart := rfl
@[simp] theorem setByte_issuing (s : State) (p x : Nat) : (s.setByte p x).issuing = s.issuing := rfl
@[simp] theorem setByte_ev (s : State) (p x : Nat) : (s.setByte p x).ev = s.ev := rfl
@[simp] theorem setByte_agenda (s : State) (p x : Nat) : (s.setByte p x).agenda = s.agenda := rfl
@[simp] theorem setByte_harts (s : State) (p x : Nat) : (s.setByte p x).harts = s.harts := rfl
@[simp] theorem setByte_cores (s : State) (p x : Nat) : (s.setByte p x).cores = s.cores := rfl
@[simp] theorem setByte_clusters (s : State) (p x : Nat) : (s.setByte p x).clusters = s.clusters := rfl
@[simp] theorem setByte_mem (s : State) (p x : Nat) : (s.setByte p x).mem = Store.set unlistedByte s.mem p (BitVec.ofNat 8 x) := rfl
@[simp] theorem setByte_poison (s : State) (p x : Nat) : (s.setByte p x).poison = s.poison := rfl
@[simp] theorem setByte_written (s : State) (p x : Nat) : (s.setByte p x).written = s.written := rfl
@[simp] theorem setByte_stores (s : State) (p x : Nat) : (s.setByte p x).stores = s.stores := rfl
@[simp] theorem setByte_atomics (s : State) (p x : Nat) : (s.setByte p x).atomics = s.atomics := rfl
@[simp] theorem setByte_nears (s : State) (p x : Nat) : (s.setByte p x).nears = s.nears := rfl
@[simp] theorem setByte_tlbs (s : State) (p x : Nat) : (s.setByte p x).tlbs = s.tlbs := rfl
@[simp] theorem setByte_walks (s : State) (p x : Nat) : (s.setByte p x).walks = s.walks := rfl
@[simp] theorem setByte_walkQueue (s : State) (p x : Nat) : (s.setByte p x).walkQueue = s.walkQueue := rfl
@[simp] theorem setByte_hub (s : State) (p x : Nat) : (s.setByte p x).hub = s.hub := rfl
@[simp] theorem setByte_fresh (s : State) (p x : Nat) : (s.setByte p x).fresh = s.fresh := rfl
@[simp] theorem setByte_cycle (s : State) (p x : Nat) : (s.setByte p x).cycle = s.cycle := rfl

/-! ### Reads after writes -/

@[simp] theorem hartAt_setHart (s : State) (k : Nat) (h : Hart) : (s.setHart k h).hartAt k = h := by
  simp [hartAt]

theorem hartAt_setHart_other (s : State) {k j : Nat} (h : Hart) (hj : j ≠ k) : (s.setHart k h).hartAt j = s.hartAt j := by
  simp [hartAt, Store.get_set_other _ _ _ hj]

@[simp] theorem me_setMe (s : State) (h : Hart) : (s.setMe h).me = h := by
  simp [me, hartAt]

theorem hartAt_setMe_other (s : State) {j : Nat} (h : Hart) (hj : j ≠ s.hart) : (s.setMe h).hartAt j = s.hartAt j := by
  simp [hartAt, Store.get_set_other _ _ _ hj]

@[simp] theorem coreNo_setMe (s : State) (h : Hart) : (s.setMe h).coreNo = s.coreNo := rfl
@[simp] theorem strandNo_setMe (s : State) (h : Hart) : (s.setMe h).strandNo = s.strandNo := rfl
@[simp] theorem isDrover_setMe (s : State) (h : Hart) : (s.setMe h).isDrover = s.isDrover := rfl
@[simp] theorem myCore_setMe (s : State) (h : Hart) : (s.setMe h).myCore = s.myCore := rfl

@[simp] theorem coreAt_setCore (s : State) (k : Nat) (x : Core) : (s.setCore k x).coreAt k = x := by
  simp [coreAt]

theorem coreAt_setCore_other (s : State) {k j : Nat} (x : Core) (hj : j ≠ k) : (s.setCore k x).coreAt j = s.coreAt j := by
  simp [coreAt, Store.get_set_other _ _ _ hj]

@[simp] theorem clusterAt_setCluster (s : State) (k : Nat) (x : Cluster) : (s.setCluster k x).clusterAt k = x := by
  simp [clusterAt]

@[simp] theorem launchAt_setLaunch (s : State) (k : Nat) (l : Option Launch) : (s.setLaunch k l).launchAt k = l := by
  simp [launchAt]

@[simp] theorem queueAt_setQueue (s : State) (k : Nat) (x : Queue) : (s.setQueue k x).queueAt k = x := by
  simp [queueAt]

@[simp] theorem byteAt_setMe (s : State) (h : Hart) (p : Nat) : (s.setMe h).byteAt p = s.byteAt p := rfl

theorem byteAt_setByte (s : State) (p x q : Nat) :
    (s.setByte p x).byteAt q = if q = p then x % 2 ^ 8 else s.byteAt q := by
  simp only [byteAt, setByte, Store.get_set]
  split <;> simp

/-! ### Registers -/

@[simp] theorem readS_zero (h : Hart) : h.readS 0 = 0 := rfl

@[simp] theorem writeS_zero (h : Hart) (x : Word) : h.writeS 0 x = h := rfl

/-- A lone word reads back the short result it wrote (R21, R29). -/
theorem readS_writeS (h : Hart) (d n : Nat) (x : Word) (hl : h.snap = none) (hd : d ≠ 0) :
    (h.writeS d x).readS n = if n = d then x else h.readS n := by
  by_cases hn : n = 0
  · subst hn; simp [Ne.symm hd]
  · simp [Hart.writeS, hd, Hart.readS, hn, hl, Store.get_set]

@[simp] theorem readM_zero (h : Hart) : h.readM 0 = BitVec.allOnes 128 := rfl

@[simp] theorem me_shortS (s : State) (d x : Nat) : (s.shortS d x).me = s.me.writeS d (BitVec.ofNat 64 x) := by
  simp [shortS]

@[simp] theorem mem_shortS (s : State) (d x : Nat) : (s.shortS d x).mem = s.mem := rfl
@[simp] theorem mem_pushLong (s : State) (r : LongRes) : (s.pushLong r).mem = s.mem := rfl
@[simp] theorem mem_long (s : State) (w : List RegWrite) (fl : Nat) : (s.long w fl).mem = s.mem := rfl
@[simp] theorem mem_deferFault (s : State) (c v : Nat) : (s.deferFault c v).mem = s.mem := rfl

/-- Outside a pair bundle a long result joins the return buffer at its end (R32). -/
theorem me_pushLong_alone (s : State) (r : LongRes) (h : s.me.snap = none) :
    (s.pushLong r).me = { s.me with
      longs := s.me.longs ++ [{ r with id := s.me.nextLong, waddr := s.wordAddr }], nextLong := s.me.nextLong + 1 } := by
  simp [pushLong, h]

end Sys2Proof.Machine.State
end

