-- ==== Sys2Proof/Laws/Control.lean ====
section
/-!
SUPPORT. What the shared operations of control can do: the outcome of a meaning from its body, the results that come back
to a hart with nothing under way, the marker, trap entry and transfers.
-/

namespace Sys2Proof.Machine

/-! ### The outcome of a meaning -/

@[simp] theorem finish_ok (s t : State) : finish s (.ok t) = .next t := rfl
@[simp] theorem finish_trap (s : State) (c v : Nat) : finish s (.error (.trap c v)) = trapOutcome s (s.takeTrap c v) := rfl
@[simp] theorem finish_trapFree (s : State) (c : Nat) :
    finish s (.error (.trapFree c)) = trapOutcome s (s.freeValue.2.takeTrap c s.freeValue.1.toNat) := rfl
@[simp] theorem finish_trapSeen (s : State) (r : Walked) (c v : Nat) :
    finish s (.error (.trapSeen r c v)) = trapOutcome s ((s.touch r).takeTrap c v) := rfl
@[simp] theorem finish_lateSeen (s : State) (r : Walked) (c v : Nat) :
    finish s (.error (.lateSeen r c v)) = .next ((s.touch r).deferFault c v) := rfl
@[simp] theorem finish_waitWalk (s : State) (d a p : Nat) :
    finish s (.error (.waitWalk d a p)) = .next (s.queueWalk d a p).hold := rfl
@[simp] theorem finish_late (s : State) (c v : Nat) : finish s (.error (.late c v)) = .next (s.deferFault c v) := rfl
@[simp] theorem finish_wait (s : State) : finish s (.error .wait) = .next s.hold := rfl
@[simp] theorem finish_waitIn (s t : State) : finish s (.error (.waitIn t)) = .next t.hold := rfl
@[simp] theorem finish_fault (s : State) (f : Fault) : finish s (.error (.fault f)) = .fault f := rfl
@[simp] theorem finish_refuse (s : State) (r : Refusal) : finish s (.error (.refuse r)) = .refused r := rfl
@[simp] theorem trapOutcome_ok (s t : State) : trapOutcome s (.ok t) = .next t := rfl
@[simp] theorem finishEvent_ok (s t : State) : finishEvent s (.ok t) = .next t := rfl
@[simp] theorem finishEvent_trap (s : State) (c v : Nat) : finishEvent s (.error (.trap c v)) = .next s := rfl
@[simp] theorem finishEvent_wait (s : State) : finishEvent s (.error .wait) = .next s := rfl
@[simp] theorem deferring_ok {α : Type} (x : α) : deferring (.ok x) = .ok x := rfl
@[simp] theorem deferring_trap {α : Type} (c v : Nat) : deferring (.error (.trap c v) : Act α) = .error (.late c v) := rfl

/-- A meaning that answers a next state either did what its body does, or took a trap, deferred a fault or waited. -/
theorem finish_next {s t : State} {r : Act State} (h : finish s r = .next t) :
    r = .ok t ∨ (∃ (u : State) (c v : Nat), (u = s ∨ ∃ w, u = s.touch w) ∧ t = u.deferFault c v) ∨
      (∃ u : State, t = u.hold) ∨
      ∃ (u : State) (c v a b p : Nat) (x : Bool), u.takeTrapAs c v a b p x = .ok t := by
  have trap : ∀ (u : State) (c v a b p : Nat) (x : Bool), trapOutcome s (u.takeTrapAs c v a b p x) = .next t →
      (∃ w : State, t = w.hold) ∨ ∃ (u : State) (c v a b p : Nat) (x : Bool), u.takeTrapAs c v a b p x = .ok t := by
    intro u c v a b p x h
    cases e : u.takeTrapAs c v a b p x with
    | ok w =>
      rw [e] at h
      injection h with h
      exact .inr ⟨u, c, v, a, b, p, x, h ▸ e⟩
    | error k =>
      rw [e] at h
      cases k <;> simp only [trapOutcome, Host.Outcome.next.injEq, reduceCtorEq] at h <;> exact .inl ⟨_, h.symm⟩
  cases r with
  | ok u => exact .inl (by injection h with h; rw [h])
  | error k =>
    cases k with
    | trap c v => exact .inr (.inr (trap s c v _ _ _ _ h))
    | trapFree c => exact .inr (.inr (trap s.freeValue.2 c _ _ _ _ _ h))
    | trapRecorded c v => exact .inr (.inr (trap s c v _ _ _ _ h))
    | trapAt c v p => exact .inr (.inr (trap s c v _ _ _ _ h))
    | trapSeen w c v => exact .inr (.inr (trap (s.touch w) c v _ _ _ _ h))
    | late c v => exact .inr (.inl ⟨s, c, v, .inl rfl, by injection h with h; exact h.symm⟩)
    | lateSeen w c v => exact .inr (.inl ⟨s.touch w, c, v, .inr ⟨w, rfl⟩, by injection h with h; exact h.symm⟩)
    | wait => exact .inr (.inr (.inl ⟨s, by injection h with h; exact h.symm⟩))
    | waitWalk d a p => exact .inr (.inr (.inl ⟨s.queueWalk d a p, by injection h with h; exact h.symm⟩))
    | waitIn u => exact .inr (.inr (.inl ⟨u, by injection h with h; exact h.symm⟩))
    | waitSlot => exact .inr (.inr (.inl ⟨s, by injection h with h; exact h.symm⟩))
    | fault f => cases h
    | refuse f => cases h

namespace State

/-! ### A hart with nothing under way -/

theorem settleAtomicList_none (mine : PendingAtomic → Bool) : ∀ (l : List PendingAtomic) (s : State),
    (∀ t ∈ l, mine t = false) → s.settleAtomicList mine l = .ok s
  | [], _, _ => rfl
  | t :: r, s, h => by
    rw [settleAtomicList, h t (List.mem_cons_self ..)]
    exact settleAtomicList_none mine r s (fun x hx => h x (List.mem_cons_of_mem _ hx))

theorem settleAtomicsWhere_none {s : State} {mine : PendingAtomic → Bool} (h : ∀ t ∈ s.atomics, mine t = false) :
    s.settleAtomicsWhere mine = .ok s := settleAtomicList_none mine _ s h

theorem settleAtomics_none {s : State} {k : Nat} (h : ∀ t ∈ s.atomics, t.hart ≠ k) : s.settleAtomics k = .ok s :=
  settleAtomicsWhere_none (fun t ht => by simpa using h t ht)

theorem settleNears_none {s : State} {k : Nat} (h : ∀ t ∈ s.nears, t.hart ≠ k) : s.settleNears k = .ok s := by
  have : s.nears.any (fun t => t.hart == k) = false := by simpa [List.any_eq_false] using h
  simp [settleNears, this]

theorem drainList_none (mine : PendingStore → Bool) : ∀ (l : List PendingStore) (s : State),
    (∀ t ∈ l, mine t = false) → s.drainList mine l = .ok s
  | [], _, _ => rfl
  | t :: r, s, h => by
    rw [drainList, h t (List.mem_cons_self ..)]
    exact drainList_none mine r s (fun x hx => h x (List.mem_cons_of_mem _ hx))

theorem drainWhere_none {s : State} {mine : PendingStore → Bool} (h : ∀ t ∈ s.stores, mine t = false) :
    s.drainWhere mine = .ok s := drainList_none mine _ s h

theorem drainStores_none {s : State} {k : Nat} (h : ∀ t ∈ s.stores, t.hart ≠ k) : s.drainStores k = .ok s :=
  drainWhere_none (fun t ht => by simpa [ofHart] using h t ht)

/-- Every access of a hart that has none under way: nothing happens. -/
theorem settleAccesses_none {s : State} (h : s.NothingUnderWay) : s.settleAccesses s.hart = .ok s := by
  obtain ⟨hs, ha, hn⟩ := h
  simp only [settleAccesses, drainStores_none hs, settleAtomics_none ha, settleNears_none hn, bind, Except.bind]

/-- The results of a hart that waits for none, on a core whose matrix unit is idle. -/
theorem settle_none {s : State} (h : s.NothingUnderWay) (hp : s.myCore.products = []) : s.settle s.hart = .ok s := by
  have hc : (s.coreAt (s.hart / 8)).products.isEmpty = true := by
    rw [show s.coreAt (s.hart / 8) = s.myCore from rfl, hp]; rfl
  simp only [settle, settleAccesses_none h, ite_self, bind, Except.bind, hc, if_true]

/-! ### The marker and trap entry -/

@[simp] theorem oldestFault_nil : oldestFault [] = none := rfl

/-- The marker with no result under way writes nothing but the mark that the hart is parked. -/
theorem writeBack_nil {s : State} (h : s.me.longs = []) :
    s.writeBack = s.setMe { s.me with longs := [], parked := false, releaseHeld := 0 } := by
  simp [writeBack, h, Hart.writeLongs]

theorem marker_nil {s : State} (next : Nat) (h : s.me.longs = []) :
    s.marker next = s.setMe { s.me with longs := [], parked := false, releaseHeld := 0 } := by
  simp [marker, h, writeBack_nil h]

/-- A trap that the strand takes at its vector, outside a launch (R382): what it saves, and where it goes. -/
theorem enterTrap_handler {s : State} (c tepc tval tresume p : Nat) (d m r : Bool) (h : s.TrapsToHandler)
    (hs : s.me.slot = none) :
    s.enterTrap c tepc tval tresume p d m r = s.setMe { s.me with
      tcause := c % 256, tepc := tepc, tval := BitVec.ofNat 64 tval, tresume := tresume,
      tstatus := trapStatus s.me.tstatus s.me.sup d m, sup := true, pc := s.me.tvec, npc := s.me.tvec, word := 0,
      resumed1 := false, flow := .trap, fetch := [], snap := none, herd := none, herdPassed := false } := by
  obtain ⟨hd, ht, hv, hb⟩ := h
  have hn : ¬(s.me.tstatus % 2 = 1 ∨ s.me.tvec = 0 ∨ 2 ^ 55 ≤ s.me.tvec) := by omega
  simp only [enterTrap, hd, if_neg hn, recordIn, hs, ite_self, Bool.false_eq_true, if_false]

/-! ### Transfers -/

theorem transferTo_ok {s : State} {t : Nat} {a : Bool} (h : s.checkTarget t a = .ok ()) :
    s.transferTo t a = .ok (s.transfer t) := by
  simp [transferTo, h, bind, Except.bind]

@[simp] theorem transfer_me (s : State) (t : Nat) : (s.transfer t).me = { s.me with npc := t, flow := .taken } := by
  simp [transfer]

/-! ### Checks of scratchpad addresses (R105, R127) -/

/-- The own core's local memory (R105). -/
theorem resolve_ownLocal (s : State) (k low : Nat) (h : low < 2 ^ 19) :
    s.resolve k (ownLocal low) = some (.scratch (placeLocal (k / 8) low) (2 ^ 19 - low)) := by
  have h1 : bits (ownLocal low) 56 8 = 0xF0 := by unfold bits ownLocal; omega
  have h2 : bits (ownLocal low) 0 56 = low := by unfold bits ownLocal; omega
  simp [resolve, h1, h2] <;> omega

/-- An access of a supervisor strand to its core's local memory passes its checks, in one piece. -/
theorem check_ownLocal (s : State) (w : Who) (f : Form) {n align low : Nat} (ha : ownLocal low % align = 0) (hn : n ≠ 0)
    (hl : low + n ≤ 2 ^ 19) (hs : w.scratch = true) (hu : w.user = false) :
    s.check w f (ownLocal low) n align = .ok (s, [⟨placeLocal (w.hart / 8) low, n, 0⟩]) := by
  have hlow : low < 2 ^ 19 := by omega
  have hn' : ¬ 2 ^ 19 - low < n := by omega
  simp only [check, ha, ne_eq, not_true_eq_false, if_false, hn, resolve_ownLocal s w.hart low hlow, hn', hs, hu, Bool.not_true,
    Bool.false_eq_true, or_self, Bool.false_and]

end State

end Sys2Proof.Machine
end

