-- ==== Sys2Proof/Laws/Memory.lean ====
section
/-!
SUPPORT. The laws of memory by place: what a write leaves at every place, and that every operation over memory keeps its
canonical form.
-/

namespace Sys2Proof.Machine

/-- Memory right after reset is canonical. -/
theorem memoryWf_reset : MemoryWf State.reset.mem := by decide

/-- A filter of the listed bytes keeps the canonical form. -/
theorem memoryWf_filter {m : List Host.Cell} (p : Host.Cell → Bool) (h : MemoryWf m) : MemoryWf (m.filter p) :=
  Store.wf_filter unlistedByte p h

namespace State

theorem memoryWf_setByte {s : State} (p x : Nat) (h : MemoryWf s.mem) : MemoryWf (s.setByte p x).mem :=
  Store.wf_set unlistedByte p _ h

theorem memoryWf_writeBytes : ∀ (l : List Nat) {s : State} (p : Nat), MemoryWf s.mem → MemoryWf (s.writeBytes p l).mem
  | [], _, _, h => h
  | x :: t, _, p, h => memoryWf_writeBytes t (p + 1) (memoryWf_setByte p x h)

theorem memoryWf_markDirtyBit {s : State} (p : Nat) (h : MemoryWf s.mem) : MemoryWf (s.markDirtyBit p).mem := by
  unfold markDirtyBit
  dsimp only
  repeat' split
  all_goals first | exact h | exact memoryWf_setByte _ _ h

theorem mem_ite (c : Prop) [Decidable c] (a b : State) : (if c then a else b).mem = if c then a.mem else b.mem :=
  apply_ite State.mem c a b

/-- What a write notes changes memory only by the checkpoint-dirty bits (R413). -/
theorem mem_noteWrite (s : State) (p n : Nat) :
    (s.noteWrite p n).mem =
      if s.hub.ckdctl = 0 then s.mem else ((s.markDirtyBit p).markDirtyBit (p + n - 1)).mem := by
  simp only [noteWrite, mem_ite, ite_self]

/-- The memory that a performed write leaves (R105, R413). -/
theorem mem_perform (s : State) (p : Nat) (l : List Nat) :
    (s.perform p l).mem =
      if isScratch p then (s.writeBytes p l).mem else ((s.writeBytes p l).noteWrite p l.length).mem := by
  simp only [perform, mem_ite, ite_self]

theorem memoryWf_noteWrite {s : State} (p n : Nat) (h : MemoryWf s.mem) : MemoryWf (s.noteWrite p n).mem := by
  rw [mem_noteWrite]
  split
  · exact h
  · exact memoryWf_markDirtyBit _ (memoryWf_markDirtyBit _ h)

theorem memoryWf_perform {s : State} (p : Nat) (l : List Nat) (h : MemoryWf s.mem) : MemoryWf (s.perform p l).mem := by
  rw [mem_perform]
  split
  · exact memoryWf_writeBytes l p h
  · exact memoryWf_noteWrite _ _ (memoryWf_writeBytes l p h)

theorem memoryWf_writeAt {s : State} (p n x : Nat) (h : MemoryWf s.mem) : MemoryWf (s.writeAt p n x).mem :=
  memoryWf_perform p _ h

/-! ### What a write leaves -/

theorem byteAt_writeBytes : ∀ (l : List Nat) (s : State) (p q : Nat),
    (s.writeBytes p l).byteAt q = if p ≤ q ∧ q < p + l.length then l.getD (q - p) 0 % 2 ^ 8 else s.byteAt q
  | [], s, p, q => by
    have : ¬ (p ≤ q ∧ q < p + ([] : List Nat).length) := by simp only [List.length_nil]; omega
    rw [if_neg this]; rfl
  | x :: t, s, p, q => by
    rw [writeBytes, byteAt_writeBytes t (s.setByte p x) (p + 1) q, byteAt_setByte]
    by_cases hq : q = p
    · subst hq
      have : ¬ (q + 1 ≤ q ∧ q < q + 1 + t.length) := by omega
      rw [if_neg this]; simp
    · by_cases hin : p + 1 ≤ q ∧ q < p + 1 + t.length
      · have : p ≤ q ∧ q < p + (x :: t).length := by simp only [List.length_cons]; omega
        have hk : q - p = (q - (p + 1)) + 1 := by omega
        rw [if_pos hin, if_pos this, hk]; simp
      · have : ¬ (p ≤ q ∧ q < p + (x :: t).length) := by simp only [List.length_cons]; omega
        rw [if_neg hin, if_neg this, if_neg hq]

@[simp] theorem writeBytes_hub (l : List Nat) : ∀ (s : State) (p : Nat), (s.writeBytes p l).hub = s.hub := by
  induction l with
  | nil => intro _ _; rfl
  | cons x t ih => intro s p; rw [writeBytes, ih]; rfl

theorem byteAt_of_mem {s t : State} (h : t.mem = s.mem) (p : Nat) : t.byteAt p = s.byteAt p := by
  simp [byteAt, h]

/-- A write to a scratchpad changes the bytes it writes and no other (R105). -/
theorem byteAt_perform_scratch (s : State) (p : Nat) (l : List Nat) (q : Nat) (hp : isScratch p = true) :
    (s.perform p l).byteAt q = if p ≤ q ∧ q < p + l.length then l.getD (q - p) 0 % 2 ^ 8 else s.byteAt q := by
  rw [← byteAt_writeBytes]
  exact byteAt_of_mem (by simp [mem_perform, hp]) q

/-- A write outside the scratchpads, while no checkpoint keeps dirty bits, changes the bytes it writes and no other. -/
theorem byteAt_perform (s : State) (p : Nat) (l : List Nat) (q : Nat) (hc : s.hub.ckdctl = 0) :
    (s.perform p l).byteAt q = if p ≤ q ∧ q < p + l.length then l.getD (q - p) 0 % 2 ^ 8 else s.byteAt q := by
  rw [← byteAt_writeBytes]
  exact byteAt_of_mem (by simp [mem_perform, mem_noteWrite, hc]) q

end State

end Sys2Proof.Machine
end

