-- ==== Sys2Proof/Laws/Engines.lean ====
section
/-!
SUPPORT. The operations that the hub and the management domain make on memory as a whole (frames copied or emptied,
scratchpads cleared) keep its canonical form too.
-/

namespace Sys2Proof.Machine.State

theorem memoryWf_setAll (f : Host.Cell → Nat) (l : List Host.Cell) : ∀ {m : List Host.Cell}, MemoryWf m →
    MemoryWf (l.foldl (fun m e => Store.set unlistedByte m (f e) e.2) m) := by
  induction l with
  | nil => exact fun h => h
  | cons e t ih => exact fun h => ih (Store.wf_set unlistedByte _ _ h)

/-- A frame copied (R246). -/
theorem memoryWf_copyFrame {s : State} (src dst : Nat) (h : MemoryWf s.mem) : MemoryWf (s.copyFrame src dst).mem :=
  memoryWf_markDirtyBit _ (memoryWf_setAll _ _ (memoryWf_filter _ h))

/-- A line copied (R246). -/
theorem memoryWf_copyLineTo {s : State} (src dst : Nat) (h : MemoryWf s.mem) : MemoryWf (s.copyLineTo src dst).mem :=
  memoryWf_markDirtyBit (s := s.writeBytes (64 * dst) (s.bytesAt (64 * src) 64)) _ (memoryWf_writeBytes _ _ h)

/-- A frame marked poisoned (R253). -/
theorem memoryWf_poisonFrame {s : State} (p : Nat) (h : MemoryWf s.mem) : MemoryWf (s.poisonFrame p).mem := h

/-- A die's scratchpads cleared (R441). -/
theorem memoryWf_zeroDie {s : State} (d : Nat) (h : MemoryWf s.mem) : MemoryWf (s.zeroDie d).mem := memoryWf_filter _ h

/-- A package in its boot state (R439). -/
theorem memoryWf_bootState {s : State} (h : MemoryWf s.mem) : MemoryWf s.bootState.mem := memoryWf_filter _ h

/-- A write in pieces at its homes, plain or to each member of a group (R270). -/
theorem memoryWf_performAll (data : List Nat) (l : List Nat) : ∀ {s : State}, MemoryWf s.mem →
    MemoryWf (l.foldl (fun s p => s.perform p data) s).mem := by
  induction l with
  | nil => exact fun h => h
  | cons p t ih => exact fun h => ih (memoryWf_perform p data h)

/-! ### The one link, and the one plane, that lead to a package (R428, R430) -/

theorem linkOf_one {s : State} {n l : Nat} (h : s.upLinks n = [l]) (pkg : Nat) : s.linkOf pkg n = some l := by
  simp [State.linkOf, h, Nat.mod_one, nth]

theorem flowPlane_one {s : State} {pkg n : Nat} (h : s.planesTo pkg = [n]) : s.flowPlane pkg = some n := by
  simp [State.flowPlane, h, Nat.mod_one, nth]

/-- Without a link a packet is lost, and needs no credit. -/
theorem linkOf_none {s : State} {n : Nat} (h : s.upLinks n = []) (pkg : Nat) : s.linkOf pkg n = none := by
  simp [State.linkOf, h]

theorem flowHeld_noPlane {s : State} {pkg : Nat} (h : s.planesTo pkg = []) (t : Traffic) : s.flowHeld t pkg = false := by
  simp [State.flowHeld, State.flowPlane, State.hasCredit, h]

/-- With one plane and one link a flow waits for that link's credits alone. -/
theorem flowHeld_one {s : State} {pkg n l : Nat} (hp : s.planesTo pkg = [n]) (hl : s.upLinks n = [l]) (t : Traffic) :
    s.flowHeld t pkg = (pkg != s.hub.pkg && !s.linkCredit l t) := by
  simp [State.flowHeld, State.hasCredit, flowPlane_one hp, linkOf_one hl]

/-- A channel with its reserve in use sends nothing on a link whose shared buffers are all retired (R428). -/
theorem linkCredit_full {s : State} {l : Nat} {t : Traffic} (h : vcReserve ≤ s.flitsOn l t) (hr : 72 ≤ (s.linkAt l).retired) :
    s.linkCredit l t = false := by
  simp only [State.linkCredit, Bool.or_eq_false_iff, decide_eq_false_iff_not, Nat.not_lt]
  exact ⟨h, by simp only [vcReserve]; omega⟩

/-! ### Homes that an access reaches (R396, R438) -/

theorem homeLost_scratch (s : State) {p : Nat} (h : isScratch p = true) : s.homeLost p = false := by
  simp [State.homeLost, h]

/-- A place of this package outside the CXL range is lost only where the package itself is fenced. -/
theorem homeLost_own (s : State) {p : Nat} (hp : pkgOfPlace p = s.hub.pkg) (ht : localTier (localOfPlace p) ≠ 4)
    (hf : s.hub.pkg ∉ s.hub.fenced) : s.homeLost p = false := by
  simp [State.homeLost, State.remote, Hub.cxlHole, hp, ht, hf]

/-- A decoder that is not committed maps nothing. -/
theorem decodes_uncommitted (u : Hub) (port n a : Nat) (h : bit (u.decoderWord port n 4) 10 = false) :
    u.decodes port n a = false := by
  simp [Hub.decodes, h]

end Sys2Proof.Machine.State
end

