-- ==== Sys2Proof/Laws/Updates.lean ====
section
/-!
SUPPORT. What the updates that stand in their own chapters change: society tallies, takes, links, power.
-/

namespace Sys2Proof.Machine.State

/-! ### Society tallies (R314) -/

@[simp] theorem tally_setTally (s : State) (c n : Nat) (t : Tally) : (s.setTally c n t).tally c n = t := by
  simp [tally, setTally]

theorem tally_setTally_slot (s : State) (c : Nat) {n m : Nat} (t : Tally) (h : m ≠ n) :
    (s.setTally c n t).tally c m = s.tally c m := by
  simp [tally, setTally, Store.get_set_other _ _ _ h]

theorem tally_setTally_core (s : State) {c d : Nat} (n m : Nat) (t : Tally) (h : d ≠ c) :
    (s.setTally c n t).tally d m = s.tally d m := by
  simp [tally, setTally, coreAt_setCore_other _ _ h]

@[simp] theorem setTally_mem (s : State) (c n : Nat) (t : Tally) : (s.setTally c n t).mem = s.mem := rfl
@[simp] theorem setTally_harts (s : State) (c n : Nat) (t : Tally) : (s.setTally c n t).harts = s.harts := rfl
@[simp] theorem setTally_hub (s : State) (c n : Nat) (t : Tally) : (s.setTally c n t).hub = s.hub := rfl

/-! ### Takes (R419) -/

@[simp] theorem forgetTake_mem (s : State) (e : Take × Nat) : (s.forgetTake e).mem = s.mem := rfl
@[simp] theorem forgetTake_hub (s : State) (e : Take × Nat) : (s.forgetTake e).hub = s.hub := rfl
@[simp] theorem forgetTake_cores (s : State) (e : Take × Nat) : (s.forgetTake e).cores = s.cores := rfl
@[simp] theorem forgetTake_taken (s : State) (e : Take × Nat) : (s.forgetTake e).me.taken = s.me.taken.erase e := by
  simp [forgetTake]

@[simp] theorem orphanTakes_mem (s : State) (k : Nat) : (s.orphanTakes k).mem = s.mem := rfl
@[simp] theorem orphanTakes_harts (s : State) (k : Nat) : (s.orphanTakes k).harts = s.harts := rfl

/-- A hart whose takes are orphaned waits for none of them. -/
theorem orphanTakes_all (s : State) (k : Nat) : (s.orphanTakes k).hub.takes.all (fun t => t.hart != k || t.orphan) = true := by
  simp only [orphanTakes, List.all_map, List.all_eq_true, Function.comp]
  intro t _
  by_cases h : t.hart = k <;> simp [h]

/-! ### Short results (R29, R75) -/

@[simp] theorem noteShort_mem (s : State) (i : Instr) (n : Nat) : (s.noteShort i n).mem = s.mem := by
  unfold noteShort; split <;> (try split) <;> rfl

@[simp] theorem noteShort_hub (s : State) (i : Instr) (n : Nat) : (s.noteShort i n).hub = s.hub := by
  unfold noteShort; split <;> (try split) <;> rfl

/-- A hart no short result of which is late waits for none. -/
theorem interlocked_none (s : State) (k : Nat) (h : (s.hartAt k).late = []) : s.interlocked k = false := by
  simp [interlocked, h]

/-! ### Links and power (R429, R442) -/

@[simp] theorem linkAt_setLink (s : State) (n : Nat) (l : Link) : (s.setLink n l).linkAt n = l := by
  simp [linkAt, setLink]

@[simp] theorem setLink_mem (s : State) (n : Nat) (l : Link) : (s.setLink n l).mem = s.mem := rfl
@[simp] theorem setLink_harts (s : State) (n : Nat) (l : Link) : (s.setLink n l).harts = s.harts := rfl
@[simp] theorem measure_mem (s : State) : s.measure.mem = s.mem := rfl
@[simp] theorem measure_harts (s : State) : s.measure.harts = s.harts := rfl
@[simp] theorem setClock_mem (s : State) (n : Nat) (g : Bool) : (s.setClock n g).mem = s.mem := rfl
@[simp] theorem setClock_harts (s : State) (n : Nat) (g : Bool) : (s.setClock n g).harts = s.harts := rfl

end Sys2Proof.Machine.State
end

