-- ==== Sys2Proof/Tests/Slice0.lean ====
section
/-!
SUPPORT. Tests: words of the specification's encodings and what the decoder reads from them, ill-formed terms, reset, single
steps with results worked out by hand from the rules, and, for each statement with hypotheses, a state and operands that
meet them.
-/

namespace Sys2Proof.Tests

set_option Elab.async false

open Machine

/-! ### States for the tests -/

/-- The state after reset with a record in place of hart 0's. -/
def withMe (h : Hart) : State := State.reset.setHart 0 h

/-- A supervisor strand with a trap vector, and with two scalar registers. -/
def sup (x1 x2 : Nat) : State :=
  withMe { occ := true, sup := true, pc := 0x1000, tvec := 0x2000, s := [(1, BitVec.ofNat 64 x1), (2, BitVec.ofNat 64 x2)] }

/-- The same strand in user mode. -/
def user (x1 x2 : Nat) : State := (sup x1 x2).setHart 0 { (sup x1 x2).me with sup := false }

/-- The hart's register after an outcome. -/
def sAfter (o : Host.Outcome State Fault Refusal) (d : Nat) : Option Word :=
  match o with
  | .next t => some (t.me.readS d)
  | _ => none

/-- The value that the newest long result of an outcome gives an s register. -/
def longAfter (o : Host.Outcome State Fault Refusal) : Option (List RegWrite × Nat) :=
  match o with
  | .next t => t.me.longs.getLast?.map (fun r => (r.writes, r.flags))
  | _ => none

theorem calm_sup (x1 x2 : Nat) : (sup x1 x2).Calm := by
  refine ⟨rfl, rfl, rfl, rfl, ?_, ?_, ?_⟩ <;> intro t h <;> cases h

theorem nothing_sup (x1 x2 : Nat) : (sup x1 x2).NothingUnderWay := (calm_sup x1 x2).2.2.2.2

theorem traps_sup (x1 x2 : Nat) : (sup x1 x2).TrapsToHandler := by
  refine ⟨rfl, rfl, ?_, ?_⟩
  · show (0x2000 : Nat) ≠ 0; decide
  · show (0x2000 : Nat) < 2 ^ 55; decide

/-! ### Decoding: words written out from the encodings of R52 to R57 -/

theorem test_decode_sys : decodeTableWord 32 0x00802000 = some (.herd 4) ∧ decodeTableWord 32 0x00010081 = some (.srd 2 1) ∧
    decodeTableWord 32 0x00072002 = some (.swr 4 7) := by decide
theorem test_decode_transfer : decodeTableWord 32 0x3FFFFF83 = some (.br (-2)) ∧ decodeTableWord 32 0x1904 = some (.call 100) ∧
    decodeTableWord 32 0xF005 = some (.jr 30) ∧ decodeTableWord 32 0x203F85 = some (.jrl 30 7) := by decide
theorem test_decode_branch : decodeTableWord 32 0x41046 = some (.beq 1 2 4) ∧
    decodeTableWord 32 0x3FFF0147 = some (.bne 5 0 (-1)) ∧ decodeTableWord 32 0x3FFC2548 = some (.blt 21 4 (-4)) ∧
    decodeTableWord 32 0x3FE30C49 = some (.bge 17 1 (-29)) ∧ decodeTableWord 32 0x3018C = some (.loop 6 3) := by decide
theorem test_decode_memory : decodeTableWord 32 0x1EEA0D = some (.ldSigned 8 29 2 3) ∧
    decodeTableWord 32 0x3FFA298E = some (.st 6 5 2 (-1)) ∧ decodeTableWord 32 0x13E88F = some (.fld 2 29 1 2) ∧
    decodeTableWord 32 0x12010 = some (.vst 0 4 0) ∧ decodeTableWord 32 0x6062891 = some (.vlds 2 5 6 3) ∧
    decodeTableWord 32 0xE62912 = some (.vgatherW 4 5 6 7 0) := by decide
theorem test_decode_atomic : decodeTableWord 32 0xA062913 = some (.amo 4 5 6 0 1 2 0) ∧
    decodeTableWord 32 0x4E62914 = some (.casD 4 5 6 7) ∧ decodeTableWord 32 0x1A002915 = some (.ldaq 4 5 2 3) ∧
    decodeTableWord 32 0x12062816 = some (.red 5 6 0 1 4 0) ∧ decodeTableWord 32 0x62917 = some (.nmcas4 4 5 6) := by decide
theorem test_decode_drover : decodeTableWord 32 0x898 = some (.tmov 2 1) ∧ decodeTableWord 32 0x2059 = some (.qbind 1 4) := by
  decide
theorem test_decode_task : decodeTableWord 32 0x13E429A = some (.send 10 8 30 9) ∧ decodeTableWord 32 0x281B = some (.tagen 5) ∧
    decodeTableWord 32 0x60001C = some .endTask ∧ decodeTableWord 32 0x28DD = some (.callc 3 5) ∧
    decodeTableWord 32 0x1F81F = some (.evbegin 31 1 0) := by decide
theorem test_decode_scalar : decodeTableWord 32 0x2520E0 = some (.sub 3 4 5) ∧ decodeTableWord 32 0x22961 = some (.addi 5 5 2) ∧
    decodeTableWord 32 0x162 = some (.li 5 0) ∧ decodeTableWord 32 0x1E3 = some (.lis 7 0) ∧
    decodeTableWord 32 0x9FC0064 = some (.movk 1 252) ∧ decodeTableWord 32 0xB0865 = some (.shli 1 1 11) ∧
    decodeTableWord 32 0xC818A6 = some (.extr 2 3 8 3) := by decide
theorem test_decode_fp : decodeTableWord 32 0x31067 = some (.fadd 1 2 3 0) ∧ decodeTableWord 32 0x831068 = some (.ffma 1 2 3 4 0) := by
  decide
theorem test_decode_vector : decodeTableWord 32 0x431069 = some (.vadd 1 2 3 2) ∧ decodeTableWord 32 0x23106A = some (.vfadd 1 2 3 1) ∧
    decodeTableWord 32 0x303C002B = some (.vsel 0 0 28 1 0) ∧ decodeTableWord 32 0x18AC = some (.vexp2 2 3 0) ∧
    decodeTableWord 32 0x483106D = some (.vshuf 1 2 3 1) ∧ decodeTableWord 32 0x44520AE = some (.vcmp 2 4 5 2 2 0) ∧
    decodeTableWord 32 0x10A786F = some (.vrange 1 15 10) ∧ decodeTableWord 32 0x4130 = some (.sminit 4 8) := by decide
theorem test_decode_matrix : decodeTableWord 32 0x2C452031 = some (.mma 0 4 5 2 3 2) ∧ decodeTableWord 32 0x6032 = some (.mzero 12 0) ∧
    decodeTableWord 32 0x2933 = some (.rngb 4 5) := by decide
/-- R56: major 0x34 is not defined; R54: the d field of a sys word is zero. -/
theorem test_decode_reserved : decodeTableWord 32 0x34 = none ∧ decodeTableWord 32 0x40 = none ∧ decodeTableWord 32 0x3F = none := by
  decide

/-! ### Ill-formed terms -/

theorem test_wf_fields : ¬(Instr.sleep 1024).WellFormed ∧ ¬(Instr.trap 1024).WellFormed ∧ ¬(Instr.herd 1024).WellFormed ∧
    ¬(Instr.srd 32 1).WellFormed ∧ ¬(Instr.swr 1 16384).WellFormed ∧ ¬(Instr.br (2 ^ 23)).WellFormed ∧
    ¬(Instr.call (-(2 ^ 23) - 1)).WellFormed ∧ ¬(Instr.jr 32).WellFormed ∧ ¬(Instr.beq 1 32 0).WellFormed ∧
    ¬(Instr.bne 1 2 (2 ^ 13)).WellFormed ∧ ¬(Instr.loop 1 0).WellFormed ∧ ¬(Instr.ld 1 2 4 0).WellFormed ∧
    ¬(Instr.ld 1 2 3 1024).WellFormed ∧ ¬(Instr.callc 1 (2 ^ 18)).WellFormed ∧ ¬(Instr.addi 1 2 (2 ^ 13)).WellFormed ∧
    ¬(Instr.li 1 (-(2 ^ 18) - 1)).WellFormed ∧ ¬(Instr.lis 1 (2 ^ 19)).WellFormed ∧ ¬(Instr.addk 1 2 256).WellFormed ∧
    ¬(Instr.shli 1 2 64).WellFormed ∧ ¬(Instr.fenceAcq 8).WellFormed ∧ ¬(Instr.fadd 1 2 3 2).WellFormed ∧
    ¬(Instr.vadd 1 2 3 4).WellFormed ∧ ¬(Instr.mma 2 1 2 3 0 0).WellFormed ∧ ¬(Instr.mget 1 2 2).WellFormed := by decide
theorem test_wf_subfields : ¬(Instr.ldSigned 1 2 3 0).WellFormed ∧ ¬(Instr.tldx 1 2 3 0).WellFormed ∧
    ¬(Instr.amo 1 2 3 10 0 0 0).WellFormed ∧ ¬(Instr.amo 1 2 3 9 1 0 0).WellFormed ∧ ¬(Instr.red 1 2 8 0 0 0).WellFormed ∧
    ¬(Instr.cas2D 1 2 4 0).WellFormed ∧ ¬(Instr.join 5).WellFormed ∧ ¬(Instr.qbind 8 1).WellFormed ∧
    ¬(Instr.vpop 1 8).WellFormed ∧ ¬(Instr.efilt 1 2 31).WellFormed ∧ ¬(Instr.elen 1 2 0).WellFormed ∧
    ¬(Instr.eapply 1 2 2 0).WellFormed ∧ ¬(Instr.extr 1 2 60 4).WellFormed ∧ ¬(Instr.vfadd 1 2 3 3).WellFormed ∧
    ¬(Instr.vsel 1 2 3 8 0).WellFormed ∧ ¬(Instr.vcvt 1 2 1 1).WellFormed ∧ ¬(Instr.vqblk 1 2 0).WellFormed ∧
    ¬(Instr.vdqblk 1 2 1).WellFormed ∧ ¬(Instr.vtrip 1 3).WellFormed ∧ ¬(Instr.vtriu 1 3).WellFormed ∧
    ¬(Instr.vredsum 1 2 3 1).WellFormed ∧ ¬(Instr.vcmp 8 1 2 0 0 0).WellFormed ∧ ¬(Instr.mand 1 8 2).WellFormed ∧
    ¬(Instr.vrange 1 2 31).WellFormed ∧ ¬(Instr.smupd 3 2).WellFormed ∧ ¬(Instr.mrd 1 2 0 0).WellFormed ∧
    ¬(Instr.mrdq 1 2 0 0).WellFormed ∧ ¬(Instr.mdraw 1 3 2).WellFormed ∧ ¬(Instr.rngm 8 1 2).WellFormed := by decide

/-! ### Reset -/

theorem test_reset_strand : (State.reset.hartAt 7).occ = false ∧ (State.reset.hartAt 7).vt = BitVec.allOnes 64 ∧
    (State.reset.hartAt 7).ecapdef = 64 := by decide
theorem test_reset_hub : State.reset.readReg 0x8000030010 = some 0x200 ∧ State.reset.readReg (0x8000050000 + 8 * 31) = some 0x3B ∧
    State.reset.readReg 0x8000010000 = some 0 := by decide

/-! ### Hypotheses that are met: encodings and the step -/

theorem witness_DecodeOfEncodeIsIdentity : (Instr.br (-(2 ^ 23))).isInstruction = true ∧ (Instr.br (-(2 ^ 23))).WellFormed := by
  decide
theorem witness_PayloadsHaveOneMeaning : (∃ (w : Nat) (i : Instr), w < 2 ^ 30 ∧ decode w = .ok i) ∧ 0x34 ≤ 63 % 64 ∧
    (64 % 64 = 0 ∧ 64 / 64 % 32 ≠ 0) := ⟨⟨0x2520E0, .sub 3 4 5, by decide, rfl⟩, by decide, by decide⟩

/-- A strand at a lone bundle that holds `sub s3, s4, s5`. -/
def placed : State := State.reset.withFetchWord 32 0x2520E0

/-- Its bundle. -/
def placedBundle : Fetched := { addr := 0, w0 := 0x802520E0, w1 := 0 }
theorem witness_StepRunsTheDecodedWord_word0 : let e := placedBundle
    let u := placed.atIssue.latchBundle e
    placed.agenda = [] ∧ placed.issuing = true ∧ placed.tick.gated = false ∧ placed.atIssue.bundleNow = some e ∧ e.fault = none ∧
      placed.atIssue.me.word = 0 ∧ decode (payload e.w0) = .ok (.sub 3 4 5) ∧ decode (payload e.w1) = .ok .nop ∧
      bundleFault u.me u.isDrover e.w0 e.w1 u.mySociety.isSome = none ∧
      ((isHerd (.sub 3 4 5) || isHerd .nop) = false ∨ u.me.herdPassed = true) ∧
      u.me.entries + wordEntries e.w0 + wordEntries e.w1 ≤ 16 :=
  ⟨by decide, by decide, by decide, by decide, rfl, by decide, rfl, rfl, by decide, Or.inl (by decide), by decide⟩
/-- At word 1, in order (false) or entered by `eret` (true). -/
theorem witness_StepRunsTheDecodedWord_word1 : ∀ r : Bool, let s := placed.setMe { placed.me with word := 1, resumed1 := r }
    let e := placedBundle
    let u := s.atIssue.latchBundle e
    s.agenda = [] ∧ s.issuing = true ∧ s.tick.gated = false ∧ s.atIssue.bundleNow = some e ∧ e.fault = none ∧
      s.atIssue.me.word = 1 ∧ decode (payload e.w1) = .ok .nop ∧ u.me.resumed1 = r ∧ bit e.w0 31 = true ∧
      word1Fault u.me u.isDrover e.w1 u.mySociety.isSome = none ∧ (isHerd .nop = false ∨ u.me.herdPassed = true) ∧
      u.me.entries + wordEntries e.w1 ≤ 16 := by
  rintro (_ | _) <;> exact ⟨by decide, by decide, by decide, by decide, rfl, by decide, rfl, by decide, by decide, by decide,
    Or.inl (by decide), by decide⟩
/-- Issue is gated in the cycle of this step, which is odd. -/
theorem witness_StepRunsTheDecodedWord_gated : let s : State := { placed with hub := { placed.hub with gating := true } }
    s.agenda = [] ∧ s.issuing = true ∧ s.tick.gated = true := by decide
theorem witness_StepRunsTheDecodedWord_pair : let s := placed
    let p := s.setMe { s.me with snap := some { s := s.me.s, mstatus := s.me.mstatus, longs := s.me.longs.length }, flow := .seq }
    exec .nop p = .next p ∧ p.me.flow = .seq := ⟨rfl, by decide⟩
theorem witness_StepRunsTheAgendasEvent : ∃ (s : State) (i : Instr) (a : EvArgs) (t : List (Instr × EvArgs)),
    s.agenda = (i, a) :: t ∧ i.isInstruction = false :=
  ⟨{ State.reset with agenda := [(.powerRecover, {})] }, .powerRecover, {}, [], rfl, rfl⟩
theorem witness_PlacedWordIsRun : (0x2520E0 : Nat) < 2 ^ 30 ∧ decode 0x2520E0 = .ok (.sub 3 4 5) ∧ isHerd (.sub 3 4 5) = false ∧
    instrFault (State.reset.hartAt 0) false (.sub 3 4 5) (State.reset.societyOf (State.reset.hartAt 0).slot).isSome = none ∧ (State.reset.hartAt 0).longs = [] :=
  ⟨by decide, rfl, by decide, by decide, by decide⟩
theorem witness_NextBundle_taken : (withMe { flow := .taken }).me.flow = .taken := by decide
theorem witness_NextBundle_back : let s := withMe { pc := 64, lend := 64, lstart := 8, lc := 2 }
    s.me.flow ≠ .taken ∧ s.me.pc = s.me.lend ∧ s.me.loopWord = false ∧ 1 < s.me.lc.toNat := by decide
theorem witness_NextBundle_last : let s := withMe { pc := 64, lend := 64, lstart := 8, lc := 1 }
    s.me.flow ≠ .taken ∧ s.me.pc = s.me.lend ∧ s.me.loopWord = false ∧ s.me.lc = 1 := by decide
theorem witness_NextBundle_on : let s := withMe { pc := 72, lend := 64, lc := 1 }
    s.me.flow ≠ .taken ∧ (s.me.pc ≠ s.me.lend ∨ s.me.lc = 0 ∨ s.me.loopWord = true) ∧ (1 : Nat) ≠ s.hart := by decide

/-! ### Scalars, long results and the marker -/

theorem witness_ImmediateResults : (2 ^ 19 - 1 : Nat) < 2 ^ 19 ∧ (63 : Nat) < 64 ∧ (0 + (63 + 1) : Nat) ≤ 64 ∧ (63 + (0 + 1) : Nat) ≤ 64 := by
  decide
theorem witness_HardWired : ({} : Hart).snap = none ∧ (31 : Nat) ≠ 0 ∧ (30 : Nat) ≠ 31 ∧ (1 : Nat) ≠ State.reset.hart := by decide
/-- R74: −7 / 0 is the least number, 7 rem −2 is 1, and the least number divided by −1 is the largest. -/
theorem test_division : sAfter (exec (.div 3 1 2) (sup (2 ^ 64 - 7) 0)) 3 = some (BitVec.intMin 64) ∧
    sAfter (exec (.rem 3 1 2) (sup 7 (2 ^ 64 - 2))) 3 = some 1 ∧
    sAfter (exec (.div 3 1 2) (sup (2 ^ 63) (2 ^ 64 - 1))) 3 = some (BitVec.intMax 64) := by decide
theorem test_mulh : sAfter (exec (.mulh 3 1 2) (sup (2 ^ 64 - 1) (2 ^ 64 - 1))) 3 = some 0 ∧
    sAfter (exec (.mulhn 3 1 2) (sup (2 ^ 64 - 1) (2 ^ 64 - 1))) 3 = some 0xFFFFFFFFFFFFFFFE := by decide
theorem test_add_wraps : sAfter (exec (.add 1 1 2) (sup (2 ^ 64 - 1) 2)) 1 = some 1 := by decide
theorem test_zero_register : sAfter (exec (.addi 0 1 5) (sup 1 0)) 0 = some 0 := by decide

/-- A result and a fault of a window. -/
def late (c v : Nat) : LongRes := { id := 0, waddr := 0x1004, fault := some (c, v) }

theorem witness_LongResults : (sup 0 0).me.snap = none ∧ (1 : Nat) ≠ (sup 0 0).hart := by decide
theorem witness_MarkerWrites : oldestFault (withMe { longs := [{ id := 0, waddr := 0, writes := [.s 1 5] }] }).me.longs = none ∧
    (31 : Nat) ≠ 0 := by decide
theorem witness_MarkerDelivers : ∃ s : State, oldestFault s.me.longs = some (0x1004, 0x05, 64, false) ∧ 0x05 < 256 ∧
    s.TrapsToHandler ∧ s.me.slot = none :=
  ⟨withMe { tvec := 0x2000, longs := [late 5 64] }, by decide, by decide,
    ⟨rfl, rfl, by show (0x2000 : Nat) ≠ 0; decide, by show (0x2000 : Nat) < 2 ^ 55; decide⟩, rfl⟩
theorem witness_OldestFault : (∀ r ∈ [{ id := 0, waddr := 0 : LongRes }], r.fault = none) ∧ (late 5 64).fault = some (5, 64) := by
  decide

/-! ### Floating point, vectors and the matrix unit -/

theorem witness_Fclass : (0 : Nat) ≤ 1 ∧ (1 : Nat) ≤ 1 := by decide
/-- The fields of FP32: 0x7FC00000 is a quiet NaN, 0x7F800001 a signalling one. -/
theorem witness_FpNaN : let nan := fun z => z / 2 ^ Fmt.f32.fb % 2 ^ Fmt.f32.eb = 2 ^ Fmt.f32.eb - 1 ∧ z % 2 ^ Fmt.f32.fb ≠ 0
    nan 0x7FC00000 ∧ nan 0x7F800001 ∧ ¬nan 0x7F800000 ∧ (0 : Nat) ≤ 1 := by decide
/-- R87: the codes of −0, of a positive subnormal and of a signalling NaN with its sign bit set. -/
theorem test_fclass : let c := fun (x : Nat) => longAfter (exec (.fclass 5 6 0) (withMe { f := [(6, BitVec.ofNat 64 x)] }))
    c 0x80000000 = some ([.s 5 8], 0) ∧ c 1 = some ([.s 5 1], 0) ∧ c 0xFF800001 = some ([.s 5 0xD], 0) := by decide
/-- 1.5 + 0.25 is 1.75 and exact. -/
theorem test_fadd : longAfter (exec (.fadd 5 6 7 0) (withMe { f := [(6, 0x3FC00000), (7, 0x3E800000)] })) =
    some ([.f 5 0x3FE00000], 0) := by decide
theorem witness_VectorLanes : (3 : Nat) ≤ 3 ∧ (127 : Nat) < 1024 / (8 * 2 ^ 0) ∧ (2 : Nat) ≤ 2 := by decide
theorem test_vadd_wraps : longAfter (exec (.vadd 1 2 3 0) (withMe { v := [(2, 0x01FF), (3, 0x0101)] })) = some ([.v 1 0x0200], 0) := by
  decide +kernel
/-- R161 to R164: a VB3 container of 64 zeros holds its tag 0xB3 at byte 32 and the parity of the bytes before at byte 33; a
register of zeros has no tag. -/
theorem witness_VectorFormats : (1 : Nat) ≤ 3 ∧ (2 : Nat) ≠ 1 ∧
    containerFault 1 (lanes 8 (BitVec.ofNat 1024 (0xB3 * 2 ^ 256 + 0xB3 * 2 ^ 264))) = none ∧
    containerFault 1 (lanes 8 (0 : VReg)) = some 0x0B ∧
    containerFault 0 (lanes 8 (BitVec.ofNat 1024 (0x3E * 2 ^ 104 + 0x3E * 2 ^ 112))) = none ∧
    containerFault 0 (lanes 8 (0 : VReg)) = some 0x0B := by decide +kernel
/-- A parity that fails twice, whatever the tag; and the outcomes of a re-read. -/
theorem witness_VectorFormats_reread : ∀ r, r ≤ 2 → let s := withMe { reread := r }
    s.me.reread = r ∧ containerFault 1 (lanes 8 (s.rv 1)) = some 0x0B ∧ (0x0B : Nat) ≠ 0x0C ∧
      containerFault 1 (lanes 8 (BitVec.ofNat 1024 (0xB3 * 2 ^ 256))) = some 0x0C ∧
      containerFault 0 (lanes 8 (BitVec.ofNat 1024 (0x3E * 2 ^ 104))) = some 0x0C := by
  intro r h
  have : r = 0 ∨ r = 1 ∨ r = 2 := by omega
  rcases this with rfl | rfl | rfl <;> decide +kernel
theorem witness_VectorReduce : (3 : Nat) ≤ 3 ∧ (1 : Nat) ≤ 1 ∧ (0 : Nat) ≤ 1 := by decide
theorem witness_Masks : (1 : Nat) ≤ 1 ∧ (5 : Nat) ≤ 5 ∧ (3 : Nat) ≤ 3 ∧ (127 : Nat) < 128 := by decide

/-- A strand whose s1 is the address of a tile of 64 VB3 segments at local 0xA000, with both scales 1. -/
def tileState (products : List Product) : State :=
  let h : Hart := { occ := true, sup := true, s := [(1, 0xF00000000000A000)], f := [(1, 0x3F8000003F800000)] }
  let t : State := { withMe h with mem := (upFrom 0 64).map (fun i => (placeLocal 0 (0xA004 + 40 * i), 0xB3#8)) }
  t.setCore 0 { products := products }

/-- A product of that tile by itself. -/
def squared (a : Nat) : Product := { hart := 0, long := 0, fa := 1, fb := 1, a := a, b := a, k := 0, tile := 0, dual := false }
theorem witness_Products : let s := tileState []
    s.me.snap = none ∧ (∀ u ∈ s.stores, u.hart ≠ s.hart) ∧
      s.checkProduct (s.rf 1) (s.rs 1) (s.rs 1) (State.productTiles (squared (s.rs 1))) = .ok () ∧
      s.myCore.products.length < 4 := ⟨rfl, (by intro u h; cases h), rfl, by decide⟩
theorem witness_Products_full : let s := tileState [squared 0, squared 0, squared 0, squared 0]
    s.me.snap = none ∧ (∀ u ∈ s.stores, u.hart ≠ s.hart) ∧
      s.checkProduct (s.rf 1) (s.rs 1) (s.rs 1) (State.productTiles (squared (s.rs 1))) = .ok () ∧
      4 ≤ s.myCore.products.length := ⟨rfl, (by intro u h; cases h), rfl, by decide⟩
theorem witness_Accumulators : let f := fun x => ((sup x 255).me.readS 1).toInt
    (-2048 ≤ f (2 ^ 64 - 2048) ∧ f 2047 = 2047) ∧ (f (2 ^ 64 - 2049) < -2048 ∧ 2047 < f 2048) ∧
      (sup 0 255).rs 2 < 256 ∧ 256 ≤ (sup 0 256).rs 2 ∧ (sup 0 63).rs 2 < 64 ∧ 64 ≤ (sup 0 64).rs 2 := by decide
/-- A window without a fault that holds an `mzero`; sixteen lanes; the rows and columns of a product; and both signs of a shift. -/
theorem witness_Tiles : oldestFault (withMe { longs := [{ id := 0, waddr := 0, tiles := [.zero 1 (-5)] }] }).me.longs = none ∧
    (List.replicate 16 (2 ^ 57)).length = 16 ∧ (63 : Nat) < 64 ∧ (15 : Nat) < 16 ∧ (0 : Int) ≤ 0 ∧ (-1 : Int) < 0 := by decide

/-- The launch of a record of zeros, in slot 0. -/
def lnch : Launch := launchOfRecord [] [] [] [] 0 0 0

/-! ### Memory -/

theorem witness_ApertureMap : (0x5FFFFFF : Nat) < 0x6000000 ∧ (2 ^ 56 - 1 : Nat) < 2 ^ 56 ∧ State.reset.stackBytes 0 = 0 ∧
    (∃ s : State, (4095 : Nat) < s.stackBytes 0 ∧ (4095 : Nat) < 2 ^ 56) := by
  refine ⟨by decide, by decide, by decide, ?_⟩
  exact ⟨(withMe { slot := some 0 }).setLaunch 0 (some { lnch with stackBytes := 4096 }), by decide, by decide⟩
/-- The result is an answer with a property. -/
def meets {α : Type} (r : Act α) (p : α → Bool) : Bool :=
  match r with
  | .ok x => p x
  | .error _ => false

theorem meets_ok {α : Type} {r : Act α} {p : α → Bool} (h : meets r p = true) : ∃ x, r = .ok x ∧ p x = true := by
  cases r with
  | ok x => exact ⟨x, rfl, h⟩
  | error e => cases h

/-- The result is a precise trap with a cause and a value. -/
def trapsWith {α : Type} (r : Act α) (c v : Nat) : Bool :=
  match r with
  | .error (.trap c' v') => c' == c && v' == v
  | _ => false

/-- Who accesses: hart 0 in supervisor or user mode, with leases. -/
def whoTest (user : Bool) (l : Option (List Lease)) : Who :=
  { hart := 0, asid := 0, user := user, slot := none, flock := 0, leases := l }

/-- A range of one page at 0x10000 that grants reads. -/
def readRange : Lease := { base := 0x10000, size := 0x10000, maxTier := 3, r := true, w := false, x := false }

theorem witness_AccessChecks_alignment : (0 : Nat) < 8 ∧ 4 % 8 ≠ 0 ∧ (8 % 8 = 0 ∧ State.reset.resolve 0 (2 ^ 63) = none) := by decide
theorem witness_AccessChecks_scratch : let a := 0xF000000000000000 + 2 ^ 19 - 8
    a % 8 = 0 ∧ State.reset.resolve (whoTest false none).hart a = some (.scratch (placeLocal 0 (2 ^ 19 - 8)) 8) ∧
      (whoTest false none).scratch = true ∧ (8 : Nat) < 16 ∧ (8 : Nat) ≤ 8 ∧
      State.reset.rangeRight (whoTest true none) false (placeLocal 0 (2 ^ 19 - 8)) 8 = false := by decide
theorem witness_AccessChecks_user : ∃ (s : State) (w : Who), w.user = true ∧ w.scratch = true ∧
    s.resolve w.hart 0xF000000000000000 = some (.scratch (placeLocal 0 0) (2 ^ 19)) ∧ s.rangeRight w false (placeLocal 0 0) 8 = true := by
  let l : Launch := { lnch with flocks := [{ num := 0, strands := [0] }] }
  exact ⟨State.reset.setLaunch 0 (some l), { whoTest true none with slot := some 0 }, rfl, rfl, by decide, by decide⟩
theorem witness_AccessChecks_virtual : State.reset.resolve 0 (2 ^ 55 - 8) = some (.virtual_ (2 ^ 55 - 8)) ∧
    2 ^ 55 < (2 ^ 55 - 8) + 16 ∧ (2 ^ 55 - 8) + 8 ≤ 2 ^ 55 ∧ leaseCovers [readRange] true false false 0x1FFF8 8 = true ∧
    leaseCovers [readRange] true false false 0x1FFF8 16 = false ∧ (whoTest true (some [readRange])).leases = some [readRange] := by decide

/-- A translation held by the micro-TLB of core 0 for page 1 of address space 0: a frame of HBM, with the rights given. -/
def held (rights : Nat) : State :=
  { State.reset with tlbs := [{ kind := 0, unit := 0, asid := 0, page := 1, large := false, entry := 0x100071 + rights }] }

theorem witness_PageEntryChecks : meets (State.reset.translate 0 0 0x10000 false) (fun r => r.2 == none) = true ∧
    meets ((held 2).translate 0 0 0x10000 false) (fun r => r == (held 2, some (0x100073, false))) = true ∧
    ((Form.store).writes = true ∧ bit 0x100073 2 = false) ∧
    (((Form.load 8).reads = true → bit 0x100073 1 = true) ∧ ((Form.load 8).writes = true → bit 0x100073 2 = true) ∧
      ((Form.load 8) = .fetch → bit 0x100073 3 = true) ∧ bits 0x100073 9 2 = 0 ∧ ((Form.load 8).atomic = true → bits 0x100073 6 3 < 4) ∧
      (held 2).pageWaits (leafPlace 0x100073 0x10000 false) = false) := by
  refine ⟨?_, ?_, ?_, ?_⟩ <;> decide +kernel

theorem witness_PageEntryChecks_second : meets ((held 2).translate 0 0 0x10000 false) (fun r => r == (held 2, some (0x100073, false)) &&
    meets (r.1.translate 0 0 0x20000 false) (fun q => q.2 == none)) = true := by decide +kernel

theorem witness_LocalAccess_scalar : OwnLocal (baseOffset ((sup 0xF000000000080000 0).rs 1) (-1) (2 ^ 3)) (2 ^ 3) (2 ^ 3) (2 ^ 19 - 8) ∧
    OwnLocal (baseOffset ((sup 0xF000000000080000 0).rs 1) (-1) 128) 128 8 (2 ^ 19 - 128) ∧
    OwnLocal (baseOffset ((sup 0xF000000000000000 0).rs 1) 0 4) 4 4 0 := by
  refine ⟨⟨?_, ?_, ?_⟩, ⟨?_, ?_, ?_⟩, ⟨?_, ?_, ?_⟩⟩ <;> decide
theorem witness_LocalAccess_strided : let s := sup 0xF00000000000A000 (2 ^ 64 - 4)
    (∀ i, i < 32 → (s.me.readM 0).getLsbD i = true →
      OwnLocal (s.me.readS 1 + BitVec.ofNat 64 i * s.me.readS 2).toNat 4 4 (0xA000 - 4 * i)) := by
  have h : ∀ i, i < 32 → ((sup 0xF00000000000A000 (2 ^ 64 - 4)).me.readS 1 +
      BitVec.ofNat 64 i * (sup 0xF00000000000A000 (2 ^ 64 - 4)).me.readS 2).toNat = ownLocal (0xA000 - 4 * i) ∧
      (0xA000 - 4 * i) % 4 = 0 ∧ (0xA000 - 4 * i) + 4 ≤ 2 ^ 19 := by decide
  exact fun i hi _ => h i hi
theorem witness_LocalAccess_tile : let s := sup 0xF00000000000A000 62
    OwnLocal (s.rs 1) 8192 128 0xA000 ∧ s.rs 2 ≤ 62 ∧ s.rs 2 % 2 = 0 := by
  refine ⟨⟨?_, ?_, ?_⟩, ?_, ?_⟩ <;> decide
/-- 32 indices of which one is in bounds; with a bound of 0 none is. -/
theorem witness_LocalAccess_gather : let s := sup 0xF00000000007FFFC 1
    (∀ i, i < 1024 / 32 → (lane 32 (s.rv 3) i).toNat < s.rs 2 →
      OwnLocal ((s.rs 1 + 4 * (lane 32 (s.rv 3) i).toNat) % 2 ^ 64) 4 4 0x7FFFC) ∧
    (∀ i, i < 1024 / 32 → (lane 32 (s.rv 3) i).toNat < s.rs 2) := by
  have h : ∀ i, i < 32 → lane 32 ((sup 0xF00000000007FFFC 1).rv 3) i = 0 := by decide +kernel
  refine ⟨fun i hi _ => ?_, fun i hi => ?_⟩
  · show OwnLocal (((sup 0xF00000000007FFFC 1).rs 1 + 4 * (lane 32 ((sup 0xF00000000007FFFC 1).rv 3) i).toNat) % 2 ^ 64) 4 4 0x7FFFC
    rw [h i hi]; exact ⟨by decide, by decide, by decide⟩
  · show (lane 32 ((sup 0xF00000000007FFFC 1).rv 3) i).toNat < _
    rw [h i hi]; decide
theorem witness_LoadFaults : let s := sup 0xF000000000000001 63
    baseOffset (s.rs 1) 0 (2 ^ 1) % 2 ^ 1 ≠ 0 ∧ baseOffset (s.rs 1) 0 128 % 8 ≠ 0 ∧ s.rs 1 % 128 ≠ 0 ∧
      ((sup 0xF000000000000000 63).rs 1 % 128 = 0 ∧ (62 < s.rs 2 ∨ s.rs 2 % 2 = 1)) ∧
      ((0 : Nat) < 32 ∧ (sup 0 0).rs 2 ≤ (lane 32 ((sup 0 0).rv 3) 0).toNat) := by decide +kernel

/-- A store of hart 0 on its way to memory. -/
def sent (hart : Nat) : PendingStore := { hart := hart, place := 0x100, data := [1, 2, 3, 4], va := 0x100, pkg := 0 }

/-- The same to local memory. -/
def sentHere (hart : Nat) : PendingStore := { sent hart with place := placeLocal 0 0xA000 }

theorem witness_LoadsSeeOwnStores : let s : State := { State.reset with stores := [sentHere 1] ++ sentHere 0 :: [sentHere 2] }
    let c : Chunk := ⟨placeLocal 0 0xA003, 4, 0⟩
    s.stores = [sentHere 1] ++ sentHere 0 :: [sentHere 2] ∧ (∀ x ∈ [sentHere 1] ++ [sentHere 2], x.hart ≠ 0) ∧ (sentHere 0).hart = 0 ∧
      (sentHere 0).release = none ∧ (sentHere 0).skip = [] ∧ s.hub.agist = [] ∧ isScratch (sentHere 0).place = true ∧ c.leaf = 0 ∧
      isScratch c.place = true ∧ (sentHere 0).place < c.place + c.n ∧ c.place < (sentHere 0).place + (sentHere 0).data.length := by decide
theorem witness_LoadsSeeOwnStores_apart : let s : State := { State.reset with stores := [sentHere 0] }
    let c : Chunk := ⟨placeLocal 0 0xA004, 4, 0⟩
    c.leaf = 0 ∧ isScratch c.place = true ∧
      ∀ t ∈ s.stores, t.hart = 0 → t.place + t.data.length ≤ c.place ∨ c.place + c.n ≤ t.place := by decide
/-- R134: a store of 2 bytes, and a signed load of them. -/
theorem test_store_load : (match exec (.st 2 1 1 0) (sup 0xF000000000000010 0x8FFE) with
    | .next t => longAfter (exec (.ldSigned 3 1 1 0) t)
    | _ => none) = some ([.s 3 0xFFFFFFFFFFFF8FFE], 0) := by decide +kernel

/-- k31 of strand 0 ends at 0xFF; a store, an atomic and an argument block of the strand itself stand beside it, and another
strand's store to it is on its way. -/
theorem witness_ConstantWindow : let s : State := { State.reset with
      stores := [{ sentHere 0 with place := placeLocal 0 0x100 }, { sentHere 1 with place := placeLocal 0 0xF8 }],
      atomics := [{ hart := 0, long := none, op := 0, size := 8, place := placeLocal 0 0x100, va := 0, operands := [], kind := 0, slot := none }],
      nears := [{ hart := 0, long := 0, op := 0, addr := 0, arg := [], argPlace := placeLocal 0 0x100, d := 0, asid := 0, user := false, slot := none, flock := 0, since := 0 }] }
    let p := placeLocal s.coreNo (0x800 * s.strandNo + 8 * 31)
    (∀ t ∈ s.stores, t.hart = s.hart → t.place + t.data.length ≤ p ∨ p + 8 ≤ t.place) ∧
      (∀ t ∈ s.atomics, t.hart = s.hart → t.place + t.size ≤ p ∨ p + 8 ≤ t.place) ∧
      (∀ t ∈ s.nears, t.hart = s.hart → t.argPlace + 64 ≤ p ∨ p + 8 ≤ t.argPlace) := by decide

/-! ### Atomics, fences, the drover and the streams -/

theorem free_sup (x1 x2 : Nat) : (sup x1 x2).ReleasesFreely := 
  ⟨by show bit 0 4 = false; decide, (by intro e h; cases h), rfl, rfl, rfl⟩

theorem witness_Atomics : OwnLocal ((sup 0xF00000000007FFF0 0).rs 1) 16 16 (2 ^ 19 - 16) ∧ OwnLocal ((sup 0xF00000000007FFF0 0).rs 1) 8 8 (2 ^ 19 - 16) ∧
    OwnLocal ((sup 0xF00000000007FFF0 0).rs 1) 4 4 (2 ^ 19 - 16) ∧ OwnLocal ((sup 0xF00000000007FFC0 0).rs 1) 64 64 (2 ^ 19 - 64) ∧
    (1 : Nat) ≤ 1 ∧ ((8 : Nat) = 4 ∨ (8 : Nat) = 8) := by
  refine ⟨⟨?_, ?_, ?_⟩, ⟨?_, ?_, ?_⟩, ⟨?_, ?_, ?_⟩, ⟨?_, ?_, ?_⟩, ?_, ?_⟩ <;> decide
/-- The strand has no result outstanding, runs a lone word, and is calm, in a memory at rest. -/
theorem witness_AtomicsComplete : let s := sup 0xF00000000007FFF0 0
    s.Calm ∧ s.Alone ∧ s.ReleasesFreely ∧ s.hub.agist = [] ∧ (∀ r ∈ s.me.longs, r.id ≠ s.me.nextLong) :=
  ⟨calm_sup _ _, rfl, free_sup _ _, rfl, by decide⟩
theorem witness_Fences_poisoned : ∃ s : State, s.NothingUnderWay ∧ bit s.me.tstatus 4 = true ∧ bits s.me.tstatus 5 3 ≤ 2 :=
  ⟨(sup 0 0).setHart 0 { (sup 0 0).me with tstatus := 0x50 }, ⟨by decide, by decide, by decide⟩, by decide, by decide⟩
theorem witness_NothingEarlier : (∃ t : State, exec (.fenceAr 5) (sup 0 0) = .next t ∧ t.me.flow = .seq ∧ t.me.releaseHeld = 0) ∧
    ∃ t : State, exec (.fenceAcq 2) (sup 0 0) = .next t ∧ t.me.flow = .seq :=
  ⟨⟨sup 0 0, rfl, by decide, by decide⟩, ⟨sup 0 0, rfl, by decide⟩⟩
theorem witness_Moves : let s := sup 0xF00000000007FFC0 0
    OwnLocal (s.rs 1) 64 64 (2 ^ 19 - 64) ∧ OwnLocal (s.rs 1) 32 8 (2 ^ 19 - 64) ∧ s.myCore.moves.length < 16 := by
  refine ⟨⟨?_, ?_, ?_⟩, ⟨?_, ?_, ?_⟩, ?_⟩ <;> decide
/-- A move of hart 0. -/
def moved (seq : Nat) : Move := { seq := seq, kind := .tile false, hart := 0, desc := [], descAddr := 0 }
theorem witness_Moves_full : 16 ≤ ((sup 0 0).setCore 0 { moves := List.replicate 16 (moved 1) }).myCore.moves.length := by decide
theorem witness_Moves_pageIn : ∃ (s : State) (l : Launch) (e : Lease), s.Calm ∧ s.rs 1 < 2 ^ 55 ∧ s.launchOf s.hart = some l ∧ e ∈ l.ranges ∧
    e.r = true ∧ e.base ≤ s.rs 1 ∧ s.rs 1 < e.base + e.size ∧ s.myCore.moves.length < 16 := by
  let l : Launch := { lnch with leases := [readRange] }
  let s : State := ((sup 0x1FFFF 0).setHart 0 { (sup 0x1FFFF 0).me with slot := some 0 }).setLaunch 0 (some l)
  exact ⟨s, l, readRange, ⟨by decide, by decide, by decide, by decide, by decide, by decide, by decide⟩, by decide, rfl, by decide, by decide, by decide,
    by decide, by decide⟩
theorem witness_Fork_free : (sup 0xA000 0).NothingUnderWay ∧ (sup 0xA000 0).ReleasesFreely := ⟨nothing_sup _ _, free_sup _ _⟩
theorem witness_Fork : let s := sup 0xA000 0
    s.me.releaseHeld = 0 ∧ s.collecting = false ∧ s.isDrover = false ∧ s.rs 1 % 8 = 0 ∧ 0xA000 ≤ s.rs 1 ∧ s.rs 1 ≤ 0x7FFF8 ∧
      (s.hartAt (8 * s.coreNo + 4)).occ = false := by decide
theorem witness_Tickets : let s := sup 1 (2 ^ 43)
    s.coreNo < 2 ^ 11 ∧ (0 : Nat) < 1 ∧ (1 : Nat) < 2 ^ 32 ∧ s.rs 1 = s.coreNo * 2 ^ 32 + 1 ∧ (∀ m ∈ s.myCore.moves, m.seq ≠ 1) ∧
      (∀ f ∈ s.myCore.moveFaults, f.seq ≠ 1) ∧ 2 ^ 43 ≤ s.rs 2 := by decide
theorem witness_Tickets_busy : ∃ m ∈ ((sup 0 0).setCore 0 { moves := [moved 1] }).myCore.moves, m.seq = 1 := ⟨moved 1, by decide, rfl⟩
/-- Ticket 1 of core 0, whose move has faulted. -/
theorem witness_Tickets_faulted : let f : MoveFault := { seq := 1, cause := 5, tval := 64 }
    let s := (sup 1 0).setCore 0 { moveFaults := [f] }
    s.coreNo < 2 ^ 11 ∧ s.rs 1 = s.coreNo * 2 ^ 32 + 1 ∧ (∀ m ∈ s.myCore.moves, m.seq ≠ 1) ∧ s.myCore.moveFaults = [f] ∧ f.seq = 1 ∧
      f.cause < 256 ∧ s.TrapsToHandler ∧ s.me.longs = [] ∧ s.NothingUnderWay ∧ s.myCore.products = [] :=
  ⟨by decide, by decide, (by intro m h; cases h), rfl, rfl, by decide, ⟨rfl, rfl, by show (0x2000 : Nat) ≠ 0; decide, by show (0x2000 : Nat) < 2 ^ 55; decide⟩,
    rfl, ⟨by decide, by decide, by decide⟩, rfl⟩
/-- Hart 0 with a stream in register 0. -/
def streaming (x : Stream) : State := (sup 0xF00000000000A000 0).setStream 0 x
theorem witness_Streams : ((streaming {}).streamAt 0).state = 0 ∧ ((streaming { state := 1 }).streamAt 0).state ≠ 0 ∧
    ((streaming { state := 1, elems := [([7], none)] }).streamAt 0).elems = ([7], none) :: [] ∧
    ((streaming { state := 1 }).streamAt 0).elems = [] := by decide
/-- A descriptor of one row of 128 bytes at local 0xA000. -/
theorem witness_Streams_bind : ∃ s : State, s.Calm ∧ (s.streamAt 0).state = 0 ∧ OwnLocal (s.rs 1) 32 8 0xA000 ∧
    (let w := splitLanes 64 4 (s.readAt (placeLocal s.coreNo 0xA000) 32)
     nth w 1 = 0 ∧ 1 ≤ nth w 2 % 2 ^ 16 ∧ 1 ≤ nth w 2 / 2 ^ 16 % 2 ^ 16 ∧ nth w 2 / 2 ^ 16 % 2 ^ 16 ≤ 128 ∧ nth w 3 < 2 ^ 32) := by
  let s : State := { sup 0xF00000000000A000 0 with mem := [(placeLocal 0 0xA010, 1), (placeLocal 0 0xA012, 128)] }
  exact ⟨s, ⟨by decide, by decide, by decide, by decide, by decide, by decide, by decide⟩, by decide, ⟨by decide, by decide, by decide⟩, by decide⟩

/-! ### Control, traps and suspension -/

theorem witness_Transfers : let s := sup (2 ^ 55 - 8) 1
    s.isDrover = false ∧ ((s.me.pc + 8 * (-512 : Int)) % 2 ^ 64).toNat < 2 ^ 55 ∧ 2 ^ 55 ≤ ((s.me.pc + 8 * (-513 : Int)) % 2 ^ 64).toNat ∧
      s.rs 1 < 2 ^ 55 ∧ s.rs 1 % 8 = 0 ∧ s.rs 2 % 8 ≠ 0 ∧ (2 ^ 55 ≤ (sup (2 ^ 55) 0).rs 1 ∧ (sup (2 ^ 55) 0).rs 1 % 8 = 0) ∧
      ((s.me.readS 1 == s.me.readS 1) = true ∧ (s.me.readS 1 == s.me.readS 2) = false) := by decide
/-- A drover program of core 0. -/
def droverAt (x1 : Nat) : State := { State.reset.setHart 4 { occ := true, s := [(1, BitVec.ofNat 64 x1)] } with hart := 4 }
theorem witness_Transfers_drover : (droverAt 0x7FFF8).isDrover = true ∧ (droverAt 1).rs 1 % 8 ≠ 0 ∧
    ((droverAt 0x80000).rs 1 % 8 = 0 ∧ 0x7FFF8 < (droverAt 0x80000).rs 1) ∧
    ((droverAt 0x7FFF8).rs 1 % 8 = 0 ∧ 0xA000 ≤ (droverAt 0x7FFF8).rs 1 ∧ (droverAt 0x7FFF8).rs 1 ≤ 0x7FFF8) := by decide
theorem witness_Loop : let s := sup 5 0
    s.isDrover = false ∧ s.me.readS 1 ≠ 0 ∧ s.me.readS 2 = 0 ∧ ((s.me.pc + 8 * (3 : Int)) % 2 ^ 64).toNat + 8 < 2 ^ 55 := by decide
theorem test_branch_back : (match exec (.blt 1 2 (-4)) (sup (2 ^ 64 - 1) 0) with
    | .next t => some (t.me.npc, t.me.flow)
    | _ => none) = some (0xFE0, .taken) := by decide
theorem witness_TrapEntry : (sup 0 0).TrapsToHandler ∧ (0x13 : Nat) < 256 ∧ (sup 0 0).me.slot = none ∧ (sup 0 0).me.longs = [] ∧
    (sup 0 0).NothingUnderWay ∧ (sup 0 0).myCore.products = [] ∧
    (let s := sup 0 0
     (if true = true ∧ isRecorded 5 = true then s.recordIn s.me.slot (s.faultRec 5 0 0 0 false false false) else s).hart = s.hart) :=
  ⟨traps_sup 0 0, by decide, rfl, rfl, nothing_sup 0 0, rfl, rfl⟩
theorem witness_TrapInstruction : (1023 : Nat) < 1024 ∧ (sup 0 0).TrapsToHandler := ⟨by decide, traps_sup 0 0⟩
theorem witness_Eret : (sup 0 0).me.tresume < 2 ^ 55 ∧ (sup 0 0).me.susp = none ∧ (sup 0 0).me.longs = [] ∧ (sup 0 0).myCore.products = [] := by
  decide
/-- R100: a breakpoint saves its own address and goes on at the next bundle. -/
theorem test_trap : (match exec (.trap 7) (sup 0 0) with
    | .next t => some (t.me.tcause, t.me.tepc, t.me.tval, t.me.tresume, t.me.pc)
    | _ => none) = some (0x13, 0x1000, 7, 0x1008, 0x2000) := by decide
theorem witness_Herd : (1 : Nat) ≠ 0 ∧ (sup 0 0).me.herdPassed = false ∧ (withMe { herdPassed := true }).me.herdPassed = true := by decide

/-- A strand whose continuation holds slot 255 of the pool of cluster 0, which is of its flock's pool. -/
def mayWait (x1 x2 : Nat) : State :=
  ((sup x1 x2).setHart 0 { (sup x1 x2).me with record := some (poolAddr 0 255) }).setCluster 0 { pool := [(255, 0, 0)] }

theorem waits_mayWait : MaySuspend (mayWait 0 0) 0 255 ∧ MaySuspend (mayWait 0xF00000000000A000 0) 0 255 :=
  ⟨⟨rfl, rfl, rfl, ⟨by decide, by decide, by decide⟩, rfl, by decide, by decide, rfl, ⟨(255, 0, 0), by decide, rfl⟩⟩,
    ⟨rfl, rfl, rfl, ⟨by decide, by decide, by decide⟩, rfl, by decide, by decide, rfl, ⟨(255, 0, 0), by decide, rfl⟩⟩⟩
theorem witness_Suspensions : (mayWait 0 0).rs 1 = 0 ∧ (∀ c ∈ (mayWait 0 0).hub.conts, c.wake = false) ∧ (1023 : Nat) ≠ 0 ∧
    (mayWait 0 0).myCore.mailbox = none := by decide
theorem witness_Suspensions_waitw : let s := mayWait 0xF00000000000A000 0
    s.Calm ∧ OwnLocal (s.rs 1) 8 8 0xA000 ∧ s.readAt (placeLocal s.coreNo 0xA000) 8 = s.rs 2 :=
  ⟨⟨by decide, by decide, by decide, by decide, by decide, by decide, by decide⟩, ⟨by decide, by decide, by decide⟩, by decide⟩
/-- The society of the launch in slot 0. -/
def soc : Society := { id := 1, scope := 2, slot := 0, interval := 1000 }
/-- A strand of a launch in a society. -/
def member (x1 x2 : Nat) : State :=
  let s := mayWait x1 x2
  let t := (s.setHart 0 { s.me with slot := some 0 }).setLaunch 0 (some lnch)
  { t with hub := { t.hub with societies := [soc] } }
theorem witness_Suspensions_floorw : let s := member 5 0
    MaySuspend s 0 255 ∧ s.mySociety = some soc ∧ soc.floor.toNat < s.rs 1 ∧ s.me.vt = BitVec.allOnes 64 :=
  ⟨⟨by decide, by decide, by decide, ⟨by decide, by decide, by decide⟩, by decide, by decide, by decide, by decide,
    ⟨(255, 0, 0), by decide, rfl⟩⟩, by decide, by decide, by decide⟩
theorem witness_EndAndSends : let s := mayWait 0 0
    s.isDrover = false ∧ s.collecting = false ∧ s.me.longs = [] ∧ s.myCore.products = [] ∧ s.mySociety = none ∧
      s.me.record = some (poolAddr 0 255) ∧ s.myCore.outbound.length < 32 ∧ s.me.vt = BitVec.allOnes 64 ∧
      meets (s.checkSend (s.rs 1) (2 ^ 64 - 1)) (fun _ => true) = true := by decide
theorem witness_EndAndSends_waitw : let s := sup 0xF00000000000A000 1
    OwnLocal (s.rs 1) 8 8 0xA000 ∧ s.readAt (placeLocal s.coreNo 0xA000) 8 ≠ s.rs 2 := by
  refine ⟨⟨?_, ?_, ?_⟩, ?_⟩ <;> decide

/-- A strand of slot 0, calm, with s1 at local 0xA000. -/
def tasker (dq cd : Nat) : State :=
  let s := sup 0xF00000000000A000 0
  ((s.setHart 0 { s.me with slot := some 0 }).setCore 0 { dqCount := dq }).setCluster 0 { cdCount := cd }
theorem witness_Spawn : let s := tasker 63 0
    let w := splitLanes 64 8 (s.readAt (placeLocal s.coreNo 0xA000) 64)
    OwnLocal (s.rs 1) 64 64 0xA000 ∧ s.me.slot = some (nth w 7 / 2 ^ 16 % 2 ^ 16) ∧ nth w 0 % 8 = 0 ∧ nth w 7 / 2 ^ 32 = 0 ∧
      nth w 7 / 2 ^ 6 % 2 ^ 10 = 0 ∧ s.myCore.dqCount < 64 := by
  refine ⟨⟨?_, ?_, ?_⟩, ?_, ?_, ?_, ?_, ?_⟩ <;> decide +kernel
theorem witness_Spawn_full : 64 ≤ (tasker 64 256).myCore.dqCount ∧ 256 ≤ ((tasker 64 256).clusterAt ((tasker 64 256).coreNo / 16)).cdCount := by
  decide
theorem calm_tasker : (tasker 63 0).Calm ∧ (tasker 63 0).ReleasesFreely ∧ (tasker 64 256).Calm :=
  ⟨⟨by decide, by decide, by decide, by decide, by decide, by decide, by decide⟩, ⟨by decide, by decide, by decide, by decide, by decide⟩,
    ⟨by decide, by decide, by decide, by decide, by decide, by decide, by decide⟩⟩
/-- A continuation of slot 0 with its record in slot 0 of the pool of cluster 0. -/
def cont (st : ContState) : Cont := { recAddr := poolAddr 0 0, slot := 0, flock := 0, cluster := 0, asid := 0, state := st }
theorem witness_Resume : ∀ st, st = ContState.suspended ∨ st = .running ∨ st = .ready →
    let t := member (poolAddr 0 0) 0
    let s : State := { t with hub := { t.hub with conts := [cont st] } }
    s.Calm ∧ s.ReleasesFreely ∧ s.rs 1 % 64 = 0 ∧ s.rs 1 / 2 ^ 56 = 0xF5 ∧ s.contOf (s.rs 1) = some (cont st) := by
  rintro st (rfl | rfl | rfl) <;>
    exact ⟨⟨by decide, by decide, by decide, by decide, by decide, by decide, by decide⟩,
      ⟨by decide, by decide, by decide, by decide, by decide⟩, by decide +kernel, by decide +kernel, by decide +kernel⟩
theorem witness_Depset : OwnLocal ((sup 0xF00000000007FFF0 0).rs 1) 16 16 (2 ^ 19 - 16) := by refine ⟨?_, ?_, ?_⟩ <;> decide

/-! ### Effect lists -/

/-- A supervisor strand of a launch whose arena is the page at 0x10000, held by the micro-TLB at frame 0x20, with the memory
given. -/
def paged (m : List Host.Cell) (x1 x2 : Nat) : State :=
  let s := sup x1 x2
  let e : Tlb := { kind := 0, unit := 0, asid := 0, page := 1, large := false, entry := 0x200077 }
  let l : Launch := { lnch with arenaBase := 0x10000, arenaSize := 1 }
  let t : State := (s.setHart 0 { s.me with slot := some 0 }).setLaunch 0 (some l)
  { t with tlbs := [e], mem := m }

/-- The arena with three free blocks. -/
def arenaState (x1 x2 : Nat) : State :=
  paged [(0x200001, 0x08), (0x200002, 0x01), (0x200008, 3), (0x200809, 0x10), (0x20080A, 1), (0x201009, 0x18), (0x20100A, 1)] x1 x2

/-- The page of the arena, as the strand finds it in any state that has its translation, its launch and its package. -/
theorem global_of (s : State) (va n : Nat) (ht : s.tlbs = [{ kind := 0, unit := 0, asid := 0, page := 1, large := false, entry := 0x200077 }])
    (hc : s.coreNo = 0) (ha : s.me.asid = 0) (hs : s.me.slot = some 0)
    (hl : s.launchAt 0 = some { lnch with arenaBase := 0x10000, arenaSize := 1 }) (hp : s.hub.pkg = 0) (hi : s.inPaddock 0 = true)
    (h1 : 65536 ≤ va) (h2 : va < 131072) (h3 : va + n ≤ 131072) : s.GlobalAt va n 0x20 := by
  have hv : va / 65536 = 1 := by omega
  refine ⟨by omega, by omega, ⟨⟨{ kind := 0, unit := 0, asid := 0, page := 1, large := false, entry := 0x200077 }, ?_, rfl, by decide,
    by decide, by decide, by decide, by decide⟩, hp.symm, by decide, by rw [hp]; exact hi⟩, 0,
    { lnch with arenaBase := 0x10000, arenaSize := 1 },
    { base := 0x10000, size := 0x10000, maxTier := 3, r := true, w := true, x := false }, hs, hl, by decide, rfl, rfl, h1, h3⟩
  simp [ht, hc, ha, Tlb.covers, hv]
theorem arena_of (s : State) (ht : s.tlbs = [{ kind := 0, unit := 0, asid := 0, page := 1, large := false, entry := 0x200077 }])
    (hc : s.coreNo = 0) (ha : s.me.asid = 0) (hs : s.me.slot = some 0)
    (hl : s.launchAt 0 = some { lnch with arenaBase := 0x10000, arenaSize := 1 }) (hp : s.hub.pkg = 0) (hi : s.inPaddock 0 = true)
    (hq : s.QuietMemory) (hr : s.arena = some (0x10000, 65536)) : ArenaAt s 0x10000 65536 (fun _ => 0x20) := by
  refine ⟨hr, rfl, hq, ?_, ?_⟩
  · intro a h1 h2 h3
    exact global_of s a 65536 ht hc ha hs hl hp hi h1 h2 (by omega)
  · intro a c h1 h2 h3 h4 _; omega
theorem global_paged (m : List Host.Cell) (x1 x2 va n : Nat) (h1 : 65536 ≤ va) (h2 : va < 131072) (h3 : va + n ≤ 131072) :
    (paged m x1 x2).GlobalAt va n 0x20 :=
  global_of _ va n rfl (by show (0 : Nat) / 8 = 0; decide) rfl rfl rfl rfl (show (paged [] 0 0).inPaddock 0 = true by decide) h1 h2 h3
theorem arena_paged (m : List Host.Cell) (x1 x2 : Nat) : ArenaAt (paged m x1 x2) 0x10000 65536 (fun _ => 0x20) :=
  arena_of _ rfl (by show (0 : Nat) / 8 = 0; decide) rfl rfl rfl rfl (show (paged [] 0 0).inPaddock 0 = true by decide)
    ⟨rfl, rfl, rfl, rfl, rfl, rfl, rfl, rfl⟩ rfl

/-- The state with an s register in place. -/
def reg (s : State) (d x : Nat) : State := s.setMe (s.me.writeS d (BitVec.ofNat 64 x))

theorem witness_FramesOpen : let s := arenaState 64 0
    let fr := fun (_ : Nat) => 0x20
    ArenaAt s 0x10000 65536 fr ∧ BlockAt 0x10000 65536 (arenaWord fr s 0x10000) ∧ s.isDrover = false ∧ s.me.ectx = 0 ∧
      1 ≤ s.me.ecapdef.toNat ∧ s.me.ecapdef.toNat < 2 ^ 32 ∧ (31 : Nat) < 32 ∧ s.target 2 < 2 ^ 55 ∧ s.nextBundle < 2 ^ 64 ∧
      1 ≤ s.rs 1 ∧ s.rs 1 < 2 ^ 32 ∧ s.rs 2 = 0 := by
  refine ⟨arena_paged _ _ _, ⟨by decide +kernel, by decide +kernel, by decide +kernel⟩, ?_⟩
  decide +kernel

/-- The cells of a list of the block at 0x10800 (frame 0x20 is the page's place), capacity 64, base 0, of the latest time:
its word of marks, and whether it has one entry, the store of 77 to 0x1F000. -/
def listCells (marks : BitVec 8) (full : Bool) : List Host.Cell :=
  [(0x200001, 16), (0x200002, 1), (0x200008, 2)] ++ (if full then [(0x200800, 1), (0x200808, 1)] else []) ++
  [(0x200810, 64), (0x200819, 8), (0x20081A, 1), (0x200821, 8), (0x200822, 1)] ++ (upFrom 0x200830 8).map (fun a => (a, 255)) ++
  [(0x200848, marks)] ++ (if full then [(0x200978, 1)] ++ (if marks == 1 then [(0x200B78, 1)] else []) ++
    [(0x200C81, 240), (0x200C82, 1), (0x200C87, 48), (0x200C88, 77)] else []) ++ [(0x201009, 24), (0x20100A, 1)]
/-- A frame opened by `ecollect`; the same with one entry; the list closed, its handle in s1. -/
def collected : State := (paged (listCells 5 false) 64 0).setMe { (arenaState 64 0).me with ectx := 0x10800 }
def withEntry : State := (paged (listCells 5 true) 64 0).setMe { (arenaState 64 0).me with ectx := 0x10800 }
def closed : State := paged (listCells 1 true) 0x10800 0
/-- Two lists: s1's, closed, of one store; s2's, of none, closed or open. -/
def twoLists (marks : BitVec 8) : State :=
  let m := (0x200001, 24) :: ((listCells 1 true).drop 1).dropLast.dropLast
  paged (m ++ [(0x201010, 64), (0x201019, 16), (0x20101A, 1), (0x201021, 16), (0x201022, 1)] ++ (upFrom 0x201030 8).map (fun a => (a, 255)) ++
    [(0x201048, marks)]) 0x10800 0x11000

theorem witness_Frame_callc : let s := arenaState 64 0
    s.isDrover = false ∧ s.target 2 < 2 ^ 55 ∧ meets s.blockFree (fun u => decide (1 ≤ u.me.ecapdef.toNat ∧ u.me.ecapdef.toNat < 2 ^ 32) &&
      meets (u.openFrame u.me.ecapdef.toNat u.me.ectx.toNat 0 5 u.nextBundle u.me.vt.toNat) (fun r => !r.1.isDrover)) = true := by
  decide +kernel
theorem witness_Frame_ecollect : let s := arenaState 64 0
    1 ≤ s.rs 1 ∧ s.rs 1 < 2 ^ 32 ∧ meets (s.baseOperand (s.rs 2)) (fun u => meets u.blockFree (fun v =>
      meets (v.openFrame (s.rs 1) (s.rs 2) 1 0 0 v.me.vt.toNat) (fun _ => true))) = true ∧ s.me.ectx = 0 ∧ s.rs 2 = 0 := by
  decide +kernel
theorem witness_Frame_eclose : collected.me.ectx ≠ 0 ∧ meets collected.currentList (fun r => r.2.kind == 1 &&
    meets (r.1.closeFrame r.2 r.2.outer) (fun _ => true)) = true := by decide +kernel
theorem witness_Frame_cret : let s := (paged (listCells 4 false) 64 0).setMe { (arenaState 64 0).me with ectx := 0x10800 }
    s.me.ectx ≠ 0 ∧ meets s.currentList (fun r => r.2.kind == 0 && meets (r.1.closeFrame r.2 r.2.outer) (fun _ => true)) = true := by
  decide +kernel
theorem witness_Lists_cat : closed.rs 1 ≠ 0 ∧ closed.rs 2 = 0 ∧ meets (closed.listOperand (closed.rs 1)) (fun r => match r.2 with
    | some (h, es) => es.length == 1 && meets (r.1.newList h.cap h.base h.ts es) (fun v => meets (v.1.freeList h) (fun _ => true))
    | none => false) = true := by decide +kernel
theorem witness_Lists_cat2 : let s := twoLists 1
    s.rs 1 ≠ s.rs 2 ∧ s.rs 1 ≠ 0 ∧ meets (s.listOperand (s.rs 1)) (fun u => meets (u.1.listOperand (s.rs 2)) (fun v =>
      match u.2, v.2 with
      | some (h, es), some (k, fs) => meets (v.1.newList (min (h.cap + k.cap) (2 ^ 32 - 1)) h.base h.ts (es ++ fs)) (fun w =>
          meets (w.1.freeList h) (fun x => meets (x.freeList k) (fun _ => true)))
      | _, _ => false)) = true := by decide +kernel
theorem witness_Lists_same : let s := reg closed 2 0x10800
    s.rs 1 = s.rs 2 ∧ s.rs 1 ≠ 0 := by decide +kernel
theorem witness_Lists_null : (arenaState 0 0).rs 1 = 0 ∧ (arenaState 0 0).rs 2 = 0 := by decide +kernel
/-- A strand at rest with list memory: nothing of it is under way. -/
theorem calm_paged (m : List Host.Cell) (x1 x2 : Nat) : (paged m x1 x2).Calm ∧ (paged m x1 x2).Alone ∧ (paged m x1 x2).QuietMemory :=
  ⟨⟨rfl, rfl, rfl, rfl, (by intro t h; cases h), (by intro t h; cases h), (by intro t h; cases h)⟩, rfl,
    ⟨rfl, rfl, rfl, rfl, rfl, rfl, rfl, rfl⟩⟩
/-- An argument block at local 0xA000, and words of the page at 0x10000. -/
def nearState (m : List Host.Cell) : State := paged m 0x10000 0xF00000000000A000
theorem witness_NearComplete : ∀ m, OwnLocal ((nearState m).rs 2) 64 64 0xA000 ∧ (nearState m).rs 1 % 32 = 0 ∧
    (∀ r ∈ (nearState m).me.longs, r.id ≠ (nearState m).me.nextLong) ∧ (nearState m).GlobalAt 0x10000 32 0x20 := by
  intro m
  have h : (nearState m).rs 1 = 0x10000 ∧ (nearState m).rs 2 = 0xF00000000000A000 := by
    show (nearState []).rs 1 = 0x10000 ∧ (nearState []).rs 2 = 0xF00000000000A000; decide
  rw [h.1, h.2]
  exact ⟨⟨by decide, by decide, by decide⟩, by decide, (by intro r h; cases h),
    global_paged m 0x10000 0xF00000000000A000 0x10000 32 (by decide) (by decide) (by decide)⟩
/-- The engine of this package is asked without a link. -/
theorem witness_NearLeaves : let s := nearState []
    ∀ p ∈ s.accessPlaces s.hart (s.rs 1), s.noCredit .request p = false := by decide +kernel
/-- A node at 0x10100 with its link at 8, and a queue with and without a tail. -/
theorem witness_NearComplete_enq : ∀ tail : BitVec 8, tail = 0 ∨ tail = 2 →
    let p := placeLocal 0 0xA000
    let s := nearState [(0x200009, tail), (0x20000A, if tail = 0 then 0 else 1), (p + 1, 1), (p + 2, 1), (p + 8, 8)]
    let node := s.readAt p 8
    let link := s.readAt (p + 8) 8
    let t1 := s.writeAt (placeIn 0x20 (node + link)) 8 0
    let last := t1.readAt (placeIn 0x20 (s.rs 1) + 8) 8
    s.rs 1 % 16 = 0 ∧ node ≠ 0 ∧ link % 8 = 0 ∧ (node + link) % 8 = 0 ∧ 65536 ≤ node + link ∧ node + link + 8 ≤ 131072 ∧
      (tail = 0 → last = 0) ∧ (tail = 2 → last ≠ 0 ∧ (last + link) % 8 = 0 ∧ 65536 ≤ last + link ∧ last + link + 8 ≤ 131072) := by
  rintro tail (rfl | rfl) <;> decide +kernel
/-- A chase of no hop, one that stops at its first key, and one of one hop. -/
theorem witness_NearComplete_chase : let p := placeLocal 0 0xA000
    let arg := fun (s : State) (i : Nat) => s.readAt (p + 8 * i) 8
    let s := nearState [(p, 1), (p + 32, 1)]
    let t := nearState [(p, 1), (p + 8, 8)]
    arg (nearState []) 0 ≤ 4096 ∧ arg (nearState []) 0 = 0 ∧
      (1 ≤ arg s 0 ∧ arg s 0 ≤ 4096 ∧ s.rs 1 ≠ 0 ∧ bit (arg s 4) 0 = true ∧ (s.rs 1 + arg s 2) % 8 = 0 ∧ s.rs 1 + arg s 2 = 0x10000 ∧
        s.readAt (placeIn 0x20 (s.rs 1 + arg s 2)) 8 = arg s 3) ∧
      arg t 0 = 1 ∧ t.rs 1 ≠ 0 ∧ bit (arg t 4) 0 = false ∧ (t.rs 1 + arg t 1) % 8 = 0 ∧ t.rs 1 + arg t 1 = 0x10008 := by decide +kernel
/-- The open frames of `ecollect` and of `callc`. -/
theorem witness_ListComplete_frame : FrameOfKind collected 0x10000 65536 (fun _ => 0x20) 1 ∧
    FrameOfKind ((paged (listCells 4 false) 64 0).setMe { (arenaState 64 0).me with ectx := 0x10800 }) 0x10000 65536 (fun _ => 0x20) 0 ∧
    ArenaAt collected 0x10000 65536 (fun _ => 0x20) := by
  refine ⟨?_, ?_, arena_of _ rfl (by decide) rfl rfl rfl rfl (by decide) ⟨rfl, rfl, rfl, rfl, rfl, rfl, rfl, rfl⟩ rfl⟩ <;> (unfold FrameOfKind BlockAt arenaWord; decide +kernel)
/-- A closed list of one store to 0x1F000, and one without entries; a free block of another address; a range of addresses. -/
theorem witness_ListComplete_list : let fr := fun (_ : Nat) => 0x20
    let s := reg (reg (paged (listCells 1 false) 0x10800 0) 6 0x1F000) 7 0x1FFFF
    ListAt closed 0x10000 65536 fr (closed.rs 1) 1 ∧ ListAt s 0x10000 65536 fr (s.rs 1) 0 ∧
      BlockAt 0x10000 65536 (arenaWord fr s 0x10000) ∧ arenaWord fr s 0x10000 ≠ s.rs 1 / 64 * 64 ∧
      arenaWord fr s (s.rs 1 / 64 * 64 + 56) = 0 ∧ arenaWord fr closed (closed.rs 1 / 64 * 64 + 16) + closed.rs 2 < 2 ^ 32 ∧
      (s.rs 6 ≤ s.rs 7 ∧ s.rs 6 < 2 ^ 55 ∧ s.rs 7 ≤ 2 ^ 55) ∧ s.rs 2 = 0 ∧ 1 ≤ s.rs 6 := by
  unfold ListAt BlockAt arenaWord; decide +kernel
/-- A closed list of one store to local 0xA000 of core 0. -/
theorem witness_ListComplete_apply : let fr := fun (_ : Nat) => 0x20
    let s := paged ((listCells 1 true).map (fun c => if c.1 = 0x200C82 then (0x200C86, 0xC0) else if c.1 = 0x200C81 then (c.1, 0xA0) else c)) 0x10800 0
    let x := s.rs 1 / 64 * 64
    ListAt s 0x10000 65536 fr (s.rs 1) 1 ∧ s.me.sup = true ∧ s.me.releaseHeld = 0 ∧ s.me.ectx = 0 ∧ s.coreNo < 1536 ∧
      arenaWord fr s (x + 40) = 0 ∧ arenaWord fr s (x + 0x480) = 3 * 2 ^ 60 + 2 ^ 55 + 4 * 2 ^ 52 + s.coreNo * 2 ^ 19 + 0xA000 := by
  unfold ListAt BlockAt arenaWord; decide +kernel
/-- A range of effect addresses from 0x1F000 to 0x1FFFF, and nothing moved. -/
theorem witness_Lists_filter : let s := reg (reg closed 6 0x1F000) 7 0x1FFFF
    meets (s.listOperand (s.rs 1)) (fun u => match u.2, effectRange (s.rs 6) (s.rs 7) with
      | some (h, es), some (lo, hi) => meets (u.1.newList h.cap h.base h.ts (filterIn lo hi es)) (fun _ => true) &&
          meets (u.1.newList h.cap h.base h.ts (filterOut lo hi es)) (fun _ => true)
      | _, _ => false) = true := by decide +kernel
theorem witness_Lists_rebase : let s := reg (reg (reg closed 6 0x1F000) 7 0x1FFFF) 5 8
    s.rs 1 ≠ 0 ∧ meets (s.closedList (s.rs 1)) (fun u => meets (u.1.entriesOf u.2) (fun v => match effectRange (s.rs 6) (s.rs 7) with
      | some (lo, hi) => meets (movedEntries lo hi (s.rs 5) v.2) (fun fs => meets (v.1.rewriteEntries fs) (fun w =>
          meets (w.lwrite (u.2.addr + 0x80) 512 0) (fun x => meets (x.setFilter u.2 (fs.flatMap entryLines)) (fun _ => true))))
      | none => false)) = true := by decide +kernel
theorem witness_Lists_drop : let s := reg closed 4 5
    s.rs 1 ≠ 0 ∧ meets (s.closedList (s.rs 1)) (fun u => decide (u.2.count ≤ s.rs 4) && meets (u.1.freeList u.2) (fun _ => true)) = true ∧
      meets (s.ownList (s.rs 1)) (fun u => decide (u.2.cap + s.rs 2 < 2 ^ 32) && meets (u.1.entriesOf u.2) (fun _ => true) &&
        meets (u.1.lwrite (u.2.addr + 0x10) 8 (u.2.cap + s.rs 2)) (fun _ => true)) = true ∧
      meets ((reg s 2 (2 ^ 32)).ownList (s.rs 1)) (fun u => decide (2 ^ 32 ≤ u.2.cap + (reg s 2 (2 ^ 32)).rs 2)) = true := by decide +kernel
theorem witness_Lists_trunc : let s := closed
    meets (s.closedList (s.rs 1)) (fun u => decide (s.rs 2 < u.2.count) && meets (u.1.blocksOf u.2) (fun v =>
      meets (v.1.entriesOf u.2) (fun w => meets (w.1.cutBlocks u.2 v.2 (State.furtherBlocks (granulesOf (w.2.take (s.rs 2))))) (fun x =>
        meets (x.1.writeHead { x.2 with count := s.rs 2, used := granulesOf (w.2.take (s.rs 2)), progress := min x.2.progress (s.rs 2) })
          (fun _ => true))))) = true := by decide +kernel
theorem witness_Apply : let s := closed
    s.rs 1 ≠ 0 ∧ meets (s.listOperand (s.rs 1)) (fun u => match u.2 with
      | some (h, es) => !u.1.collecting && u.1.me.releaseHeld == 0 && meets (u.1.applyList h es) (fun v => v.2.isNone &&
          meets (v.1.setProgress h 0) (fun _ => true)) && meets (u.1.applyIso h es) (fun v => meets (v.setProgress h 0) (fun _ => true))
      | none => false) = true := by decide +kernel
theorem witness_Apply_collecting : let s := (twoLists 5).setMe { (twoLists 5).me with ectx := 0x11000 }
    meets (s.listOperand (s.rs 1)) (fun u => match u.2 with
      | some (h, es) => u.1.collecting && meets (u.1.applyRecorded h es) (fun _ => true)
      | none => false) = true := by decide +kernel
/-- The list's one store goes to a page that the launch does not lease. -/
theorem witness_Apply_fault : let s := paged ((listCells 1 true).map (fun c => if c.1 = 0x200C82 then (c.1, 2) else c)) 0x10800 0
    meets (s.listOperand (s.rs 1)) (fun u => match u.2 with
      | some (h, es) => !u.1.collecting && meets (u.1.applyList h es) (fun w => match w.2 with
          | some (.trapAt _ _ _) => true
          | _ => false)
      | none => false) = true := by decide +kernel
/-- A closed list of 65 stores of a byte to 65 lines, in two blocks. -/
def manyLines : State :=
  let cell := fun g => let p := 0x1F0000 + (if g < 56 then 0x10C80 + 16 * g else 0x11010 + 16 * (g - 56))
    ((p + 1, BitVec.ofNat 8 g) : Host.Cell)
  paged ([(0x200001, 24), (0x200002, 1), (0x200800, 65), (0x200808, 65), (0x200861, 16), (0x200862, 1)] ++ (upFrom 0 65).map cell)
    0x10800 0
theorem witness_Apply_iso : let s := manyLines
    meets (s.listOperand (s.rs 1)) (fun u => match u.2 with
      | some (_, es) => !u.1.collecting && u.1.me.releaseHeld == 0 && decide (64 < linesWritten es)
      | none => false) = true := by decide +kernel
/-- R303: the handle of a new list is its address and its generation. -/
theorem test_ecollect : longAfter (exec (.ecollect 3 1 2) (arenaState 64 0)) = some ([.s 3 0x10800], 0) := by decide +kernel

/-! ### Messages, tags and virtual time -/

theorem witness_Send : let s := sup (2 ^ 26) 0
    s.collecting = false ∧ s.me.releaseHeld = 0 ∧ (∀ x ∈ s.atomics, x.hart = s.hart → x.acq = false) ∧ s.mySociety = none ∧ (s.rs 1 < 2 ^ 37 ∧ s.rs 1 % 2 ^ 11 ≤ 1535 ∧ s.inPaddock (bits (s.rs 1) 11 15) = true) ∧
      s.myCore.outbound.length < 32 ∧ bits (s.rs 1) 11 15 = s.hub.pkg ∧ 2 ^ 37 ≤ (sup (2 ^ 37) 0).rs 1 := by decide
theorem witness_Send_late : let s := withMe { vt := 5, s := [(3, 4)] }
    s.rs 3 ≠ 2 ^ 64 - 1 ∧ s.me.vt ≠ BitVec.allOnes 64 ∧ s.rs 3 < s.me.vt.toNat := by decide
/-- A society at floor 4: a timestamp at the floor leaves, one below it is late. -/
theorem witness_Send_society : let y : Society := { soc with floor := 4 }
    let s : State := { reg (member (2 ^ 26) 3) 3 4 with hub := { (member 0 0).hub with societies := [y] } }
    s.collecting = false ∧ s.me.releaseHeld = 0 ∧ (∀ x ∈ s.atomics, x.hart = s.hart → x.acq = false) ∧ s.mySociety = some y ∧
      s.me.slot = some 0 ∧ s.rs 3 ≠ 2 ^ 64 - 1 ∧ ¬(s.rs 3 < y.floor.toNat) ∧ s.me.vt = BitVec.allOnes 64 ∧
      (s.rs 2 ≠ 2 ^ 64 - 1 ∧ s.rs 2 < y.floor.toNat) := by decide
theorem witness_Send_full : 32 ≤ ((sup 0 0).setCore 0 { outbound := List.replicate 32 { ts := 0, hdr := 0, payload := [], dest := 0, asid := 0, slot := 0 } }).myCore.outbound.length := by decide
theorem witness_Tags : let s := (member 255 256).setCore 0 { tableOwner := some 0 }
    s.rs 1 ≤ 255 ∧ 255 < s.rs 2 ∧ s.me.slot ≠ none ∧ s.myCore.tableOwner = s.me.slot ∧ (sup 255 0).me.slot = none := by decide

/-- A clean agent descriptor of zeros at local 0xA000, in an arena with free blocks. -/
def agentState (x2 : Nat) : State := arenaState 0xF00000000000A000 x2

theorem witness_Agent : let s := agentState 5
    s.collecting = false ∧ meets (s.readAgent (s.rs 1)) (fun u => u.2.clean && !u.2.opened && decide (u.2.lvt ≤ s.rs 2) &&
      meets u.1.blockFree (fun v =>
        let e := v.setMe { v.me with vt := BitVec.ofNat 64 (s.rs 2) }
        v.me.latch.isNone && meets (e.openFrame u.1.me.ecapdef.toNat u.2.chain 2 0 u.2.addr (s.rs 2)) (fun w => w.1.me.latch.isNone &&
          meets (w.1.writeAgent { u.2 with word := u.2.word + 2 ^ 63 }) (fun _ => true)))) = true ∧
      (agentState (2 ^ 64 - 1)).rs 2 = 2 ^ 64 - 1 := by decide +kernel
theorem witness_Agent_dirty : let s : State := { agentState 5 with mem := [(placeLocal 0 0xA01C, 1)] }
    meets (s.readAgent (s.rs 1)) (fun u => !u.2.clean) = true := by decide +kernel
theorem witness_Agent_straggler : let s : State := { agentState 5 with mem := [(placeLocal 0 0xA000, 6)] }
    meets (s.readAgent (s.rs 1)) (fun u => u.2.clean && !u.2.opened && decide (s.rs 2 < u.2.lvt)) = true ∧ s.rs 2 ≠ 2 ^ 64 - 1 := by
  decide +kernel
/-- One event at time 5 of the agent at local 0xA000; and the event ended, its list the agent's chain. -/
def opened : State :=
  let s := paged ([(0x200001, 16), (0x200002, 1), (0x200008, 2), (0x200810, 64), (0x200819, 8), (0x20081A, 1), (0x200821, 8), (0x200822, 1),
    (0x200830, 5), (0x200848, 6), (0x200859, 160), (0x20085F, 240), (0x201009, 24), (0x20100A, 1), (placeLocal 0 0xA01F, 128)])
    0xF00000000000A000 5
  s.setMe { s.me with vt := 5, ectx := 0x10800 }
def ended : State :=
  let p := placeLocal 0 0xA000
  let s := paged [(0x200001, 16), (0x200002, 1), (0x200008, 2), (0x200810, 64), (0x200819, 8), (0x20081A, 1), (0x200821, 8), (0x200822, 1),
    (0x200830, 5), (0x200848, 2), (0x200859, 160), (0x20085F, 240), (0x201009, 24), (0x20100A, 1), (p, 5), (p + 9, 8), (p + 10, 1),
    (p + 17, 8), (p + 18, 1), (p + 24, 1)] 0xF00000000000A000 5
  s.setMe { s.me with vt := 5 }
theorem witness_Evend : let s := opened
    s.me.ectx ≠ 0 ∧ meets s.currentList (fun u => u.2.kind == 2 && meets (u.1.readAgent u.2.ret) (fun v => v.2.clean &&
      meets (v.1.closeFrame u.2 0) (fun w => meets (w.writeAgent { v.2 with
        chain := u.2.addr + u.2.gen, last := u.2.addr + u.2.gen, lvt := w.me.vt.toNat, word := (v.2.word % 2 ^ 32 + 1) % 2 ^ 32 })
          (fun _ => true)))) = true := by decide +kernel
theorem witness_Rollback : let s := ended
    meets (s.readAgent (s.rs 1)) (fun u => u.2.clean && !u.2.opened && meets (u.1.rollLists (s.rs 2) u.1.arenaBlocks u.2.chain) (fun r =>
      let m := r.1.rollMessages r.1.me.rolled (r.2.2.1.drop r.1.me.rolled)
      m.2.isNone && meets ((m.1.setMe { m.1.me with rolled := 0 }).freeLists r.2.1) (fun x => meets (x.writeAgent { u.2 with
        lvt := r.2.2.2.2, chain := r.2.2.2.1, last := r.2.2.2.1,
        word := (u.2.word % 2 ^ 32 + (2 ^ 32 - r.2.1.length % 2 ^ 32)) % 2 ^ 32 }) (fun _ => true)))) = true := by
  decide +kernel
/-- The same in a hart that holds its releases. -/
theorem witness_Virtual_held : let hold := fun (s : State) => s.setMe { s.me with releaseHeld := 1 }
    meets ((hold (agentState 5)).readAgent ((hold (agentState 5)).rs 1)) (fun u => u.2.clean && !u.2.opened && u.1.me.releaseHeld != 0 &&
      meets u.1.blockFree (fun v => v.me.latch.isNone && v.me.releaseHeld != 0)) = true ∧
    meets (hold opened).currentList (fun u => u.2.kind == 2 && meets (u.1.readAgent u.2.ret) (fun v => v.2.clean &&
      v.1.me.releaseHeld != 0)) = true ∧ (hold opened).me.ectx ≠ 0 := by decide +kernel
/-- A `rollback` of one timed send whose queue is full waits with its progress kept. -/
theorem witness_Rollback_waits : let e : Entry := { words := [3 * 2 ^ 56, 5, 2 ^ 42, 0] }
    let m : Msg := { ts := 0, hdr := 0, payload := [], dest := 0, asid := 0, slot := 0 }
    let s := (sup 0 0).setCore 0 { outbound := List.replicate 32 m }
    (s.rollMessages 0 [e]).2.isSome = true := by decide +kernel
theorem witness_Commit : let s := reg ended 2 6
    meets (s.readAgent (s.rs 1)) (fun u => decide (s.rs 2 ≤ u.1.myFloor) && meets (u.1.chainHeads u.1.arenaBlocks u.2.chain) (fun v =>
      let keep := v.2.filter (fun h => decide (s.rs 2 ≤ h.ts))
      let gone := (v.2.filter (fun h => decide (h.ts < s.rs 2))).reverse
      gone.length == 1 && meets (v.1.commitLists keep.getLast? gone) (fun w => w.2.isNone && meets (w.1.writeAgent { u.2 with
        chain := 0, last := 0, word := 0 }) (fun _ => true)))) = true := by decide +kernel
/-- The completion of the virtual-time instructions: agents at local 0xA000, without a chain and with one of one list. -/
theorem witness_VirtualTimeCompletes_begin : let s := agentState 5
    let agent := fun (i : Nat) => s.readAt (placeLocal s.coreNo 0xA000 + 8 * i) 8
    s.isDrover = false ∧ s.me.sup = true ∧ s.me.ectx = 0 ∧ s.rs 1 = ownLocal 0xA000 ∧ agent 1 = 0 ∧ agent 3 < 2 ^ 32 ∧
      s.rs 2 ≠ 2 ^ 64 - 1 ∧ agent 0 ≤ s.rs 2 ∧ 1 ≤ s.me.ecapdef.toNat ∧ s.me.ecapdef.toNat < 2 ^ 32 ∧ s.me.latch = none ∧
      BlockAt 0x10000 65536 (arenaWord (fun _ => 0x20) s 0x10000) ∧ s.mySociety = none ∧ s.me.releaseHeld = 0 := by
  unfold BlockAt arenaWord; decide +kernel
theorem witness_VirtualTimeCompletes_end : let s := opened
    FrameOfKind s 0x10000 65536 (fun _ => 0x20) 2 ∧ arenaWord (fun _ => 0x20) s (s.me.ectx.toNat / 64 * 64 + 88) = ownLocal 0xA000 ∧
      s.readAt (placeLocal s.coreNo 0xA000 + 24) 8 / 2 ^ 32 % 2 ^ 31 = 0 := by
  unfold FrameOfKind BlockAt arenaWord; decide +kernel
theorem witness_VirtualTimeCompletes_chain : let s := reg ended 3 6
    let h := s.readAt (placeLocal s.coreNo 0xA000 + 8) 8
    let x := h / 64 * 64
    s.me.ectx = 0 ∧ s.rs 1 = ownLocal 0xA000 ∧ s.readAt (placeLocal s.coreNo 0xA000 + 24) 8 < 2 ^ 32 ∧
      ListAt s 0x10000 65536 (fun _ => 0x20) h 0 ∧ arenaWord (fun _ => 0x20) s (x + 56) = 0 ∧
      s.rs 2 ≤ arenaWord (fun _ => 0x20) s (x + 48) ∧ arenaWord (fun _ => 0x20) s (x + 48) < s.rs 3 := by
  unfold ListAt BlockAt arenaWord; decide +kernel
theorem witness_Commit_late : let s := { member 0xF00000000000A000 1 with mem := [] }
    s.collecting = false ∧ meets (s.readAgent (s.rs 1)) (fun u => u.2.clean && !u.2.opened && decide (u.1.myFloor < s.rs 2)) = true := by
  decide +kernel
theorem witness_Virtual_collecting : collected.collecting = true ∧ (arenaState 64 0).me.ectx = 0 := by decide +kernel
theorem witness_Lqry_society : let s := member 0 1
    s.rs 1 = 0 ∧ s.rs 2 = 1 ∧ s.mySociety = some soc ∧ s.me.slot = some 0 ∧ (0 : Nat) < 4096 := by decide
theorem witness_Lqry : (sup 0 1).rs 1 = 0 ∧ (sup 0 1).rs 2 = 1 ∧ (sup 0 1).mySociety = none ∧ (member 0 1).mySociety ≠ none ∧
    (sup 2 3).rs 1 = 2 ∧ (sup 2 3).rs 2 = 3 ∧ 3 < (sup 4 0).rs 1 ∧ (∃ x : InMsg, x.msg.timed = true) :=
  ⟨by decide, by decide, by decide, by decide, by decide, by decide, by decide,
    ⟨{ msg := { ts := 1, hdr := 0, payload := [], dest := 0, asid := 0, slot := 0 }, arrival := 0, general := false }, by decide⟩⟩

/-! ### Sysregs and the system operations of memory -/

theorem witness_Sysregs : (sup 0 0).me.sup = true ∧ (sup 0 0).me.snap = none ∧ (sup 0 0).mySociety = none ∧ (member 0 0).mySociety = some soc ∧
    (member 0 0).me.sup = true ∧ (3 : Nat) < 4 ∧ (let s := (member 0 0).setCore 0 { tableOwner := some 0 }
      s.me.slot ≠ none ∧ s.myCore.tableOwner = s.me.slot) ∧ (sup 0 0).me.slot = none := by decide
theorem witness_Privilege : (user 0 0).me.sup = false ∧ (0x20A : Nat) < 0x400 ∧ (0x209 : Nat) < 0x20A ∧ (0x00D : Nat) < 0x00E ∧ (0x00E : Nat) < 0x010 ∧
    (0x017 : Nat) < 0x018 ∧ (0x105 : Nat) < 0x106 := by decide
theorem witness_FailedChecks : let s := State.reset.withFetchWord 32 0x34
    let e : Fetched := { addr := 0, w0 := 0x80000034, w1 := 0 }
    s.agenda = [] ∧ s.issuing = true ∧ s.atIssue.bundleNow = some e ∧ s.tick.gated = false ∧ e.fault = none ∧ s.atIssue.me.word = 0 ∧
      bundleFault s.atIssue.me s.isDrover e.w0 e.w1 s.atIssue.mySociety.isSome = some (0x01, 0x80000034) :=
  ⟨by decide, by decide, by decide, by decide, rfl, by decide, by decide⟩
/-- R98: the value of ECAPDEF at reset, and a write of FRM. -/
theorem test_sysregs : sAfter (exec (.srd 3 7) (sup 0 0)) 3 = some 64 ∧ (match exec (.swr 1 1) (sup 7 0) with
    | .next t => some t.me.frm
    | _ => none) = some 3 := by decide
theorem witness_Tlbi : let s := sup 0x2000 0
    s.me.sup = true ∧ s.rs 1 < 2 ^ 14 ∧ bit (s.rs 1) 13 = true ∧ s.stores = [] ∧ s.atomics = [] ∧ s.nears = [] ∧ (4 : Nat) ≤ 7 ∧
      2 ^ 14 ≤ (sup (2 ^ 14) 0).rs 1 ∧ bit (s.rs 2) 13 = false ∧ s.rs 2 < 2 ^ 55 ∧ 2 ^ 55 ≤ (sup 0 (2 ^ 55)).rs 2 := by decide

/-- A lease record at 0x10000 of id 1 of a lender: one page at 0x10000 of tier 1, MWIN 1, backing at the start of tier 3. -/
def leaseState (lender : Nat) : State :=
  paged ([(0x200000, 1)] ++ (if lender = 0 then [] else [(0x200004, BitVec.ofNat 8 lender)]) ++
    [(0x20000A, 1), (0x200012, 1), (0x200020, 1), (0x20002D, 4)]) 0x10000 0

theorem witness_Lease_offer : meets ((leaseState 0).leaseRecord ((leaseState 0).rs 1)) (fun u =>
    nth u.2.1 0 / 2 ^ 32 % 2 ^ 15 == u.1.hub.pkg && u.1.offerReason u.2.1 == 0 && u.1.hub.agist.find? (fun x => x.id == 1) == none) = true ∧
    (leaseState 0).me.sup = true ∧ (leaseState 0).me.taken = [] ∧ (leaseState 0).hub.takes = [] := by decide +kernel
theorem witness_Lease_offer_refused : let s : State := { leaseState 0 with mem := [(0x200000, 1)] }
    meets (s.leaseRecord (s.rs 1)) (fun u => nth u.2.1 0 / 2 ^ 32 % 2 ^ 15 == u.1.hub.pkg && u.1.offerReason u.2.1 != 0) = true := by
  decide +kernel
theorem witness_Lease_take : meets ((leaseState 1).leaseRecord ((leaseState 1).rs 1)) (fun u =>
    nth u.2.1 0 / 2 ^ 32 % 2 ^ 15 != u.1.hub.pkg && u.1.takeReason u.2.1 u.2.2 == 0) = true := by decide +kernel
theorem witness_Lease_take_refused : let s := leaseState 200
    meets (s.leaseRecord (s.rs 1)) (fun u => nth u.2.1 0 / 2 ^ 32 % 2 ^ 15 != u.1.hub.pkg && u.1.takeReason u.2.1 u.2.2 == 5) = true := by
  decide +kernel
/-- The record of `leaseState` with a lender, and hart 0's take of it. -/
def recWords (lender : Nat) : List Nat := [1 + lender * 2 ^ 32, 0x10000, 0x10000, 0, 1, 0x40000000000, 0, 0]
def take : Take := { hart := 0, words := recWords 1, recPlace := 0x200000, since := 0 }
/-- The take is on its way, accepted (0) or refused (4). -/
theorem witness_Lease_asks : let s : State := { leaseState 1 with hub := { (leaseState 1).hub with takes := [take] } }
    meets (s.leaseRecord (s.rs 1)) (fun u => nth u.2.1 0 / 2 ^ 32 % 2 ^ 15 != u.1.hub.pkg && u.1.asksFor u.2.1 u.2.2) = true ∧
      s.me.taken = [] := by decide +kernel
theorem witness_Lease_answers : ∀ r, r = 0 ∨ r = 4 → let s := (leaseState 1).setMe { (leaseState 1).me with taken := [(take, r)] }
    meets (s.leaseRecord (s.rs 1)) (fun u => nth u.2.1 0 / 2 ^ 32 % 2 ^ 15 != u.1.hub.pkg &&
      s.me.taken.find? (fun e => State.takesRecord e.1 u.2.1 u.2.2 && e.2 != 0) == (if r = 0 then none else some (take, r)) &&
      u.1.me.taken.find? (fun e => State.takesRecord e.1 u.2.1 u.2.2) == some (take, r)) = true := by
  rintro r (rfl | rfl) <;> decide +kernel
/-- The lender's request finds no link; and one whose link has no credit left: four takes fill its reserve, all shared buffers
are retired. -/
theorem witness_Lease_free : (leaseState 1).flowHeld .control (State.takeLender take) = false :=
  State.flowHeld_noPlane (by decide) _
theorem witness_Lease_held : let s : State := { leaseState 1 with hub := { (leaseState 1).hub with
      takes := List.replicate 4 { take with hart := 1, words := [2 ^ 32, 0, 0, 0, 9] }, links := [(0, { state := 0, retired := 72 })] } }
    s.flowHeld .control (State.takeLender take) = true ∧
      meets (s.leaseRecord (s.rs 1)) (fun u => !u.1.asksFor u.2.1 u.2.2 && u.1.takeReason u.2.1 u.2.2 == 0) = true := by
  refine ⟨?_, by decide +kernel⟩
  generalize hs : ({ leaseState 1 with hub := { (leaseState 1).hub with
      takes := List.replicate 4 { take with hart := 1, words := [2 ^ 32, 0, 0, 0, 9] }, links := [(0, { state := 0, retired := 72 })] } } : State) = s
  have hp : s.planesTo 1 = [0] := by subst hs; decide
  have hl : s.upLinks 0 = [0] := by subst hs; decide
  have hk : s.hub.pkg = 0 := by subst hs; rfl
  have ht : s.hub.takes = List.replicate 4 { take with hart := 1, words := [2 ^ 32, 0, 0, 0, 9] } := by subst hs; rfl
  have hr : (s.linkAt 0).retired = 72 := by subst hs; decide
  have hw : State.takeLender take = 1 := by decide
  have hf : s.flitsOn 0 .control = 4 := by
    have h1 : bits (nth [2 ^ 32, 0, 0, 0, 9] 0) 32 15 = 1 := by decide
    simp only [State.flitsOn, ht, List.filter_replicate, State.takeLender, h1, hk, State.flowPlane_one hp, Option.bind_some,
      State.linkOf_one hl]
    decide
  simp [hw, State.flowHeld_one hp hl, hk, State.linkCredit_full (s := s) (l := 0) (t := .control) (by rw [hf]; decide) (by omega)]
/-- The lease of the record as the hub holds it, in a state. -/
def leased (lender state : Nat) : AgistLease := State.leaseOf (recWords lender) 0x200000 0 state
theorem witness_Muster : ∀ st, st = 1 ∨ st = 2 ∨ st = 5 ∨ st = 3 ∨ st = 4 ∨ st = 6 →
    let s : State := { leaseState 0 with hub := { (leaseState 0).hub with agist := [leased 0 st] } }
    meets (s.leaseRecord (s.rs 1)) (fun u => u.1.hub.agist.find? (fun x => x.id == nth u.2.1 0 % 2 ^ 32 && x.lender == 0) == some (leased 0 st)) = true ∧
      (leased 0 st).state = st := by rintro st (rfl | rfl | rfl | rfl | rfl | rfl) <;> decide +kernel

/-- The record's words of `leaseState` offered; the same with a take that the lender has accepted, and with the lease in a state. -/
theorem record_of (s : State) (ht : s.tlbs = [{ kind := 0, unit := 0, asid := 0, page := 1, large := false, entry := 0x200077 }])
    (hc : s.coreNo = 0) (ha : s.me.asid = 0) (hs : s.me.slot = some 0)
    (hl : s.launchAt 0 = some { lnch with arenaBase := 0x10000, arenaSize := 1 }) (hp : s.hub.pkg = 0) (hi : s.inPaddock 0 = true)
    (hr : s.rs 1 = 0x10000) (hq : s.stores = [] ∧ s.atomics = [] ∧ s.nears = [] ∧ s.poison = [] ∧ s.hub.fenced = [] ∧ s.hub.moves = []) :
    RecordAt s (s.rs 1) 0x200000 := by
  rw [hr]
  exact ⟨0x20, by decide, global_of s 0x10000 64 ht hc ha hs hl hp hi (by decide) (by decide) (by decide), by decide, hq⟩
theorem witness_LeaseComplete : let s := leaseState 0
    let w := (List.range 8).map (fun i => s.readAt (0x200000 + 8 * i) 8)
    s.me.sup = true ∧ s.me.taken = [] ∧ nth w 0 / 2 ^ 32 % 2 ^ 15 = s.hub.pkg ∧ s.offerReason w = 0 ∧
      RecordAt s (s.rs 1) 0x200000 := by
  refine ⟨by decide, by decide, by decide +kernel, by decide +kernel, record_of _ rfl (by decide) rfl rfl rfl rfl (by decide) (by decide +kernel) ⟨rfl, rfl, rfl, rfl, rfl, rfl⟩⟩
theorem witness_LeaseComplete_take : let s := (leaseState 1).setMe { (leaseState 1).me with taken := [(take, 0)] }
    let w := (List.range 8).map (fun i => s.readAt (0x200000 + 8 * i) 8)
    nth w 0 / 2 ^ 32 % 2 ^ 15 ≠ s.hub.pkg ∧ s.me.taken = [(take, 0)] ∧ State.takesRecord take w 0x200000 = true ∧
      RecordAt s (s.rs 1) 0x200000 := by
  refine ⟨by decide +kernel, by decide, by decide +kernel, record_of _ rfl (by decide) rfl rfl rfl rfl (by decide) (by decide +kernel) ⟨rfl, rfl, rfl, rfl, rfl, rfl⟩⟩
theorem witness_LeaseComplete_muster : ∀ st, st = 1 ∨ st = 2 ∨ st = 5 ∨ st = 3 ∨ st = 4 ∨ st = 6 →
    let s : State := { leaseState 0 with hub := { (leaseState 0).hub with agist := [leased 0 st] } }
    let w := (List.range 8).map (fun i => s.readAt (0x200000 + 8 * i) 8)
    s.hub.agist.find? (fun x => x.id == nth w 0 % 2 ^ 32 && x.lender == nth w 0 / 2 ^ 32 % 2 ^ 15) = some (leased 0 st) ∧
      (leased 0 st).recPlace = 0x200000 ∧ RecordAt s (s.rs 1) 0x200000 ∧ (leased 0 st).state = st := by
  rintro st (rfl | rfl | rfl | rfl | rfl | rfl) <;> exact ⟨by decide +kernel, by decide, record_of _ rfl (by decide) rfl rfl rfl rfl (by decide) (by decide +kernel) ⟨rfl, rfl, rfl, rfl, rfl, rfl⟩, by decide⟩

/-- Page 1 of address space 0 mapped by tables at 0x300000, 0x310000 and 0x320000 to frame 0x20 of tier 1. -/
def tables (x1 x2 : Nat) : State :=
  let t := paged [(0x300000, 1), (0x300002, 0x31), (0x310000, 1), (0x310002, 0x32), (0x320008, 0x77), (0x32000A, 0x20)] x1 x2
  { t with tlbs := [], hub := { t.hub with asidtab := 0x400000 } }
/-- The same, with the root of address space 0. -/
def mapped (x1 x2 : Nat) : State := { tables x1 x2 with mem := (tables x1 x2).mem ++ [(0x400000, 1), (0x400002, 0x30)] }

theorem witness_Pgmig : let s := mapped 0x10000 1
    let o := s.rs 2
    (1 ≤ o % 8 ∧ o % 8 ≤ 3 ∧ o / 2 ^ 4 % 2 ^ 12 = 0 ∧ o < 2 ^ 31 ∧ s.inPaddock (o / 2 ^ 16 % 2 ^ 15) = true) ∧ s.rs 1 < 2 ^ 55 ∧
      meets (s.walk (s.coreNo / 384) s.me.asid (s.rs 1)) (fun r => match r.2 with
        | some (e, at_, large) => !large && bits e 9 2 == 0 && !bit e 11 && bits e 6 3 == 1 && !r.1.moving at_ &&
            decide (r.1.hub.moves.length < 8) && (match r.1.pageDest o (bits e 16 44) with
              | some (_, _, none) => true
              | _ => false)
        | none => false) = true := by decide +kernel
theorem witness_Pgmig_refused : ¬(1 ≤ (sup 0 0).rs 2 % 8) ∧ 2 ^ 55 ≤ (sup (2 ^ 55) 1).rs 1 ∧
    meets ((mapped 0x20000 1).walk 0 0 0x20000) (fun r => r.2 == none) = true ∧
    meets ((mapped 0x10000 1).walk 0 0 0x10000) (fun r => match r.2 with
      | some (_, at_, _) => decide (8 ≤ (List.replicate 8 at_).length)
      | none => false) = true := by decide +kernel

/-- The same, with the table pointers of levels 3 and 2 in the walk cache of die 0. -/
def cachedTables (x1 x2 : Nat) : State :=
  let walk := fun (level page entry : Nat) => ({ kind := 2, unit := 0, asid := 0, page := page, large := false, entry := entry, level := level } : Tlb)
  { mapped x1 x2 with tlbs := [walk 3 0 0x310001, walk 2 0 0x320001] }
theorem mapped_page : MappedBy (cachedTables 0x10000 1) 0 0 0x10000 0x320008 0x200077 := by
  let walk := fun (level page entry : Nat) => ({ kind := 2, unit := 0, asid := 0, page := page, large := false, entry := entry, level := level } : Tlb)
  refine ⟨by decide +kernel, by decide +kernel, by decide +kernel, ⟨walk 3 0 0x310001, walk 2 0 0x320001, by decide +kernel, by decide +kernel,
    by decide +kernel, by decide +kernel⟩, ?_⟩
  decide +kernel
theorem witness_PgmigComplete : let s := cachedTables 0x10000 1
    let o := s.rs 2
    s.me.sup = true ∧ s.inPaddock s.hub.pkg = true ∧ s.rs 1 < 2 ^ 55 ∧ s.coreNo / 384 = 0 ∧ s.me.asid = 0 ∧ bit 0x200077 11 = false ∧
      (∀ m ∈ s.hub.moves, m.leafAddr ≠ 0x320008) ∧ s.hub.moves.length < 8 ∧ (o % 8 = 1 ∨ o % 8 = 3) ∧ o / 2 ^ 4 % 2 ^ 12 = 0 ∧
      o / 2 ^ 16 = s.hub.pkg ∧ s.hub.usedFrames.length < 2 ^ 23 := by decide +kernel

/-! ### Steps without an encoding: the core and its cluster -/

/-- A state with the operands of an event. -/
def evd (s : State) (e : EvArgs) : State := { s with ev := e }
/-- A state with a hub. -/
def hubbed (h : Hub) : State := { State.reset with hub := h }

/-- A strand with a bundle in its fetch buffer. -/
def ready (age cls : Nat) : Hart := { occ := true, pc := 0x1000, age := age, cls := cls, fetch := [⟨0x1000, 0, 0, none⟩] }
/-- Strands 0 and 1 of core 0 with their ages and classes. -/
def twoReady (a b c d : Nat) : State := (State.reset.setHart 0 (ready a c)).setHart 1 (ready b d)

/-- Ages below and at 192; equal ages and equal classes; and no strand at all. -/
theorem witness_Issue : ∀ s, s = twoReady 191 192 7 0 ∨ s = twoReady 192 192 0 0 ∨ s = twoReady 0 5 0 7 ∨ s = twoReady 3 3 2 2 →
    s.issuing = false ∧ s.ev.strand ≠ 4 ∧ (∃ j, (decide (j < 4) && s.canIssue (8 * s.ev.core + j) && !s.ev.list.contains j) = true) ∧
      (∀ j, j < 4 → (s.hartAt (8 * s.ev.core + j)).age < 200000 ∧ (s.hartAt (8 * s.ev.core + j)).cls < 8) := by
  rintro s (rfl | rfl | rfl | rfl) <;> exact ⟨by decide, by decide, ⟨0, by decide⟩, by decide⟩
theorem witness_Issue_aged : (∃ i, (twoReady 191 192 7 0).canIssue i = true ∧ 192 ≤ ((twoReady 191 192 7 0).hartAt i).age) ∧
    (twoReady 0 5 0 7).canIssue 0 = true ∧ ((twoReady 0 5 0 7).hartAt 0).age < 192 := ⟨⟨1, by decide⟩, by decide⟩
theorem witness_Issue_none : State.reset.issuing = false ∧ ∀ j, (decide (j < 4) && State.reset.canIssue (8 * State.reset.ev.core + j) &&
    !State.reset.ev.list.contains j) = false := ⟨rfl, fun j => by simp only [State.canIssue]; rw [show State.reset.hartAt (8 * State.reset.ev.core + j) = {} from rfl]; simp⟩
theorem witness_Issue_drover : let s := evd (State.reset.setHart 4 { occ := true }) { strand := 4 }
    s.issuing = false ∧ s.ev.strand = 4 ∧ (s.hartAt (8 * s.ev.core + 4)).occ = true ∧ (s.hartAt (8 * s.ev.core + 4)).parked = false ∧
      s.flockIssues (8 * s.ev.core + 4) = true ∧ s.interlocked (8 * s.ev.core + 4) = false ∧ s.gated = false ∧
      (s.hartAt (8 * s.ev.core + 4)).halted = false ∧ (s.coreAt s.ev.core).mailWait = none ∧ (s.coreAt s.ev.core).mailbox = none := by decide
/-- An odd cycle of a package whose issue is gated; and a strand at `sub s3, s4, s5` whose s4 comes in the next cycle. -/
theorem witness_Issue_gated : ({ hubbed { gating := true } with cycle := 1 } : State).hub.gating = true ∧
    ({ hubbed { gating := true } with cycle := 1 } : State).cycle % 2 = 1 := by decide
theorem witness_Issue_late : let e : Fetched := { addr := 0x1000, w0 := 0x802520E0, w1 := 0 }
    let s := State.reset.setHart 0 { ready 0 0 with fetch := [e], late := [(4, 1)] }
    0 % 8 < 4 ∧ (s.hartAt 0).fetch.find? (fun e => e.addr == (s.hartAt 0).pc) = some e ∧ bit e.w0 31 = true ∧ (s.hartAt 0).word = 0 ∧
      decode (payload e.w0) = .ok (.sub 3 4 5) ∧ 4 ∈ sources false (.sub 3 4 5) ∧ s.cycle < Store.get 0 (s.hartAt 0).late 4 :=
  ⟨by decide, by decide, by decide, by decide, rfl, by decide, by decide⟩

/-- Two strands of a resident flock of the launch in slot 0, with records of the harts. -/
def flocked (g h : Hart) : State :=
  let f : Flock := { num := 0, status := 1, strands := [0, 1], pool := [0, 1] }
  let t := (State.reset.setHart 0 { g with slot := some 0 }).setHart 1 { h with slot := some 0 }
  t.setLaunch 0 (some { lnch with flocks := [f], stage := .run })

theorem witness_Strand_aged : (twoReady 191 0 0 0).canIssue 0 = true ∧ ((twoReady 191 0 0 0).hartAt 0).age = 191 := by decide
theorem witness_Strand_fetch : let s := (flocked { occ := true, pc := 0x1020 } {}).setCluster 0 { icache := [(0, 64, [1, 2])] }
    let waits := fun (j : Nat) => j / 128 = 0 ∧ j % 8 < 4 ∧ (s.hartAt j).occ = true ∧ (s.hartAt j).halted = false ∧
      ∀ e ∈ (s.hartAt j).fetch, e.addr ≠ (s.hartAt j).pc
    (s.clusterAt 0).fetchRr < 16 ∧ waits 0 ∧ (s.clusterAt 0).icache.find? (fun l =>
      l.1 == (s.hartAt 0).asid && l.2.1 == (s.hartAt 0).pc / 64) = some ((s.hartAt 0).asid, (s.hartAt 0).pc / 64, [1, 2]) ∧
      (∀ j, waits j → j = 0) ∧ s.mayFetch 0 = false := by
  refine ⟨by decide, by decide, by decide, ?_, by decide +kernel⟩
  rintro j ⟨h1, _, h2, _⟩
  have h : ∀ j, j < 128 → (((flocked { occ := true, pc := 0x1020 } {}).setCluster 0 { icache := [(0, 64, [1, 2])] }).hartAt j).occ = true → j = 0 := by
    decide
  exact h j (by omega) h2
theorem witness_Strand_may : let l : Launch := { lnch with leases := [{ base := 0, size := 0x10000, maxTier := 3, r := true, w := false, x := true }] }
    let s := (flocked { occ := true, pc := 0x1020 } {}).setLaunch 0 (some l)
    s.mayFetch 0 = true := by decide +kernel
theorem witness_Strand_fill : let s := evd { State.reset with tlbs := [{ kind := 0, unit := 0, asid := 0, page := 1, large := false, entry := 0x100079 }] } { addr := 0x10040 }
    s.ev.ecc = 0 ∧ meets (s.readLine s.ev.core s.ev.val s.ev.addr) (fun r => r.2.length == 64) = true := by decide +kernel
/-- The same, with a strand that waits for the line of a page that its cluster's fetches may read and run. -/
theorem witness_Strand_fill_page : let e : Tlb := { kind := 0, unit := 0, asid := 0, page := 1, large := false, entry := 0x20007F }
    let s := evd { flocked { occ := true, pc := 0x10040 } {} with tlbs := [e] } { addr := 0x10040 }
    s.fetchers s.ev.core s.ev.val s.ev.addr 6 ≠ [] ∧ s.QuietMemory ∧ s.PageAt (16 * s.ev.core) s.ev.val (s.ev.addr / 64 * 64) 0x20 ∧
      s.tlbs.find? (fun t => t.kind == 0 && t.unit == 16 * s.ev.core && t.covers s.ev.val (s.ev.addr / 64 * 64)) = some e ∧
      bit e.entry 3 = true ∧ s.ev.addr < 2 ^ 55 :=
  ⟨by decide +kernel, ⟨rfl, rfl, rfl, rfl, rfl, rfl, rfl, rfl⟩, ⟨⟨{ kind := 0, unit := 0, asid := 0, page := 1, large := false, entry := 0x20007F },
      by decide +kernel, by decide, by decide, by decide, by decide, by decide, by decide⟩, by decide, by decide, by decide⟩, by decide +kernel, by decide, by decide⟩
theorem witness_Strand_herd : let h : Hart := { occ := true, herd := some 0 }
    let s : State := { flocked h h with cycle := 64 }
    (s.hartAt 0).herd = some 0 ∧ 0 + 16 * s.herdCount 0 ≤ s.cycle ∧
      (∀ j ∈ s.flockMates 0, (s.hartAt j).herd ≠ none ∧ (s.hartAt j).pc = (s.hartAt 0).pc ∧ (s.hartAt j).asid = (s.hartAt 0).asid) ∧
      s.flockMates 0 = [0, 1] := by decide
/-- A long result. -/
def longRes (returned : Bool) : LongRes := { id := 0, waddr := 0, returned := returned }
theorem witness_Strand_long : let s := withMe { occ := true, parked := true, longs := [longRes true, longRes false] }
    let t := withMe { occ := true, longs := [longRes false, longRes false] }
    (s.hartAt 0).longs = [longRes true] ++ longRes false :: [] ∧ (longRes false).queued = false ∧ (longRes false).returned = false ∧
      (s.hartAt 0).parked = true ∧ (∀ x ∈ [longRes true] ++ [], x.returned = true) ∧
      (t.hartAt 0).longs = [] ++ longRes false :: [longRes false] ∧ (t.hartAt 0).parked = false ∧
      (∃ x ∈ [] ++ [longRes false], x.returned = false) := by decide

/-- A load of the return buffer that read a page of package 1. -/
theorem witness_Strand_lost : let r : LongRes := { id := 0, waddr := 0, src := [0x10008] }
    let e : Tlb := { kind := 0, unit := 0, asid := 0, page := 1, large := false, entry := (2 ^ 29 + 0x20) * 65536 + 0xB7 }
    let s : State := { evd (withMe { occ := true, longs := [r] }) { aux := 4 } with tlbs := [e] }
    (s.hartAt 0).longs = [] ++ r :: [] ∧ s.ev.aux = 4 ∧ (s.hartAt 0).parked = false ∧ r.src[s.ev.val]? = some 0x10008 ∧
      (s.accessPlaces 0 0x10008)[s.ev.addr]? = some ((2 ^ 29 + 0x20) * 65536 + 8) ∧ s.remote ((2 ^ 29 + 0x20) * 65536 + 8) = true := by decide +kernel

/-- Three requests of a cycle of local memory: those of two strands, to banks 0 and 1, and one of the drover to bank 3. -/
theorem witness_Ports : let s := evd (State.reset.setCore 0 { portBusy := [[4]] }) { list := [0, 1, 1, 0, 0, 2, 1, 8, 2, 0, 1, 24] }
    let l := localReqs s.ev.list.length 0 s.ev.list
    s.ev.aux = 0 ∧ l.map (·.idx) = [0, 1, 2] ∧ l.map (·.cycles) = [[1], [2], [8]] ∧ (localGrants (s.coreAt 0).portBusy l).got = [1, 0, 2] := by
  decide +kernel
theorem witness_Ports_one : (evd State.reset { list := [0, 5, 1, 0x7FFF8] }).ev.list = [0, 5, 1, 0x7FFF8] ∧ (State.reset.coreAt 0).portBusy = [] ∧
    (State.reset.clusterAt 0).portBusy = [] ∧ (16 : Nat) ≤ 16 := by decide

/-- A message to core 0 with tag 0, whose entry starts handlers at 0x2000. -/
def msg0 : Msg := { ts := 5, hdr := 0x400 * 2 ^ 32, payload := [1, 2, 3, 4, 5, 6], dest := 0, asid := 0, slot := 0 }
def handled : State :=
  let s := flocked {} {}
  let l : Launch := { lnch with flocks := [{ num := 0, status := 1, strands := [0, 1], pool := [0, 1] }], stage := .run, himg := [1] }
  let c : Core := { tableOwner := some 0, tagen := 1, inbox := [{ msg := msg0, arrival := 0, general := true, since := some 0 }] }
  let t : State := { s with mem := [(placeLocal 0 0x6001, 0x20), (placeLocal 0 0x6008, 5)], cycle := 65536 }
  (t.setLaunch 0 (some l)).setCore 0 c

theorem witness_Work_message : let s := handled
    let r := s.dropUnreachable 0
    r.handlerStrand 0 = true ∧ (r.chooseMessage 0).isSome = true ∧ (s.coreAt 0).inbox.length = 1 ∧ 0 + 65536 ≤ s.cycle := by decide +kernel
/-- A record of slot 0 that starts at 0x1000, at a place. -/
def record (p : Nat) : List Host.Cell := [(p + 1, 0x10)]
/-- Idle strands of core 0, a record in its core's deque, in its cluster's deque, in its ready queue, and in core 1's deque. -/
theorem witness_Work_deque : let s : State := { (flocked {} {}).setCore 0 { dqCount := 1 } with mem := record (dequePlace 0 0) }
    s.dropUnreachable 0 = s ∧ s.deliver 0 = none ∧ (s.dequeFor 0 0).getLast? = some 0 ∧ meets (s.takeDeque 0 0 0) (fun _ => true) = true := by decide +kernel
theorem witness_Work_cluster : let s : State := { (flocked {} {}).setCluster 0 { cdCount := 1 } with mem := record (clusterDequePlace 0 0) }
    s.dropUnreachable 0 = s ∧ s.deliver 0 = none ∧ (s.dequeFor 0 0).getLast? = none ∧ s.readyFor 0 = none ∧ (s.clusterDequeFor 0 0).head? = some 0 ∧
      meets (s.takeClusterDeque 0 0 0) (fun _ => true) = true := by decide +kernel
theorem witness_Work_ready : let s := (flocked {} {}).setCluster 0 { ready := [(poolAddr 0 0, 0)] }
    s.dropUnreachable 0 = s ∧ s.deliver 0 = none ∧ (s.dequeFor 0 0).getLast? = none ∧ s.readyFor 0 = some (poolAddr 0 0, 0) ∧
      meets (s.takeReady 0 (poolAddr 0 0, 0)) (fun _ => true) = true := by decide +kernel
theorem witness_Work_steal : let s : State := { (flocked {} {}).setCore 1 { dqCount := 1 } with mem := record (dequePlace 1 0) }
    s.maySteal s.ev.core = true ∧ s.stealFrom s.ev.core = some (1, 0, 0) ∧ meets (s.takeDeque 1 0 0) (fun _ => true) = true := by decide +kernel
theorem witness_Work_pool : let s := flocked { occ := true, waitSlot := true, susp := some .yield_ } {}
    (s.hartAt 0).susp = some .yield_ ∧ (s.hartAt 0).waitSlot = true ∧
      (let v : State := ({ s with hart := 0 } : State).setHart 0 { s.hartAt 0 with waitSlot := false, susp := none }
       meets (v.runSusp (s.hartAt 0).npc .yield_) (fun u => decide ((u.hartAt 0).flow ≠ .wait))) = true := by decide +kernel
/-- Idle strands of core 0, of a flock of cluster 0 whose pool slots 0 and 1 are free, with more in place. -/
def picking (m : List Host.Cell) (g : Hart) : State :=
  let s := (flocked g {}).setCluster 0 { pool := [(0, 0, 0), (1, 0, 0)] }
  { s with mem := m }
theorem witness_Picked : let s := picking [] {}
    let f : Flock := { num := 0, status := 1, strands := [0, 1], pool := [0, 1] }
    s.flockOf 0 = some f ∧ f.pool.find? (fun i => !(s.clusterAt f.cluster).poolBusy.contains i) = some 0 ∧
      (∃ e ∈ (s.clusterAt f.cluster).pool, e.1 = 0) ∧ (s.coreAt 0).inbox = [] ∧ s.ev.strand < 4 ∧ s.ev.core < 1536 :=
  ⟨by decide +kernel, by decide +kernel, ⟨(0, 0, 0), by decide, rfl⟩, by decide, by decide, by decide⟩
theorem witness_Picked_quiet : ∀ m g, (picking m g).QuietMemory := fun _ _ => ⟨rfl, rfl, rfl, rfl, rfl, rfl, rfl, rfl⟩
theorem witness_Picked_own : let s := (picking (record (dequePlace 0 0)) {}).setCore 0 { dqCount := 1 }
    (s.dequeFor 0 0).getLast? = some 0 ∧ RecordOk (recordWords s (dequePlace 0 ((s.coreAt 0).dqHead + 0))) := by
  unfold RecordOk; decide +kernel
theorem witness_Picked_ready : let s := picking (record (poolPlace 0 0)) {}
    let t := s.setCluster 0 { s.clusterAt 0 with ready := [(poolAddr 0 0, 0)] }
    t.dequeFor 0 0 = [] ∧ t.readyFor 0 = some (poolAddr 0 0, (t.hartAt 0).slot.getD 0) ∧
      (t.clusterAt 0).ready = (poolAddr 0 0, (t.hartAt 0).slot.getD 0) :: [] ∧ RecordOk (recordWords t (poolPlace 0 0)) ∧
      some (nth (recordWords t (poolPlace 0 0)) 7 / 2 ^ 16) = (t.hartAt 0).slot := by
  unfold RecordOk; decide +kernel
theorem witness_Picked_cluster : let s := picking (record (clusterDequePlace 0 0)) {}
    let t := s.setCluster 0 { s.clusterAt 0 with cdCount := 1 }
    t.dequeFor 0 0 = [] ∧ t.readyFor 0 = none ∧ (t.clusterDequeFor 0 0).head? = some 0 ∧
      RecordOk (recordWords t (clusterDequePlace 0 ((t.clusterAt 0).cdHead + 0))) := by
  unfold RecordOk; decide +kernel
theorem witness_Picked_steal : let s := (picking (record (dequePlace 1 0)) {}).setCore 1 { dqCount := 1 }
    s.maySteal 0 = true ∧ s.stealFrom 0 = some (1, 0, 0) ∧ RecordOk (recordWords s (dequePlace 1 ((s.coreAt 1).dqHead + 0))) := by
  unfold RecordOk; decide +kernel
theorem witness_Picked_yield : let s := picking [] { occ := true, waitSlot := true, susp := some .yield_, npc := 0x1008 }
    (s.hartAt 0).susp = some .yield_ ∧ (s.hartAt 0).waitSlot = true ∧ (s.hartAt 0).record = none := by decide

/-! ### Steps without an encoding: the drover, the homes of accesses, the matrix unit -/

/-- A move of one row of 64 bytes from local 0xB000 to local 0xC000. -/
def tileMove (rbytes mode row : Nat) (active plane : Bool) : Move :=
  { moved 1 with kind := .tile plane, desc := [0xF00000000000B000, 0xF00000000000C000, 1 + rbytes * 2 ^ 16 + 2 ^ 38, 64 + mode * 2 ^ 32],
                 active := active, row := row, launch := some 0 }
/-- A gather of one block, its index in a register. -/
def gatherMove : Move :=
  { moved 1 with kind := .gather, desc := [0x10000, 0xF00000000000C000, 64 + 2 ^ 32 + 2 ^ 43, 1, 1, 0, 0, 0] }
/-- Core 0 with a move of its own, of a flock of hart 0. -/
def moving (m : Move) : State :=
  let l : Launch := { lnch with flocks := [{ num := 0, status := 1, strands := [0, 1], pool := [0, 1] }], localBytes := 0x10000 }
  ((flocked {} {}).setCore 0 { moves := [m] }).setLaunch 0 (some l)

/-- R120: row 0 of a move down by one row writes over the source of row 1; the bytes before it stay known, unless ORD = 1,
and which of the two values row 1 receives is one free value for each byte that has two. -/
theorem test_unordered_rows : let m : Move := { tileMove 64 0 0 true false with
        desc := [0xF00000000000B000, 0xF00000000000B040, 2 + 64 * 2 ^ 16 + 2 ^ 38, 64] }
    let o : Move := { m with desc := [0xF00000000000B000, 0xF00000000000B040, 2 + 64 * 2 ^ 16 + 2 ^ 38, 64 + 2 ^ 34] }
    let s := (moving m).setByte (placeLocal 0 0xB040) 7
    (s.overwritten m).take 2 = [(placeLocal 0 0xB040, 7), (placeLocal 0 0xB041, 0)] ∧ s.overwritten o = [] ∧
      meets (s.unorderedBytes { m with row := 1, old := [(placeLocal 0 0xB040, 9)] } 0xF00000000000B040 [7, 8]) (fun r =>
        r.1.fresh == 1 && r.2.drop 1 == [8]) = true := by decide +kernel

theorem witness_Tile_start : (∀ p, (moving (tileMove 64 (if p then 2 else 0) 0 false p)).nextQueued 0 = some (tileMove 64 (if p then 2 else 0) 0 false p) ∧
      (tileMove 64 (if p then 2 else 0) 0 false p).tileOk p = true ∧ (tileMove 0 0 0 false p).tileOk p = false) ∧
    (moving gatherMove).nextQueued 0 = some gatherMove ∧ gatherMove.gatherOk ((moving gatherMove).routeOk gatherMove.route) = true ∧
    gatherMove.ivm = true := by decide +kernel
theorem witness_Tile_row : let m := tileMove 64 0 0 true false
    let s := moving m
    let v := s.setCore 0 { s.coreAt 0 with rrMove := m.seq }
    (s.coreAt 0).moves[s.ev.idx]? = some m ∧ MovesRows m false ∧ s.ev.ecc = 0 ∧ AfterRow s 0 m ∧ (s.coreAt 0).moves = [] ++ m :: [] ∧
      meets (v.tileRow 0 m) (fun r => r.2.isNone) = true ∧ (tileMove 64 0 1 true false).rows ≤ (tileMove 64 0 1 true false).row := by
  unfold MovesRows AfterRow; decide +kernel
/-- A row of a plane move whose source holds no container: its check fails with 0x0B. -/
theorem witness_Tile_check : let m := tileMove 48 2 0 true true
    MovesRows m true ∧ AfterRow (moving m) 0 m ∧ (moving m).ev.ecc = 0 ∧
      meets (((moving m).setCore 0 { (moving m).coreAt 0 with rrMove := m.seq }).tileRow 0 m) (fun r => r.2 == some 0x0B) = true := by
  unfold MovesRows AfterRow; decide +kernel
theorem witness_Tile_fault : let m : Move := { tileMove 64 0 0 true false with desc := [0, 0xF00000000000C000, 1 + 64 * 2 ^ 16, 0] }
    m.row < m.rows ∧ trapsWith (((moving m).setCore 0 { (moving m).coreAt 0 with rrMove := m.seq }).tileRow 0 m) 0x05 0 = true := by decide +kernel
/-- Two active moves in turn: the one after the move that went last, and after the last of them the first; and past the wrap
of the numbers. -/
theorem witness_Tile_turn : let m := fun (n : Nat) => { tileMove 64 0 0 true false with seq := n }
    let s := fun (a b r : Nat) => (moving (m a)).setCore 0 { moves := [m a, m b], rrMove := r }
    NextInTurn (s 1 2 1) 0 (m 2) ∧ NextInTurn (s 1 2 2) 0 (m 1) ∧ NextInTurn (s (2 ^ 32 - 1) 1 (2 ^ 32 - 1)) 0 (m 1) := by
  refine ⟨⟨[{ tileMove 64 0 0 true false with seq := 1 }], [], by decide +kernel, Or.inl ⟨by unfold AfterRow; decide, ?_⟩⟩,
    ⟨[], [{ tileMove 64 0 0 true false with seq := 2 }], by decide +kernel, Or.inr ⟨by simp, by unfold AfterRow; decide, ?_⟩⟩,
    ⟨[{ tileMove 64 0 0 true false with seq := 2 ^ 32 - 1 }], [], by decide +kernel, Or.inl ⟨by unfold AfterRow; decide, ?_⟩⟩⟩ <;>
  · intro x hx
    simp only [List.mem_singleton] at hx
    subst hx
    exact Or.inr (by unfold AfterRow; decide)
/-- A move of one row of 64 bytes from 0x10000 to 0x10040, in the page that the core's micro-TLB holds. -/
def globalMove : Move := { moved 1 with kind := .tile false, desc := [0x10000, 0x10040, 1 + 64 * 2 ^ 16, 64], active := true, launch := some 0 }
theorem witness_Tile_bytes : let s := (paged [] 0 0).setCore 0 { moves := [globalMove] }
    let m := globalMove
    s.QuietMemory ∧ s.ev.ecc = 0 ∧ (s.coreAt s.ev.core).moves = [m] ∧ MovesRows m false ∧ m.mode = 0 ∧ m.old = [] ∧ 1 ≤ m.rbytes ∧
      0x10000 = (m.src + m.row * m.sstride) % 2 ^ 64 ∧ 0x10040 = (m.dst + m.dstride * m.row) % 2 ^ 64 ∧
      MayMove s m 0x10000 m.rbytes 0x20 ∧ MayMove s m 0x10040 m.rbytes 0x20 := by
  have h := fun (va : Nat) h1 h2 h3 => global_of ((paged [] 0 0).setCore 0 { moves := [globalMove] }) va 64 rfl (by decide) rfl rfl rfl rfl
    (by decide) h1 h2 h3
  have g1 := h 0x10000 (by decide) (by decide) (by decide)
  have g2 := h 0x10040 (by decide) (by decide) (by decide)
  refine ⟨⟨rfl, rfl, rfl, rfl, rfl, rfl, rfl, rfl⟩, rfl, by decide, ⟨rfl, rfl, rfl, by decide⟩, by decide, rfl, by decide, by decide, by decide, ?_, ?_⟩
  · obtain ⟨k, l, e, h1, h2, h3, h4⟩ := g1.2.2.2
    exact ⟨g1.1, g1.2.1, g1.2.2.1, k, l, e, h1, h2, h3, h4⟩
  · obtain ⟨k, l, e, h1, h2, h3, h4⟩ := g2.2.2.2
    exact ⟨g2.1, g2.2.1, g2.2.2.1, k, l, e, h1, h2, h3, h4⟩
theorem witness_Tile_pageIn : let m : Move := { moved 1 with kind := .pageIn 0x10000 }
    let s := (cachedTables 0x10000 1).setCore 0 { moves := [m] }
    s.nextQueued 0 = some m ∧ m.kind = .pageIn 0x10000 ∧ m.asid = 0 ∧ (∀ x ∈ s.hub.moves, x.leafAddr ≠ 0x320008) := by decide +kernel
theorem witness_Stream : let x : Stream := { state := 1, src := 0xF00000000000A000, rows := 2, rbytes := 64, stride := 64, user := false }
    let s := (flocked {} {}).setHart 0 { ((flocked {} {}).hartAt 0) with q := [(0, x)] }
    s.ev.ecc = 0 ∧ x.state = 1 ∧ x.fetched < x.rows ∧ x.elems.length < 8 ∧ (∀ e ∈ x.elems, e.2 = none) ∧
      meets (s.readBytes { s.whoHart 0 with asid := x.asid, user := x.user } .read ((x.src + x.fetched * x.stride) % 2 ^ 64) x.rbytes 1) (fun _ => true) = true := by
  decide +kernel
/-- The next element of a stream of local memory. -/
theorem witness_Stream_local : let x : Stream := { state := 1, src := 0xF00000000000A000, rows := 2, rbytes := 64, stride := 64, user := false }
    let s := (flocked {} {}).setHart 0 { ((flocked {} {}).hartAt 0) with q := [(0, x)] }
    s.ev.ecc = 0 ∧ s.ev.strand < 4 ∧ Store.get {} (s.hartAt 0).q s.ev.idx = x ∧ x.state = 1 ∧ x.fetched < x.rows ∧ x.elems.length < 8 ∧ x.user = false ∧
      s.poison = [] ∧ s.stores = [] ∧ s.atomics = [] ∧ (x.src + x.fetched * x.stride) % 2 ^ 64 = ownLocal 0xA000 ∧ 0xA000 + x.rbytes ≤ 2 ^ 19 := by
  decide +kernel
theorem witness_Program : let s := State.reset.setHart 4 { occ := true }
    let t := s.setCore 0 { moves := [{ moved 1 with hart := 4 }] }
    (s.hartAt (8 * s.ev.core + 4)).occ = true ∧ (s.coreAt s.ev.core).joins = [] ∧ s.stores = [] ∧ s.atomics = [] ∧ s.nears = [] ∧
      s.cores = [] ∧ (s.hartAt 4).slot = none ∧ (t.hartAt 4).slot = none ∧ (∃ y ∈ (t.coreAt t.ev.core).moves, y.hart = 4 ∧ y.since ≤ t.cycle) ∧
      ∃ e ∈ t.cores, e.1 = t.ev.core := by
  refine ⟨by decide, by decide, rfl, rfl, rfl, rfl, by decide, by decide, ⟨{ moved 1 with hart := 4 }, by decide, by decide⟩, ?_⟩
  exact ⟨(0, { moves := [{ moved 1 with hart := 4 }] }), by decide, by decide⟩
theorem witness_Home : let t : PendingAtomic := { hart := 0, long := some 0, op := 0, size := 8, place := placeLocal 0 0xA000, va := 0, operands := [1], kind := 0 }
    let n : PendingNear := { hart := 0, long := 0, op := 2, addr := 0, arg := [], argPlace := 0, d := 0, asid := 0, user := false, slot := none, flock := 0 }
    let s : State := { State.reset with atomics := [t] }
    let u : State := { State.reset with nears := [n] }
    s.poison = [] ∧ s.hub.agist = [] ∧ s.hub.fenced = [] ∧ s.hub.ckdctl = 0 ∧ s.atomics = t :: [] ∧ s.ev.idx = 0 ∧ s.ev.aux = 0 ∧
      s.ev.ecc = 0 ∧ isScratch t.place = true ∧ s.stores = [] ∧ t.release = none ∧ t.long = some 0 ∧ u.nears = n :: [] ∧ u.atomics = [] ∧
      meets (({ u with nears := [] } : State).runNear n) (fun _ => true) = true := by decide +kernel
theorem witness_Home_store : let s : State := { State.reset with stores := [sent 1, sent 0] }
    s.stores = [sent 1] ++ sent 0 :: [] ∧ (∀ x ∈ [sent 1], x.hart ≠ (sent 0).hart ∨ x.meets (sent 0) = false) ∧ (sent 0).slot = none ∧
      ({ sent 0 with owner := .hart 0 } : PendingStore).owner = .hart (sent 0).hart ∧ (sent 0).data ≠ [] ∧ (sent 0).skip = [] ∧
      (sent 0).release = none ∧ (sent 0).replica = false ∧ (∀ x ∈ [sent 1] ++ [], x.release = none) ∧ s.atomics = [] ∧
      pkgOfPlace (sent 0).place = s.hub.pkg ∧ localTier (localOfPlace (sent 0).place) = 1 ∧ bit (s.hartAt 0).tstatus 4 = false := by decide
/-- A store to a hole of the CXL range. -/
theorem witness_Home_hole : let t : PendingStore := { sent 0 with owner := .hart 0, place := 0x100000000000 }
    let s : State := { State.reset with stores := [t] }
    s.stores = [] ++ t :: [] ∧ s.ev.idx = 0 ∧ s.atomics = [] ∧ t.slot = none ∧ t.owner = .hart t.hart ∧
      bit (s.hartAt t.hart).tstatus 4 = false ∧ t.release = none ∧ isScratch t.place = false ∧ pkgOfPlace t.place = s.hub.pkg ∧
      s.hub.cxlHole (localOfPlace t.place) = true := by decide
theorem witness_Matrix : let p : Product := { hart := 0, long := 0, fa := 1, fb := 1, a := 0xF00000000000A000, b := 0xF00000000000A000, k := 0, tile := 0, dual := false }
    let s := tileState [p]
    (s.coreAt s.ev.core).products = p :: [] ∧ p.consumed = false ∧ s.ev.val = 0 ∧ s.ev.list = [] ∧ s.ev.ecc = 0 ∧ s.poison = [] ∧
      s.stores = [] ∧ p.dual = false ∧
      ((tileState [{ p with consumed := true }]).coreAt 0).products = { p with consumed := true } :: [] := by
  refine ⟨rfl, rfl, rfl, rfl, rfl, rfl, rfl, rfl, rfl⟩

/-! ### Steps without an encoding: page engines, agistment, flushes -/

/-- The move of page 1 from frame 0x20 to frame 0x21, its leaf the one in the tables of `mapped`. -/
def pageMove (stage : Nat) (copied : Bool) : PageMove :=
  { asid := 0, va := 0x10000, leafAddr := 0x320008, leaf := 0x200077, src := 0x200000, dst := 0x210000, dstTier := 1, stage := stage, copied := copied }
/-- The tables with the move under way. -/
def pageState (m : PageMove) (e : EvArgs) : State :=
  let s := mapped 0 0
  { s with ev := e, hub := { s.hub with moves := [m] } }

theorem witness_Walk : let s := mapped 0x10000 0
    meets (s.walkFor s.ev.core s.ev.val 0x10000 s.ev.ok) (fun _ => true) = true ∧
      meets (s.walk (s.ev.core / 384) s.ev.val 0x10000) (fun r => r.1 == { s with tlbs := r.1.tlbs } && (match r.2 with
        | some (e, _, _) => bit e 4
        | none => false)) = true ∧
      (let t : State := { State.reset with cycle := 1100000 }
       t.hub.epochAt + 1100000 ≤ t.cycle ∧ bit t.hub.migctl.toNat 0 = false) := by decide +kernel
/-- A walk by the tables that the walk cache points to; one under way that found no leaf; a walk that stays in flight. -/
theorem witness_Walk_mapped : let s := evd (cachedTables 0x10000 1) { addr := 0x10000, ok := false }
    s.walks = [] ∧ s.walkQueue = [] ∧ s.ev.aux = 0 ∧ s.ev.ok = false ∧ bit 0x200077 4 = true ∧ s.ev.core / 384 = 0 ∧
      (let w : Walk := { die := 0, asid := 0, page := 1, core := 0, leaf := none }
       let t : State := { evd State.reset { aux := 2 } with walks := [w] }
       t.walks[t.ev.idx]? = some w ∧ w.leaf = none ∧ t.ev.aux = 2) := by decide
theorem witness_PageMove_copy : let m := pageMove 0 false
    let s := pageState m {}
    s.hub.moves[s.ev.idx]? = some m ∧ m.stage = 0 ∧ m.copied = false ∧ s.ev.ok = true ∧ s.ev.list = [] ∧ s.hub.ckdctl = 0 ∧
      m.src / 65536 ≠ m.dst / 65536 ∧ (pageState m { ok := false }).ev.ok = false ∧ (pageState m { list := [3] }).ev.list = [3] ∧ m.force = false ∧
      s.homeLost m.src = false ∧ (pageState { m with src := 0x100000000000 } {}).homeLost 0x100000000000 = true := by
  decide
theorem witness_PageMove_canonical : (pageState (pageMove 0 false) {}).MemCanonical := by unfold State.MemCanonical; decide
theorem witness_PageMove_drain : let m := pageMove 0 true
    let s := pageState m {}
    m.stage = 0 ∧ m.copied = true ∧ s.stores = [] ∧ s.atomics = [] ∧ m.logged = [] ∧ (∀ x ∈ s.hub.moves, x.leafAddr = m.leafAddr → x = m) := by decide
theorem witness_PageMove_switch : let m := pageMove 1 true
    let s := pageState m {}
    m.stage = 1 ∧ s.stores = [] ∧ s.atomics = [] ∧ s.nears = [] ∧ setBits (s.readAt m.leafAddr 8) 4 2 0 = setBits m.leaf 4 2 0 ∧
      s.hub.ckdctl = 0 ∧ s.hub.agist = [] ∧ s.poison = [] ∧
      (let n : PageMove := { m with leaf := 0x200877 }
       setBits ((pageState n {}).readAt n.leafAddr 8) 4 2 0 ≠ setBits n.leaf 4 2 0) := by decide +kernel
theorem witness_PageMove_resume : let m := pageMove 2 true
    let s := pageState m {}
    s.hub.moves[s.ev.idx]? = some m ∧ m.stage = 2 ∧ m.lease = none ∧ m.pgin = none ∧ s.heldLeases = [] ∧ (pageMove 0 false).stage < 2 := by decide

/-- The hub with one lease, of lender 1 or of this package, in a state. -/
def agisted (a : AgistLease) (e : EvArgs) (now : Nat) : State :=
  let s := leaseState 0
  { s with ev := e, cycle := now, hub := { s.hub with agist := [a] } }

theorem witness_Agist_clean : let a := { leased 1 5 with dirtyPages := [0] }
    let b := { leased 1 5 with cleaning := [0] }
    (agisted a {} 0).hub.agist[0]? = some a ∧ 5 ≤ a.state ∧ 0 ∈ a.dirtyPages ∧ 0 ∉ a.cleaning ∧ 5 ≤ b.state ∧ 0 ∈ b.cleaning := by decide +kernel
theorem witness_Agist_borrower : (leased 1 5).state = 5 ∧ (leased 1 6).state = 6 ∧ (leased 1 6).placed = [] ∧
    meets ((agisted (leased 1 6) {} 0).returnPage (leased 1 6)) (fun _ => true) = true ∧
    meets ((agisted (leased 1 5) {} 0).restoreBorrower (leased 1 5)) (fun _ => true) = true ∧
    (agisted (leased 200 5) {} 0).cutOff (leased 200 5).lender = true ∧ (leased 200 5).state = 5 ∧
    meets ((agisted (leased 200 5) {} 0).loseLender (leased 200 5)) (fun _ => true) = true := by decide +kernel
/-- A returning lease of two placed pages, the first one's leaf at 0x320008 and its lease-map slot at 0x100000. -/
theorem witness_Agist_remap : let a := { leased 1 6 with placed := [(0, 0, 0x10000), (1, 0, 0x20000)], lmap := 0x100000 }
    let s : State := { agisted a {} 0 with mem := [(0x100000, 8), (0x100002, 0x32)] }
    s.hub.agist = [a] ∧ s.stores = [] ∧ s.atomics = [] ∧ a.state = 6 ∧ a.placed = (0, 0, 0x10000) :: (1, 0, 0x20000) :: [] ∧ a.dirtyPages = [] ∧
      a.cleaning = [] ∧ s.hub.ckdctl = 0 ∧ s.readAt (a.lmap % 2 ^ 60 + 8 * 0) 8 = 0x320008 ∧ a.lmap % 2 ^ 60 + 8 ≤ 0x320008 := by decide +kernel
theorem witness_Agist_ends : let a := leased 1 5
    let s := agisted a {} 0
    let t : State := { s with hub := { s.hub with fenced := [1] } }
    s.hub.agist = [a] ∧ s.stores = [] ∧ s.atomics = [] ∧ a.placed = [] ∧ s.hub.moves = [] ∧ 5 ≤ a.state ∧ a.lender ∈ t.hub.fenced ∧
      t.cutOff a.lender = true := by decide +kernel
theorem witness_Agist_lender : (leased 0 3).state = 3 ∧ (leased 0 2).state = 2 ∧
    (let a := { leased 0 3 with borrower := 200 }
     a.since + a.mwin * 1100 ≤ (agisted a {} 1100).cycle ∧ (agisted a {} 1100).lost a.borrower = true ∧
     (agisted a {} 1099).cycle < a.since + a.mwin * 1100) := by decide +kernel
theorem witness_Agist_zero : let a := leased 0 4
    let s := agisted a {} 0
    a.state = 4 ∧ s.hub.ckdctl = 0 ∧ s.hub.agist = [a] ∧ s.hub.moves = [] ∧ a.lender < 2 ^ 15 ∧ isScratch a.recPlace = false ∧
      (a.recPlace + 0x40 ≤ placeOf a.lender a.lbase ∨ placeOf a.lender a.lbase + a.size ≤ a.recPlace) := by decide +kernel
theorem witness_Agist_canonical : (agisted (leased 0 4) {} 0).MemCanonical := by unfold State.MemCanonical; decide
theorem witness_Agist_offer : let a := leased 0 1
    let s := agisted a { idx := 1, addr := 0x10000, val := 0x10000, aux := 1, core := 1 } 0
    s.inPaddock s.ev.core = true ∧ s.ev.core ≠ s.hub.pkg ∧ s.ev.list = [] ∧ s.hub.agist = [a] ∧ a.state = 1 ∧ a.lender = s.hub.pkg ∧ a.id = s.ev.idx ∧ a.lbase = s.ev.addr ∧ a.size = s.ev.val ∧
      a.mwin = s.ev.aux ∧ a.mwin ≠ (agisted a { idx := 1, aux := 2 } 0).ev.aux := by decide +kernel
theorem witness_Agist_take : let s := evd (hubbed { takes := [take] }) { list := [0], ok := false }
    s.ev.list = 0 :: [] ∧ s.hub.takes = [take] ∧ take.hart = 0 ∧ s.ev.ok = false ∧ (evd s { list := [0] }).ev.ok = true ∧
      take.hart = 8 * s.ev.core + s.ev.strand ∧ take.since + 1100000 ≤ ({ s with cycle := 1100000 } : State).cycle := by decide
theorem witness_Flush : let m : FlushMark := { hart := 0, dest := 1, plane := 0, since := 0 }
    let s := hubbed { flushMarks := [m], flushAcks := [(0, 1)], groups := [(0, { old := [(1, [1, 2])] })] }
    s.hub.flushMarks = m :: [] ∧ s.hub.flushAcks = (0, 1) :: [] ∧ s.ev.idx = 0 ∧ (∀ t ∈ s.stores, pkgOfPlace t.place ≠ 1) ∧
      (∀ t ∈ s.atomics, pkgOfPlace t.place ≠ 1) ∧ (∀ e ∈ s.cores, ∀ x ∈ e.2.netWait, x.dest / 2 ^ 11 ≠ 1) ∧
      (s.groupAt s.ev.idx).old = (1, [1, 2]) :: [] ∧ (∀ t ∈ s.stores, t.pkg ∉ [1, 2]) := by decide

/-! ### Steps without an encoding: messages, waits, floors, hangs -/

theorem witness_Message_depart : let s := State.reset.setCore 0 { outbound := [msg0] }
    (s.coreAt s.ev.core).outbound = msg0 :: [] ∧ msg0.pkg = s.hub.pkg ∧ ({ msg0 with dest := 2 ^ 11 } : Msg).pkg ≠ s.hub.pkg ∧
      (evd s { list := [1, 2, 3, 4, 5, 6, 7, 8] }).ev.list.length = 8 ∧
      s.flowHeld .message 1 = false ∧
      (let src := fun (p : Nat) => ({ msg0 with hdr := p * 2 ^ 27 } : Msg).src / 2 ^ 11
       s.inPaddock (src 1) = true ∧ src 1 ≠ s.hub.pkg ∧ s.inPaddock (src 200) = false) := by decide
/-- Four messages to package 1 fill the reserve of their channel on its only link, whose shared buffers are all retired. -/
theorem witness_Message_held : let m : Msg := { msg0 with dest := 2 ^ 11 }
    let s := (hubbed { links := [(0, { state := 0, retired := 72 })] }).setCore 0 { outbound := [m], netWait := [m, m, m, m] }
    (s.coreAt s.ev.core).outbound = m :: [] ∧ m.pkg ≠ s.hub.pkg ∧ s.flowHeld .message m.pkg = true := by
  refine ⟨by decide, by decide, ?_⟩
  generalize hs : (hubbed { links := [(0, { state := 0, retired := 72 })] }).setCore 0 (_ : Core) = s
  have hp : s.planesTo 1 = [0] := by subst hs; decide
  have hl : s.upLinks 0 = [0] := by subst hs; decide
  have hk : s.hub.pkg = 0 := by subst hs; rfl
  have hc : s.cores.flatMap (fun e => e.2.netWait) = List.replicate 4 { msg0 with dest := 2 ^ 11 } := by subst hs; decide
  have hr : (s.linkAt 0).retired = 72 := by subst hs; decide
  have hf : s.flitsOn 0 .message = 4 := by
    simp only [State.flitsOn, hc, List.filter_replicate, hk, show 2 ^ 11 / 2 ^ 11 = 1 by decide, State.flowPlane_one hp,
      Option.bind_some, State.linkOf_one hl]
    decide
  have hm : s.flowHeld .message 1 = true := by
    rw [State.flowHeld_one hp hl, hk, State.linkCredit_full (by rw [hf]; decide) (by omega)]; decide
  exact hm
/-- Core 0 of the launch in slot 0 with a message before it and another in its inbox. -/
def reached (m : Msg) (inbox : List InMsg) : State :=
  handled.setCore 0 { handled.coreAt 0 with netWait := [m], inbox := inbox }
/-- A message of serial 1, and its anti-message. -/
def msg1 (anti : Bool) : Msg := { msg0 with hdr := 2 ^ 42 + (if anti then 2 ^ 11 else 0) }
theorem witness_Message_arrive : let s := reached (msg1 false) []
    s.ev.list.length ≠ 8 ∧ (s.coreAt s.ev.core).netWait = msg1 false :: [] ∧ s.ev.idx = 0 ∧ s.acceptsMessage s.ev.core (msg1 false) = true ∧
      (∀ y ∈ (s.coreAt s.ev.core).inbox, y.msg.partner (msg1 false) = false) ∧ ((s.coreAt s.ev.core).inbox.filter (fun y => y.general)).length < 240 ∧
      (msg1 false).timed = true ∧ (msg1 false).reinjected = false ∧ s.messageSlot s.ev.core (msg1 false) = some 0 ∧
      (({ s with hub := { s.hub with societies := [soc] } } : State).societyOf (some 0)).isSome = true ∧
      (msg1 false).colour < (s.tally s.ev.core 0).received.length ∧
      (State.reset.acceptsMessage 0 (msg1 false) = false) := by decide +kernel
theorem witness_Message_annihilate : let y : InMsg := { msg := msg1 false, arrival := 0, general := true }
    let s := reached (msg1 true) [y]
    s.acceptsMessage s.ev.core (msg1 true) = true ∧ (s.coreAt s.ev.core).inbox = [y] ∧ y.msg.partner (msg1 true) = true ∧
      (y.msg.anti = true ∨ y.held = false) := by decide +kernel
theorem witness_Message_full : let y : InMsg := { msg := msg0, arrival := 0, general := true }
    let s := reached (msg1 false) (List.replicate 240 y)
    s.acceptsMessage s.ev.core (msg1 false) = true ∧ (msg1 false).anti = false ∧ (msg1 false).serial ≠ 0 ∧ (msg1 false).reinjected = false ∧
      (∀ y ∈ (s.coreAt s.ev.core).inbox, y.msg.partner (msg1 false) = false) ∧
      240 ≤ ((s.coreAt s.ev.core).inbox.filter (fun y => y.general)).length := by decide +kernel

/-- A continuation that waits for something. -/
def waiter (w : WaitFor) : Cont := { cont .waiting with waits := some w }
theorem witness_Wait : let s := { hubbed { conts := [waiter (.sleeping 5)] } with cycle := 5 }
    s.hub.conts[s.ev.idx]? = some (waiter (.sleeping 5)) ∧ (waiter (.sleeping 5)).state = .waiting ∧
      (waiter (.sleeping 5)).waits = some (.sleeping 5) ∧ 5 ≤ s.cycle ∧ ({ s with cycle := 4 } : State).cycle < 5 := by decide
theorem witness_Wait_word : let c := waiter (.word 0xF00000000000A000 0)
    let s := hubbed { conts := [c] }
    c.waits = some (.word 0xF00000000000A000 0) ∧
      meets (s.readBytes (s.whoLaunch (128 * c.cluster) c.slot) .read 0xF00000000000A000 8 8) (fun r => ofBytes r.2 == 0) = true ∧
      meets (({ s with mem := [(placeLocal 0 0xA000, 1)] } : State).readBytes (s.whoLaunch (128 * c.cluster) c.slot) .read 0xF00000000000A000 8 8)
        (fun r => ofBytes r.2 != 0) = true := by decide +kernel
/-- A word of local memory that core 1's continuation watches, with its value and changed. -/
theorem witness_Wait_local : let c := waiter (.word (0xF4 * 2 ^ 56 + 1 * 2 ^ 19 + 0x7FFF8) 7)
    let s := hubbed { conts := [c] }
    s.hub.conts[s.ev.idx]? = some c ∧ c.state = .waiting ∧ s.poison = [] ∧ c.waits = some (.word (0xF4 * 2 ^ 56 + 1 * 2 ^ 19 + 0x7FFF8) 7) ∧
      s.readAt (placeLocal 1 0x7FFF8) 8 ≠ (7 : Word).toNat ∧
      (({ s with mem := [(placeLocal 1 0x7FFF8, 7)] } : State).readAt (placeLocal 1 0x7FFF8) 8 = (7 : Word).toNat) := by decide +kernel
/-- The launch of slot 0 with a society. -/
def inSociety (x : Society) (now : Nat) : State :=
  let s := flocked {} {}
  { s with cycle := now, hub := { s.hub with societies := [x] } }
theorem witness_Floor : let s := inSociety soc 1100
    s.hub.societies[s.ev.idx]? = some soc ∧ s.hub.societies = [soc] ∧ soc.inRound = false ∧ soc.roundAt + soc.interval * 11 / 10 ≤ s.cycle ∧
      0 ∈ s.societyCores 0 ∧ 1 ∉ s.societyCores 0 := by decide
theorem witness_Floor_round : let x : Society := { soc with inRound := true, colour := 1 }
    let s := inSociety x 0
    let t := s.setCore 0 { tallies := [(0, { sent := [1, 0] })] }
    x.inRound = true ∧ s.floorSum x.slot (1 - x.colour) = 0 ∧ t.floorSum x.slot (1 - x.colour) ≠ 0 ∧ x.started = false ∧
      s.floorMin x.slot = 2 ^ 64 - 1 ∧ ({ x with started := true } : Society).started = true := by decide
/-- A launch whose one continuation waits, and how long it has been hung. -/
def hungState (onhang : Nat) : State :=
  let f : Flock := { num := 0, status := 1, strands := [0, 1], pool := [0, 1] }
  let l : Launch := { lnch with flocks := [f], stage := .run, onhang := onhang, hungSince := some 0 }
  let s := (flocked {} {}).setLaunch 0 (some l)
  { s with cycle := 70400, hub := { s.hub with conts := [waiter .joined] } }
theorem witness_Hang : ∀ a, a = 0 ∨ a = 0x3000 → let s := hungState a
    meets (match s.launchAt s.ev.idx with
      | some l => .ok l
      | none => .error .wait) (fun l => l.onhang == a && s.hangDue s.ev.idx l && meets (s.hangNow s.ev.idx l) (fun _ => true)) = true := by
  rintro a (rfl | rfl) <;> decide +kernel
/-- The hang handler's strand and the slot of its record. -/
theorem witness_Hang_handler : let s := hungState 0x3000
    let f : Flock := { num := 0, status := 1, strands := [0, 1], pool := [0, 1] }
    meets (match s.launchAt s.ev.idx with
      | some l => .ok l
      | none => .error .wait) (fun l => l.onhang != 0 && !l.hungBefore &&
        ((l.flocks.filter (fun f => f.status == 1)).flatMap (fun f => f.strands)).find? (fun k => s.eligible k s.ev.idx) == some 0) = true ∧
      s.flockOf 0 = some f ∧ f.pool.find? (fun i => !(s.clusterAt f.cluster).poolBusy.contains i) = some 0 := by decide +kernel

/-! ### Steps without an encoding: queues, packets, launches -/

/-- Queue 0 of address space 0 with one packet, its words at 0x10000, and what else page 1 holds. -/
def queued (cells : List Host.Cell) : State :=
  let t := mapped 0 0
  let q : Queue := { rbase := 0x10000, en := true, logn := 4, dbval := 1 }
  { t with mem := cells ++ t.mem, hub := { t.hub with queues := [(0, q)] } }
/-- The packet of queue 0 is of a type and may start, and something holds of it and of the state after its read. -/
def headIs (s : State) (type : Nat) (g : State → List Nat → Bool) : Bool :=
  let x := s.queueAt 0
  x.en && !x.error && decide (x.ridx < x.dbval) && meets (s.hubRead x.asid ((x.rbase + 64 * (x.ridx % 2 ^ x.logn)) % 2 ^ 64) 64 64) (fun r =>
    let w := splitLanes 64 8 (ofBytes r.2)
    State.packetOk w && bits (nth w 0) 0 8 == type && r.1.startsNow 0 w && g r.1 w)

theorem witness_Queue_bell : let s := evd (queued [(0x200000, 5)]) { val := 16 }
    s.ev.idx < 1024 ∧ s.ev.val < 2 ^ 64 ∧ (s.queueAt 0).dbval ≤ s.ev.val ∧ s.ev.val ≤ (s.queueAt 0).ridx + 2 ^ (s.queueAt 0).logn ∧
      (evd s { val := 0 }).ev.val < (s.queueAt 0).dbval ∧ (s.queueAt 0).ridx + 2 ^ (s.queueAt 0).logn < (evd s { val := 17 }).ev.val ∧
      (s.queueAt 0).error = false ∧ (s.queueAt 0).prio < 8 ∧ (s.queueAt 0).asid < 2 ^ 12 ∧ (s.queueAt 0).logn < 2 ^ 5 := by decide
/-- The control word of decoder 7 of CXL port 1. -/
theorem witness_Registers_decoder : let s := evd State.reset { addr := 0x8000071300, val := 2 ^ 9 }
    s.ev.list = [] ∧ s.ev.addr = 0x8000061220 + 0x10000 * 1 + 32 * 7 ∧ s.ev.val < 2 ^ 64 := by decide
theorem witness_Queue_nop : headIs (queued [(0x200000, 5)]) 5 (fun t w => nth w 1 == 0 &&
      meets ((t.advance 0).completePacket 0 (t.queueAt 0).ridx w none) (fun _ => true)) = true ∧
    headIs (queued [(0x200000, 5), (0x200009, 4), (0x20000A, 1)]) 5 (fun t w => nth w 1 == 0x10400 &&
      meets ((t.advance 0).completePacket 0 (t.queueAt 0).ridx w none) (fun _ => true)) = true := by decide +kernel
theorem witness_Queue_signal : headIs (queued [(0x200000, 4), (0x200011, 4), (0x200012, 1), (0x200018, 1)]) 4 (fun t w =>
    meets ((t.advance 0).completePacket 0 (t.queueAt 0).ridx w none) (fun _ => true)) = true := by decide +kernel
theorem witness_Queue_malformed : let s := queued [(0x200000, 9)]
    let x := s.queueAt 0
    x.en = true ∧ x.error = false ∧ x.ridx < x.dbval ∧ meets (s.hubRead x.asid ((x.rbase + 64 * (x.ridx % 2 ^ x.logn)) % 2 ^ 64) 64 64)
      (fun r => !State.packetOk (splitLanes 64 8 (ofBytes r.2))) = true := by decide +kernel
theorem witness_Signal : let s := mapped 0 0
    meets (s.check (s.whoHub 0) (.load 8) 0x10400 8 8) (fun r => meets (r.1.check (r.1.whoHub 0) .store 0x10400 8 8) (fun q => match r.2 with
      | [c] => q.2 == [c] && bits c.leaf 9 2 == 0 && c.n == 8 && q.1.poison == [] && !q.1.homeLost c.place && !r.1.homeLost c.place && q.1.stores == [] && q.1.hub.ckdctl == 0
      | _ => false)) = true := by decide +kernel
theorem witness_Barrier_start : headIs (queued [(0x200000, 3), (0x200011, 4), (0x200012, 1)]) 3 (fun t w =>
    let p : Packet := { queue := 0, index := (t.queueAt 0).ridx, type := 3, words := w, pending := ((w.drop 2).take 5).filter (· ≠ 0) }
    meets (((t.advance 0).addPacket p).barrierPass p) (fun _ => true)) = true := by decide +kernel
/-- A packet under way. -/
def underWay (p : Packet) (cells : List Host.Cell) : State :=
  let s := queued cells
  { s with hub := { s.hub with packets := [p] } }
theorem witness_Barrier_pass : let p : Packet := { queue := 0, index := 0, type := 3, words := [3], pending := [0x10400] }
    let s := underWay p []
    let t := underWay p [(0x200400, 1)]
    s.hub.packets[s.ev.idx]? = some p ∧ p.type = 3 ∧
      meets (s.readSignals (s.queueAt p.queue).asid p.pending) (fun r => r.2 == ([], none) && meets (r.1.completePacket p.queue p.index p.words none) (fun _ => true)) = true ∧
      meets (t.readSignals (t.queueAt p.queue).asid p.pending) (fun r => r.2 == ([0x10400], none)) = true := by decide +kernel
/-- A COPY of 128 bytes from 0x10800 to 0x10C00, of one range. -/
def copyPacket (lines : Nat) (w : Bool) : Packet :=
  { queue := 0, index := 0, type := 2, words := [2, 0, 0x10800, 0x10C00, 128, 0, 0, 0], lines := lines,
    leases := [{ base := 0x10000, size := 0x10000, maxTier := 3, r := true, w := w, x := false }] }
theorem witness_Copy : headIs (queued [(0x200000, 2), (0x200020, 64)]) 2 (fun t _ => decide ((t.hub.packets.filter (fun p => p.type == 2)).length < 8) &&
      meets ((t.advance 0).hubRead ((t.advance 0).queueAt 0).asid ((0x10000 + 0x80) % 2 ^ 64) 128 8) (fun _ => true)) = true ∧
    (∀ n, n = 0 ∨ n = 1 → let p := copyPacket n true
      let s := underWay p []
      s.copyTwin p = none ∧ meets (s.copyRead p) (fun r => meets (r.1.copyWrite p r.2) (fun u =>
        if n = 0 then decide (64 * (p.lines + 1) < 128) else decide (128 ≤ 64 * (p.lines + 1)) && meets (u.completePacket 0 0 p.words none) (fun _ => true))) = true) ∧
    (let p : Packet := { copyPacket 0 true with leases := [] }
     trapsWith ((underWay p []).copyRead p) 0x05 0x10800 = true ∧
       meets ((underWay p []).completePacket 0 0 p.words (some (5, 0x10800))) (fun _ => true) = true) := by
  refine ⟨by decide +kernel, ?_, by decide +kernel⟩
  rintro n (rfl | rfl) <;> decide +kernel
/-- Two copies of one line, to 0x10C00 and to 0x10E00. -/
theorem witness_Copy_twin : let p := copyPacket 0 true
    let x : Packet := { p with index := 1, words := [2, 0, 0x10800, 0x10E00, 128, 0, 0, 0] }
    let s : State := { underWay p [] with hub := { (underWay p []).hub with packets := [p, x] } }
    s.copyTwin p = some x ∧ meets (s.copyRead p) (fun r => meets (r.1.copyStep p r.2) (fun u =>
      meets (u.check (u.whoCopy x) .moveRead (State.copySrc x) 64 64) (fun v => meets (v.1.copyStep x r.2) (fun _ => true)))) = true := by decide +kernel
/-- The hub's translation of page 1, and a queue with one packet in it. -/
def atRest (cells : List Host.Cell) (e : EvArgs) : State :=
  { evd (queued cells) e with tlbs := [{ kind := 0, unit := 1536, asid := 0, page := 1, large := false, entry := 0x200077 }] }
theorem hub_page (cells : List Host.Cell) (e : EvArgs) (va n : Nat) (h1 : 65536 ≤ va) (h2 : va < 131072) (h3 : va + n ≤ 131072) :
    HubAt (atRest cells e) 0 va n 0x20 := by
  have hv : va / 65536 = 1 := by omega
  refine ⟨by omega, by omega, ⟨{ kind := 0, unit := 1536, asid := 0, page := 1, large := false, entry := 0x200077 }, ?_, rfl, by decide,
    by decide, by decide, by decide, by decide⟩, rfl, by decide, (show (atRest [] {}).inPaddock 0 = true by decide)⟩
  show List.find? _ [_] = _
  simp [Tlb.covers, hv]
theorem quiet_atRest (cells : List Host.Cell) (e : EvArgs) : (atRest cells e).QuietMemory := ⟨rfl, rfl, rfl, rfl, rfl, rfl, rfl, rfl⟩
/-- The words of the packet at 0x10000 and of the block of a record at 0x10100. -/
def words (s : State) (a n : Nat) : List Nat := (List.range n).map (fun i => s.readAt (placeIn 0x20 a + 8 * i) 8)
/-- A packet of a type at the head of queue 0. -/
theorem packet_atRest (cells : List Host.Cell) (e : EvArgs) (type : Nat) (h0 : e.idx = 0) (hk : State.packetOk (words (atRest cells e) 0x10000 8) = true)
    (ht : nth (words (atRest cells e) 0x10000 8) 0 % 2 ^ 8 = type) : PacketAt (atRest cells e) (atRest cells e).ev.idx type (words (atRest cells e) 0x10000 8) := by
  have hq : (atRest cells e).queueAt (atRest cells e).ev.idx = { rbase := 0x10000, en := true, logn := 4, dbval := 1 } := by
    show (queued cells).queueAt e.idx = _; rw [h0]; rfl
  unfold PacketAt
  rw [hq]
  exact ⟨rfl, rfl, by decide, by decide, ⟨0x20, hub_page cells e 0x10000 64 (by decide) (by decide) (by decide), rfl⟩, quiet_atRest cells e, hk, ht,
    by intro p h; cases h⟩
/-- A NOP; a SIGNAL to 0x10400; a LAUNCH of one flock with its record at 0x10100; a BARRIER on 0x10400 with the word zero and not;
a COPY. -/
theorem witness_Packets : ∀ (cells : List Host.Cell) (type : Nat),
    (cells, type) ∈ [([(0x200000, 5)], 5), ([(0x200000, 4), (0x200009, 4), (0x20000A, 1)], 4),
      ([(0x200000, 1), (0x200011, 1), (0x200012, 1), (0x200028, 2), (0x200108, 1), (0x200109, 1)], 1),
      ([(0x200000, 3), (0x200011, 4), (0x200012, 1)], 3), ([(0x200000, 3), (0x200011, 4), (0x200012, 1), (0x200400, 1)], 3),
      ([(0x200000, 2), (0x200020, 64), (0x20002A, 1)], 2)] →
    PacketAt (atRest cells {}) 0 type (words (atRest cells {}) 0x10000 8) := by
  intro cells type h
  simp only [List.mem_cons, List.not_mem_nil, or_false, Prod.mk.injEq] at h
  rcases h with ⟨rfl, rfl⟩ | ⟨rfl, rfl⟩ | ⟨rfl, rfl⟩ | ⟨rfl, rfl⟩ | ⟨rfl, rfl⟩ | ⟨rfl, rfl⟩ <;>
    exact packet_atRest _ {} _ rfl (by decide +kernel) (by decide +kernel)
theorem witness_Packets_launch : let s := atRest [(0x200000, 1), (0x200011, 1), (0x200012, 1), (0x200028, 2), (0x200108, 1), (0x200109, 1)] {}
    let w := words s 0x10000 8
    let r := words s (nth w 2) 32
    HubWords s 0 (nth w 2) 32 r ∧ recordOk r = true ∧ nth r 5 = 0 ∧ nth r 6 = 0 ∧ nth r 9 = 0 ∧ nth w 3 = 0 ∧
      (launchOfRecord r w [] [] 0 0 0).total ≠ 0 ∧ (launchOfRecord r w [] [] 0 0 0).total < 2 ^ 32 := by
  refine ⟨⟨0x20, hub_page _ _ _ _ (by decide +kernel) (by decide +kernel) (by decide +kernel), rfl⟩, ?_⟩
  decide +kernel
theorem witness_Packets_barrier : let s := atRest [(0x200000, 3), (0x200011, 4), (0x200012, 1)] {}
    let t := atRest [(0x200000, 3), (0x200011, 4), (0x200012, 1), (0x200400, 1)] {}
    let w := words s 0x10000 8
    ((w.drop 2).take 5).filter (· ≠ 0) = [0x10400] ∧ s.readAt (placeIn 0x20 0x10400) 8 = 0 ∧ nth w 1 = 0 ∧
      0 < t.readAt (placeIn 0x20 0x10400) 8 ∧ t.readAt (placeIn 0x20 0x10400) 8 < 2 ^ 63 := by decide +kernel
theorem witness_Packets_copy : let s := atRest [(0x200000, 2), (0x200020, 64), (0x20002A, 1)] {}
    HubWords s 0 (nth (words s 0x10000 8) 5 + 0x80) 16 (words s 0x10080 16) ∧ (s.hub.packets.filter (fun p => p.type == 2)).length < 8 := by
  refine ⟨⟨0x20, hub_page _ _ _ _ (by decide +kernel) (by decide +kernel) (by decide +kernel), by decide +kernel⟩, by decide⟩
/-- A BARRIER and a COPY under way, alone. -/
def onlyPacket (p : Packet) (cells : List Host.Cell) : State :=
  let s := atRest cells {}
  { s with hub := { s.hub with packets := [p] } }
theorem only_page (p : Packet) (cells : List Host.Cell) (va n : Nat) (h1 : 65536 ≤ va) (h2 : va < 131072) (h3 : va + n ≤ 131072) :
    HubAt (onlyPacket p cells) 0 va n 0x20 := hub_page cells {} va n h1 h2 h3
theorem witness_Packets_pending : let p : Packet := { queue := 0, index := 0, type := 3, words := [3], pending := [0x10400] }
    (onlyPacket p []).QuietMemory ∧ (onlyPacket p []).hub.packets = [p] ∧ p.type = 3 ∧ p.pending = [0x10400] ∧
      HubAt (onlyPacket p []) ((onlyPacket p []).queueAt p.queue).asid 0x10400 8 0x20 ∧ nth p.words 1 = 0 ∧
      (onlyPacket p []).readAt (placeIn 0x20 0x10400) 8 = 0 ∧ (onlyPacket p [(0x200400, 1)]).readAt (placeIn 0x20 0x10400) 8 = 1 :=
  ⟨⟨rfl, rfl, rfl, rfl, rfl, rfl, rfl, rfl⟩, rfl, rfl, rfl, only_page _ _ _ _ (by decide) (by decide) (by decide), by decide, by decide +kernel,
    by decide +kernel⟩
theorem witness_Packets_line : let p := copyPacket 0 true
    let e : Lease := { base := 0x10000, size := 0x10000, maxTier := 3, r := true, w := true, x := false }
    (onlyPacket p []).QuietMemory ∧ (onlyPacket p []).hub.packets = [p] ∧ 64 * (p.lines + 1) < nth p.words 4 ∧
      0x10800 = nth p.words 2 + 64 * p.lines ∧ 0x10C00 = nth p.words 3 + 64 * p.lines ∧
      HubAt (onlyPacket p []) ((onlyPacket p []).queueAt p.queue).asid 0x10800 64 0x20 ∧
      HubAt (onlyPacket p []) ((onlyPacket p []).queueAt p.queue).asid 0x10C00 64 0x20 ∧ e ∈ p.leases ∧ e.r = true ∧ e.w = true ∧
      e.base ≤ 0x10800 ∧ 0x10C00 + 64 ≤ e.base + e.size :=
  ⟨⟨rfl, rfl, rfl, rfl, rfl, rfl, rfl, rfl⟩, rfl, by decide, by decide, by decide, only_page _ _ _ _ (by decide) (by decide) (by decide),
    only_page _ _ _ _ (by decide) (by decide) (by decide), by decide, rfl, rfl, by decide, by decide⟩
theorem witness_Launch_start : headIs (queued [(0x200000, 1), (0x200011, 1), (0x200012, 1), (0x200028, 2), (0x200108, 1), (0x200109, 1)]) 1 (fun t w =>
    meets ((t.advance 0).readRecord 0 (t.queueAt 0).ridx w) (fun r => meets (r.1.readShape r.2 w) (fun q => q.2.total != 0))) = true := by decide +kernel
theorem witness_Launch_slot : ∃ i, i < 4096 ∧ State.reset.launchAt i = none := ⟨0, by decide, rfl⟩
theorem witness_Launch_packet : let p : Packet := { queue := 0, index := 0, type := 1, words := [1], record := some lnch }
    let s := underWay p []
    s.hub.packets[s.ev.idx]? = some p ∧ p.type = 1 ∧ p.record = some lnch ∧ s.hub.launchCount + 1 < 2 ^ 48 := by decide
/-- The launch in slot 0 at a stage. -/
def staged (l : Launch) : State := State.reset.setLaunch 0 (some l)
theorem witness_Launch_society : let l : Launch := { lnch with stage := .society, society := some (1, 2), waiting := some (3, 1) }
    let s := staged l
    s.launchAt s.ev.idx = some l ∧ l.stage = .society ∧ l.society = some (1, 2) ∧ s.ev.ok = true ∧ s.hub.societies.length < 16 ∧
      (∀ x ∈ s.hub.societies, x.id ≠ 1) ∧ (evd s { ok := false }).ev.ok = false ∧ l.waiting = some (3, 1) := by decide
theorem witness_Launch_leases : let l : Launch := { lnch with stage := .leases }
    let s := staged l
    s.launchAt s.ev.idx = some l ∧ l.stage = .leases ∧ meets (s.makeLeases 0 l) (fun _ => true) = true ∧ l.leases = [] ∧ l.arenaSize = 0 ∧
      l.proxy = false := by decide +kernel
theorem witness_Launch_proxy : let l : Launch := { lnch with stage := .proxy, flocks := [{ num := 0, status := 1, strands := [8 * 383] }] }
    (staged l).launchAt 0 = some l ∧ (staged l).proxyFree = false ∧ (staged { lnch with stage := .proxy }).proxyFree = true := by decide

/-! ### Steps without an encoding: placement, the partitioner, pre-emption, recovery -/

/-- A launch of one strand to a flock and `n` flocks, in slot 0 at PLACE. -/
def placing (n : Nat) (flocks : List Flock) : Launch :=
  { lnch with stage := .place, strands := 1, levels := [0], count := n, entry := 0x4000, arg := 7, flocks := flocks }
theorem witness_Place : let s := staged (placing 1 [])
    meets (match s.nextPlacement with
      | some (slot, l, none, _, strands) => .ok (slot, l, strands)
      | _ => .error .wait) (fun r => r.1 == 0 && r.2.1 == placing 1 [] && decide r.2.2.Nodup && r.2.2 == [0]) = true := by decide +kernel
theorem witness_Place_aged : let s : State := { staged (placing 1 []) with cycle := 8800000 }
    s.launchAt s.ev.idx = some (placing 1 []) ∧ State.wantsPlace (placing 1 []) = true ∧ (placing 1 []).placedAt + 8800000 ≤ s.cycle := by decide
/-- A launch under way, of a flock that has not ended, whose fault fields are still due. -/
theorem witness_Place_due : let l : Launch := { placing 1 [{ num := 0, status := 1, strands := [0] }] with recordDue := true }
    (staged l).launchAt (staged l).ev.idx = some l ∧ State.allEnded l = false ∧ l.recordDue = true := by decide
/-- A resident flock of one strand, number 0. -/
def oneFlock (status : Nat) : Flock := { num := 0, status := status, strands := [0] }
theorem witness_Flock_end : let s := staged (placing 1 [oneFlock 1])
    s.evFlock = some (placing 1 [oneFlock 1], oneFlock 1) ∧ s.flockOver s.ev.idx (oneFlock 1) = true := by decide
theorem witness_Launch_done : let l := placing 1 [oneFlock 4]
    let s := staged l
    s.launchAt s.ev.idx = some l ∧ State.allEnded l = true ∧ s.accessesDone s.ev.idx = true ∧ meets (s.endLaunch s.ev.idx l) (fun _ => true) = true := by
  decide
theorem witness_Launch_done_quiet : let l := placing 1 [oneFlock 4]
    let p : Packet := { queue := 0, index := 0, type := 1, words := [1] }
    let s : State := { staged l with hub := { (staged l).hub with packets := [p] } }
    l.complete = 0 ∧ l.recFault = none ∧ l.fcount = 0 ∧ l.hang = false ∧ l.aborted = false ∧ s.hub.packets = [p] ∧ p.queue = l.queue ∧
      p.index = l.index ∧ nth p.words 1 = 0 ∧ (∀ y ∈ s.stores, y.hart ≠ State.hubAgent) := by decide
theorem witness_Partition : let s : State := { hubbed { parten := true } with cycle := 1100000 }
    let t := s.setLaunch 0 (some { placing 3 [] with cls := 2 })
    s.hub.parten = true ∧ s.hub.partAt + 1100000 ≤ s.cycle ∧ s.unplaced 1 + s.unplaced 2 = 0 ∧ t.hub.parten = true ∧
      t.hub.partAt + 1100000 ≤ t.cycle ∧ t.unplaced 1 + t.unplaced 2 ≠ 0 ∧
      (hubbed {}).hub.parten = false ∧ bit (evd s { val := 1 }).ev.val 0 = true ∧ bit (evd s { val := 0 }).ev.val 0 = false := by decide
theorem witness_Partition_drain : let s : State := { (staged { placing 1 [oneFlock 1] with cls := 1 }).setCluster 0 { draining := true, cls := 0 } with cycle := 220000 }
    let x := s.clusterAt s.ev.idx
    let t := s.setCluster 0 { draining := true, cls := 1 }
    x.draining = true ∧ x.drainDue = false ∧ x.drainAt + 220000 ≤ s.cycle ∧ s.oldFlocks 0 ≠ [] ∧ t.oldFlocks 0 = [] := by decide

theorem witness_Trap : let s := sup 0 0
    let h := s.hartAt 0
    h.occ = true ∧ h.halted = false ∧ h.parked = false ∧ h.waitSlot = false ∧ s.flockIssues 0 = true ∧ h.slot = none ∧ h.longs = [] ∧
      s.myCore.products = [] ∧ meets (s.takeTrap (s.ev.val % 256) s.ev.addr) (fun _ => true) = true := by decide +kernel
theorem witness_Trap_handler : (sup 0 0).TrapsToHandler ∧ (sup 0 0).NothingUnderWay := ⟨traps_sup 0 0, nothing_sup 0 0⟩
theorem witness_Abort : let s := flocked { occ := true } {}
    s.ev.ok = true ∧ (s.hartAt 0).occ = true ∧ 0 % 8 ≠ 4 ∧ (s.hartAt 0).tvec = 0 ∧ (2 ^ 55 : Nat) ≤ 2 ^ 55 ∧ (1 : Nat) % 2 = 1 ∧
      meets (s.takeTrap (s.ev.val % 256) s.ev.addr) (fun _ => true) = true := by decide +kernel
theorem witness_Abort_hang : let s := evd (hungState 0) { ok := false }
    s.ev.ok = false ∧ meets (match s.launchAt s.ev.idx with
      | some l => .ok l
      | none => .error .wait) (fun l => s.hangDue s.ev.idx l && l.onhang == 0 && l.complete == 0) = true := by decide +kernel
theorem witness_Preempt_request : let s := evd (staged (placing 1 [oneFlock 1])) { val := 2 ^ 63 }
    let t := evd (hubbed { preqJob := some (0, 0) }) { val := 2 ^ 63 }
    s.hub.preqJob = none ∧ bit s.ev.val 63 = true ∧ s.residentFlock (s.ev.val / 2 ^ 32 % 2 ^ 12) (s.ev.val % 2 ^ 32) = true ∧
      s.launchAt (s.ev.val / 2 ^ 32 % 2 ^ 12) = some (placing 1 [oneFlock 1]) ∧ t.hub.preqJob.isSome = true ∧ bit t.ev.val 63 = true ∧
      bit State.reset.ev.val 63 = false := by decide
/-- A strand that has issued nothing and stays occupied, of a draining flock. -/
theorem witness_Preempt_saved : let l := placing 1 [oneFlock 2]
    let s := (staged l).setHart 0 { occ := true, slot := some 0 }
    s.evFlock = some (l, oneFlock 2) ∧ (oneFlock 2).status = 2 ∧ s.flockOver s.ev.idx (oneFlock 2) = false ∧
      s.drained s.ev.idx (oneFlock 2) = true ∧ meets (s.saveFlock s.ev.idx l (oneFlock 2)) (fun _ => true) = true ∧ s.stores = [] ∧
      s.atomics = [] ∧ s.nears = [] ∧ s.hub.imgbase.toNat % 2 ^ 16 = 0 := by decide
theorem witness_Preempt_restore : let i : Image := ⟨[(0, { occ := true, slot := some 0 })], [(0, .s 1 5)], [], [], [], [], [], [], [], [], false⟩
    let f : Flock := { oneFlock 3 with images := [i] }
    let s := staged (placing 1 [f])
    s.nextPlacement = some (0, placing 1 [f], some f, 0, [0]) ∧ f.images.getLast? = some i ∧ (i.harts.map (fun e => e.1)).Nodup := by decide +kernel
theorem witness_Preempt_registers : let h : Hart := { s := [(1, 5)], dirty := 2 }
    bit h.dirty 1 = true ∧ h.nowS 2 = 0 ∧ State.dirtyRegs h = [.s 1 5] := by decide
theorem witness_Preempt_state : let s := (hubbed { preqJob := some (0, State.noFlock) }).setLaunch 0 (some (placing 1 []))
    s.saveAsked = some (0, placing 1 []) ∧ s.hub.imgbase.toNat % 2 ^ 16 = 0 ∧
      meets (s.writeRegion (placing 1 [])) (fun r => r.2.isEmpty) = true := by decide
theorem witness_Recovery : let s := evd (hubbed { failed := [5] }) { val := 5 }
    let t := evd (hubbed { failed := [5], fenced := [5] }) { val := 5 }
    5 ∈ s.hub.failed ∧ 5 ∉ s.hub.fenced ∧ 5 ≠ s.hub.pkg ∧ s.hub.agist = [] ∧ 5 ∈ t.hub.fenced ∧
      meets (({ s with hub := { s.hub with fenced := s.hub.fenced ++ [5] } } : State).endLostLeases) (fun _ => true) = true := by decide
/-- A saved launch without lines, and one of whose lines the region holds nothing any more. -/
theorem witness_Recovery_restore : let x : SavedLaunch := { slot := 0, launch := placing 1 [], conts := [], society := none, busy := [] }
    let y : SavedLaunch := { x with lines := [(0x200000, 1 :: List.replicate 63 0)] }
    (hubbed { savedLaunches := [x] }).hub.savedLaunches = [x] ∧ (hubbed { savedLaunches := [x] }).stands x = true ∧
      ∀ z ∈ (hubbed { savedLaunches := [y] }).hub.savedLaunches, (hubbed { savedLaunches := [y] }).stands z = false := by decide

/-! ### Steps without an encoding: fabric, host, registers, boot, management -/

/-- Link 0 in a state, with buffers retired. -/
def linked (l : Link) (e : EvArgs) : State := evd (hubbed { links := [(0, l)] }) e
theorem witness_Fabric : let s := linked {} { aux := 1 }
    let t := linked {} {}
    let u := linked { retired := 73 } {}
    (s.linkAt 0).state = 3 ∧ s.ev.aux = 1 ∧ t.ev.aux = 0 ∧ t.ev.ok = true ∧ t.ev.aux = 0 ∧ (linked {} { ok := false }).ev.ok = false ∧
      meets (t.linkJoins 0) (fun _ => true) = true ∧ t.stores = [] ∧ t.atomics = [] ∧ t.nears = [] ∧ (t.linkAt 0).retired ≤ 72 ∧ 72 < (u.linkAt 0).retired ∧
      ((linked { state := 0, retired := 72 } {}).linkAt 0).state = 0 ∧ 72 ≤ ((linked { state := 0, retired := 72 } {}).linkAt 0).retired ∧
      ((linked { state := 0, retired := 71 } {}).linkAt 0).retired + 1 ≤ 72 ∧
      t.upLinks 0 ≠ [0] := by decide
/-- A keepalive finds a credit of its channel, or none: four takes fill its reserve, and all shared buffers are retired. -/
theorem witness_Fabric_keepalive : let s : State := { linked { state := 0 } {} with cycle := 5500000 }
    s.ev.aux = 0 ∧ Store.get 0 s.hub.keptAt (s.ev.idx % 32) + 5500000 ≤ s.cycle ∧ s.linkCredit (s.ev.idx % 32) .control = true := by decide
theorem witness_Fabric_keepalive_held : let u : Hub := { takes := List.replicate 4 take, links := [(0, { state := 0, retired := 72 })] }
    let s : State := { hubbed u with cycle := 5500000 }
    s.ev.aux = 0 ∧ Store.get 0 s.hub.keptAt 0 + 5500000 ≤ s.cycle ∧ s.linkCredit 0 .control = false := by
  refine ⟨by decide, by decide, ?_⟩
  generalize hs : ({ hubbed { takes := List.replicate 4 take, links := [(0, { state := 0, retired := 72 })] } with cycle := 5500000 } : State) = s
  have hp : s.planesTo 1 = [0] := by subst hs; decide
  have hl : s.upLinks 0 = [0] := by subst hs; decide
  have hk : s.hub.pkg = 0 := by subst hs; rfl
  have ht : s.hub.takes = List.replicate 4 take := by subst hs; rfl
  have hr : (s.linkAt 0).retired = 72 := by subst hs; decide
  have hf : s.flitsOn 0 .control = 4 := by
    simp [State.flitsOn, ht, hk, show State.takeLender take = 1 by decide, State.flowPlane_one hp, State.linkOf_one hl, List.replicate]
  exact State.linkCredit_full (by rw [hf]; decide) (by omega)
/-- The last link of plane 0 fails with nothing under way; and one of two. -/
theorem witness_Fabric_leaves : let s := evd (hubbed { links := [(0, { state := 0 })] }) { ok := false }
    let t := evd (hubbed { links := [(0, { state := 0, retired := 72 }), (1, { state := 0 })] }) {}
    (s.stores = [] ∧ s.atomics = [] ∧ s.nears = [] ∧ s.hub.flushMarks = [] ∧ ∀ e ∈ s.harts, e.2.longs = []) ∧
      t.upLinks 0 ≠ [0] ∧ t.ev.aux = 0 ∧ 72 ≤ (t.linkAt 0).retired ∧
      meets ((s.setLink 0 { state := 0, replays := 1 }).linkLeaves 0 2) (fun _ => true) = true ∧
      meets ((evd s { aux := 2, val := 5 }).planeLost 5 0) (fun _ => true) = true ∧
      meets ((evd s { aux := 2, val := 5 }).planeBack 5 0) (fun _ => true) = true := by decide
/-- A port that has been silent for 80 ms, and one that has not. -/
theorem witness_Fabric_silence : Store.get 0 State.reset.hub.flitAt 0 + 88000000 ≤ ({ State.reset with cycle := 88000000 } : State).cycle ∧
    State.reset.cycle < Store.get 0 State.reset.hub.flitAt 0 + 88000000 := by decide
theorem witness_Fabric_leases : let s : State := { evd (hubbed {}) {} with cycle := 5500000 }
    s.ev.aux = 0 ∧ Store.get 0 s.hub.keptAt (s.ev.idx % 32) + 5500000 ≤ s.cycle ∧ s.hub.agist = [] ∧ s.stores = [] ∧ s.atomics = [] ∧
      meets ((s.writePaddock (s.ev.aux == 1) s.ev.val).endLostLeases) (fun _ => true) = true := by decide
theorem witness_Host_regs : let s := evd State.reset { addr := 0x30020, list := [1, 2, 3, 4, 5, 6, 7, 8], val := 4 }
    s.hostUp = true ∧ s.ev.idx = 0 ∧ ((s.ev.list.length = 4 ∨ s.ev.list.length = 8) ∧ s.ev.addr % s.ev.list.length = 0 ∧ s.ev.addr < 2 ^ 20) ∧
      meets (s.writeDevice true (0x8000000000 + s.ev.addr) s.ev.list.length (ofBytes s.ev.list)) (fun _ => true) = true ∧
      (∀ b ∈ s.ev.list, b < 256) ∧ (s.readReg (0x8000000000 + s.ev.addr - (0x8000000000 + s.ev.addr) % 8)).isSome = true ∧
      ¬((2 = 4 ∨ 2 = 8) ∧ s.ev.addr % 2 = 0 ∧ s.ev.addr < 2 ^ 20) ∧ (hubbed { hostDown := true }).hostUp = false ∧
      (evd s { idx := 2 }).ev.idx = 2 ∧ (evd s { idx := 4 }).ev.idx = 4 := by decide
theorem witness_Host_window : let s := evd (mapped 0 0) { idx := 2, addr := 0x10400, list := [1, 2, 3, 4], val := 4 }
    s.hostUp = true ∧ s.ev.idx = 2 ∧ s.ev.addr + 4 ≤ 2 ^ 40 ∧
      meets (s.check (s.whoHub s.hostAsid) .store (s.hostAddr s.ev.addr) 4 (State.hostAlign 4)) (fun r => match r.2 with
        | [c] => c.n == 4 && c.type == 0 && r.1.hub.ckdctl == 0 && !r.1.hubHeld c && !r.1.homeLost c.place
        | _ => false) = true ∧
      meets (s.readBytes (s.whoHub s.hostAsid) (.load 4) (s.hostAddr s.ev.addr) 4 (State.hostAlign 4)) (fun _ => true) = true := by decide +kernel
theorem witness_Host_page : let s := atRest [] { idx := 2, addr := 0x10400, list := [1, 2, 3, 4, 5, 6, 7, 8], val := 8 }
    s.hostUp = true ∧ s.ev.addr + 8 ≤ 2 ^ 40 ∧ s.hostAddr s.ev.addr % 8 = 0 ∧ HubAt s s.hostAsid (s.hostAddr s.ev.addr) 8 0x20 ∧ s.QuietMemory :=
  ⟨by decide, by decide, by decide, hub_page [] _ 0x10400 8 (by decide) (by decide) (by decide), quiet_atRest _ _⟩
/-- BAR4: vector 1's control word, the pending bits, and accesses that it does not take. -/
theorem witness_Host_table : let s := evd State.reset { idx := 4, addr := 0x1C, list := [0, 0, 0, 0], val := 4 }
    s.hostUp = true ∧ s.ev.list.length = 4 ∧ s.ev.addr % 4 = 0 ∧ s.ev.addr < 0x100 ∧ (0x100 ≤ 0x8000 ∧ 0x8000 < 2 ^ 16 ∧ 0x8000 % 4 = 0) ∧
      ¬((2 = 4 ∨ 2 = 8) ∧ 0 % 2 = 0 ∧ 0 < 2 ^ 16) ∧ ¬((4 = 4 ∨ 4 = 8) ∧ 0x1E % 4 = 0 ∧ 0x1E < 2 ^ 16) := by decide
theorem witness_Host_fails : let s := evd (mapped 0 0) { idx := 2, addr := 0x20000, val := 8 }
    trapsWith (s.readBytes (s.whoHub s.hostAsid) (.load 8) (s.hostAddr s.ev.addr) 8 (State.hostAlign 8)) 0x06 0x20000 = true ∧
      ((Stop.trap 0x06 0x20000).trapped s).isSome = true ∧ 2 ^ 40 < (2 ^ 40 - 4) + 8 := by decide +kernel
theorem witness_Registers : let s := evd (sup 0 0) { list := [0x007], val := 2 ^ 64 - 1 }
    let h := s.hartAt 0
    h.occ = true ∧ h.halted = false ∧ 0 % 8 ≠ 4 ∧ h.sup = true ∧ s.ev.val < 2 ^ 64 ∧ h.slot = none ∧
      (∃ e ∈ swrTable h (BitVec.ofNat 64 s.ev.val), s.ev.list = e.1 :: []) ∧ (State.reset.hartAt 0).occ = false ∧ s.ev.list ≠ [] := by
  refine ⟨by decide, by decide, by decide, by decide, by decide, by decide, ?_, by decide, by decide⟩
  exact ⟨_, List.mem_append_left _ (.tail _ (.tail _ (.tail _ (.tail _ (.tail _ (.tail _ (.head _))))))), rfl⟩
theorem witness_Registers_society : let s := (evd (member 0 0) { idx := 3 }).setCore 0 { tableOwner := some 0 }
    s.hub.societies = [soc] ∧ (s.hartAt 0).slot = some soc.slot ∧ s.myCore.tableOwner = (s.hartAt 0).slot ∧ s.ev.idx < 4 := by decide
theorem witness_Registers_group : let s : State := { sup 0 0 with mem := [(2, 1)] }
    s.NothingUnderWay ∧ s.ReleasesFreely ∧ meets (s.installGroup s.ev.val) (fun _ => true) = true :=
  ⟨by simp [State.NothingUnderWay, sup, withMe, State.setHart, State.reset], ⟨by decide, by decide, by decide, by decide, by decide⟩, by decide⟩
/-- Entry 0 of the table: valid, of generation 1, with the one member 0; and the last entry, of 28 members. -/
theorem witness_Registers_entry : let s : State := { sup 0 0 with mem := [(0, 1), (2, 1)] }
    GroupEntry s 0 { valid := true, gen := 1, op := 0, members := [0], old := [] } := by
  unfold GroupEntry; decide +kernel
theorem witness_Registers_entry_last : let s : State := { sup 0 0 with
      mem := [(64 * 4095, 7), (64 * 4095 + 1, 27), (64 * 4095 + 2, 1)] ++ (upFrom 1 27).map (fun i => (64 * 4095 + 8 + 2 * i, BitVec.ofNat 8 i)) }
    GroupEntry s 4095 { valid := true, gen := 1, op := 3, members := upFrom 0 28, old := [] } := by
  unfold GroupEntry; decide +kernel
theorem witness_Registers_map : let s := evd State.reset { addr := 0x8000030020, val := 5 }
    s.ev.list = [] ∧ meets (s.writeDevice true (s.ev.addr / 8 * 8) 8 s.ev.val) (fun _ => true) = true ∧ s.ev.addr = 0x8000030020 := by decide
/-- A slot's bundle passes the checks of R439; and the active slot's, or the other's, does. -/
def passes (u : Hub) (i : Nat) : Bool :=
  match u.slots[i]? with
  | some b => b.signed && b.keyHash == u.keyFuse && decide (u.rollback ≤ b.version)
  | none => false
def good (u : Hub) : Prop := passes u u.activeSlot = true ∨ passes u (1 - u.activeSlot) = true
theorem passes_iff (u : Hub) (i : Nat) : passes u i = true ↔ ∃ b : Bundle, u.slots[i]? = some b ∧ b.signed = true ∧
    b.keyHash = u.keyFuse ∧ u.rollback ≤ b.version := by
  unfold passes
  cases u.slots[i]? <;> simp [and_assoc]
theorem witness_Boot : let s : State := { State.reset with mem := [(5, 1), (placeLocal 0 5, 1)] }
    s.hub.booted = true ∧ (hubbed { booted := false }).hub.booted = false ∧ good s.hub ∧
      (¬good { booted := false, slots := [{ signed := false }, { keyHash := 5 }] } ∧ ¬good { booted := false, rollback := 1 } ∧
        good { booted := false, rollback := 1, slots := [{ version := 0 }, { version := 1 }] }) ∧ s.ev.ok = true ∧
      (evd s { ok := false }).ev.ok = false := by unfold good; decide
theorem witness_Boot_canonical : ({ State.reset with mem := [(5, 1), (placeLocal 0 5, 1)] } : State).MemCanonical := by
  unfold State.MemCanonical; decide
theorem witness_Management : let u : Hub := {}
    let g : Hub := { clockStep := 8 }
    u.slots.length = 2 ∧ u.activeSlot < 2 ∧ (0 = u.keyFuse ∧ u.rollback ≤ 0) ∧ u.pcap < 2801 ∧ 2800 ≤ u.pcap ∧
      95 * u.pcap < 100 * 2661 ∧ 100 * 2660 ≤ 95 * u.pcap ∧ 8 < u.clockStep ∧ g.clockStep ≤ 8 ∧ g.clockStep = 8 ∧ g.gating = false ∧
      g.powerAt + 5500000 ≤ ({ hubbed g with cycle := 5500000 } : State).cycle ∧ ({ gating := true } : Hub).gating = true ∧ g.clockStep < 16 ∧
      16 ≤ u.clockStep ∧ 1000 ≤ (evd State.reset { val := 2800 }).ev.val ∧ (evd State.reset { val := 2800 }).ev.val ≤ 2800 := by decide
/-- The first step after reset is a next state. -/
theorem witness_Canonical : State.reset.MemCanonical ∧ meets (match step State.reset with
    | .next t => .ok t
    | _ => .error .wait) (fun _ => true) = true := by
  constructor
  · unfold State.MemCanonical; decide
  · decide +kernel
end Sys2Proof.Tests
end

section
/-!
SUPPORT. Short results at the registers (R21, R29): the writes that are discarded, and what a write leaves alone.
-/

namespace Sys2Proof.Machine

theorem Hart.applyWrite_s_zero (h : Hart) (x : Word) : h.applyWrite (.s 0 x) = h := rfl

theorem Hart.applyWrite_m_zero (h : Hart) (y : MReg) : h.applyWrite (.m 0 y) = h := rfl

/-- A short result changes no register outside the scalar file, and no long result. -/
theorem Hart.writeS_frame (h : Hart) (d : Nat) (x : Word) :
    (h.writeS d x).f = h.f ∧ (h.writeS d x).v = h.v ∧ (h.writeS d x).m = h.m ∧ (h.writeS d x).longs = h.longs := by
  by_cases hd : d = 0 <;> simp [Hart.writeS, hd]

/-- Settles O6, by the laws of short results (`readS_writeS`) and of a hart's update (`setMe`). -/
theorem hardWiredRegisters : Obligations.HardWiredRegisters := by
  unfold Obligations.HardWiredRegisters
  refine ⟨fun h => ⟨State.readS_zero h, State.readM_zero h⟩,
    fun h x y => ⟨State.writeS_zero h x, h.applyWrite_s_zero x, h.applyWrite_m_zero y⟩, fun h d n x hsnap hd => ?_,
    fun s h k => ⟨rfl, rfl, rfl, State.me_setMe s h, State.hartAt_setMe_other s h⟩⟩
  have read := fun n => State.readS_writeS h d n x hsnap hd
  exact ⟨by rw [read, if_pos rfl], fun hn => by rw [read, if_neg hn], h.writeS_frame d x⟩

end Sys2Proof.Machine
end

section
/-!
SUPPORT. How a step comes to issue a word (R17, R43 to R48), and the bookkeeping after it.
-/

namespace Sys2Proof.Machine

/-! ### What a word is -/

theorem wordInstr_of_decode {w : Nat} {i : Instr} (h : decode (payload w) = .ok i) : wordInstr w = some i := by
  simp [wordInstr, h]

theorem wordIs_of_decode {w : Nat} {i : Instr} (p : Instr → Bool) (h : decode (payload w) = .ok i) :
    wordIs p w = p i := by
  simp [wordIs, wordInstr_of_decode h]

namespace State

/-! ### Which of its parts a step takes -/

theorem step_gated {s : State} (ha : s.agenda = []) (hi : s.issuing = true) (hg : s.tick.gated = true) :
    step s = .next s.tick := by
  simp [step, stepOnce, ha, hi, hg]

/-- Where a hart issues and nothing else is asked for, a fetched bundle without a fault issues at the word it stands at. -/
theorem step_issue {s : State} {e : Fetched} (ha : s.agenda = []) (hi : s.issuing = true) (hg : s.tick.gated = false)
    (he : s.atIssue.bundleNow = some e) (hf : e.fault = none) :
    step s = if (s.atIssue.latchBundle e).me.word = 0 then (s.atIssue.latchBundle e).issueFirst e.w0 e.w1
      else (s.atIssue.latchBundle e).issueSecond e.w0 e.w1 := by
  have h : step s = s.tick.ageOthers.issueWord := by simp [step, stepOnce, ha, hi, hg]
  rw [atIssue] at he ⊢
  rw [h]
  simp only [issueWord, he, hf]

@[simp] theorem latchBundle_word (s : State) (e : Fetched) : (s.latchBundle e).me.word = s.me.word := by
  unfold latchBundle
  split <;> simp

/-! ### The word that passes its checks issues -/

/-- A bundle that passes its checks, waits in no `herd` and has room in the return buffer issues. -/
theorem issueFirst_pass {u : State} {w0 w1 : Nat} {i j : Instr} (hi : decode (payload w0) = .ok i)
    (hj : decode (payload w1) = .ok j) (hc : bundleFault u.me u.isDrover w0 w1 u.mySociety.isSome = none)
    (hh : (isHerd i || isHerd j) = false ∨ u.me.herdPassed = true)
    (hr : u.me.entries + wordEntries w0 + wordEntries w1 ≤ 16) :
    let v := u.noteIssue.setMe { u.me with loopWord := isLoop i || isLoop j }
    u.issueFirst w0 w1 = if bit w0 31 then issueLone0 i w0 w1 v else issuePair i j w0 v := by
  have herd : ((wordIs isHerd w0 || wordIs isHerd w1) && !u.me.herdPassed) = false := by
    rw [wordIs_of_decode _ hi, wordIs_of_decode _ hj]
    rcases hh with h | h <;> simp [h]
  have room : ¬ 16 < u.me.entries + wordEntries w0 + wordEntries w1 := by omega
  simp [issueFirst, hc, herd, room, issueBundle, wordInstr_of_decode hi, wordInstr_of_decode hj]

/-- Word 1 of a lone bundle, reached from its word 0, issues unchecked: the bundle has been checked (R50). -/
theorem issueSecond_inOrder {u : State} {w0 w1 : Nat} {i : Instr} (hi : decode (payload w1) = .ok i)
    (hr : u.me.resumed1 = false) : u.issueSecond w0 w1 = issueLone1 i w0 u := by
  simp [issueSecond, hr, wordInstr_of_decode hi]

/-- Word 1 of a lone bundle that `eret` entered issues where it passes its own checks (R383). -/
theorem issueSecond_resumed {u : State} {w0 w1 : Nat} {i : Instr} (hi : decode (payload w1) = .ok i)
    (hr : u.me.resumed1 = true) (hlone : bit w0 31 = true)
    (hc : word1Fault u.me u.isDrover w1 u.mySociety.isSome = none)
    (hh : isHerd i = false ∨ u.me.herdPassed = true) (hroom : u.me.entries + wordEntries w1 ≤ 16) :
    u.issueSecond w0 w1 = issueLone1 i w0 (u.noteIssue.setMe { u.me with loopWord := isLoop i }) := by
  have herd : (wordIs isHerd w1 && !u.me.herdPassed) = false := by
    rw [wordIs_of_decode _ hi]
    rcases hh with h | h <;> simp [h]
  have room : ¬ 16 < u.me.entries + wordEntries w1 := by omega
  simp [issueSecond, hr, hlone, hc, herd, room, wordInstr_of_decode hi]

/-! ### The bookkeeping of a bundle -/

@[simp] theorem noteShort_flow (s : State) (i : Instr) (n : Nat) : (s.noteShort i n).me.flow = s.me.flow := by
  unfold noteShort
  split
  · split <;> simp
  · rfl

/-- A word after which the flow is in sequence, or a taken transfer, has neither waited nor trapped. -/
theorem completed_of_flow {t : State} (h : t.me.flow = .seq ∨ t.me.flow = .taken) (a : Nat) :
    t.waits = false ∧ t.stoppedAt a = false := by
  rcases h with h | h <;> simp [waits, stoppedAt, h]

end State

@[simp] theorem thenDo_next (t : State) (g : State → Host.Outcome State Fault Refusal) : thenDo (.next t) g = g t := rfl

theorem issueLone0_eq (i : Instr) (w0 w1 : Nat) (s : State) :
    issueLone0 i w0 w1 s = thenDo (exec i (s.setMe { s.me with flow := .seq })) (fun t =>
      let u := t.noteShort i (latency s i)
      if t.waits ∨ t.stoppedAt s.me.pc then .next t.yieldSlot
      else if t.me.flow ≠ .seq then .next ((u.retire 1).endBundle (bit w0 30))
      else if w1 = 0 then .next ((u.retire 2).endBundle (bit w0 30))
      else .next ((u.retire 1).keepSlot w1)) := by
  unfold issueLone0 runLone
  refine congrArg (thenDo _) (funext fun t => ?_)
  simp only [State.noteShort_flow]
  by_cases hw : t.waits = true <;> by_cases hp : t.stoppedAt s.me.pc = true <;> simp [hw, hp]

theorem issueLone1_eq (i : Instr) (w0 : Nat) (s : State) :
    issueLone1 i w0 s = thenDo (exec i (s.setMe { s.me with flow := .seq })) (fun t =>
      if t.waits ∨ t.stoppedAt (s.me.pc + 4) then .next t.yieldSlot
      else .next (((t.noteShort i (latency s i)).retire 1).endBundle (bit w0 30))) := by
  unfold issueLone1 runLone
  refine congrArg (thenDo _) (funext fun t => ?_)
  by_cases hw : t.waits = true <;> by_cases hp : t.stoppedAt (s.me.pc + 4) = true <;> simp [hw, hp]

/-- A class C word that neither waits nor traps ends its pair: the class A word's short result and DIVX stand. -/
theorem finishPair_completes {c a : Instr} {w0 n : Nat} {d : Bool} {r v : State} (he : exec c r = .next v)
    (hf : v.me.flow = .seq ∨ v.me.flow = .taken) :
    let w := v.setMe { v.me with snap := none }
    let x := match shortDest a r with
      | some (d, y) => w.shortS d y
      | none => w
    finishPair c a w0 n d r =
      .next ((((withDivx x d).noteShort c 1).noteShort a n |>.retire 2).endBundle (bit w0 30)) := by
  obtain ⟨hw, hp⟩ := State.completed_of_flow hf r.me.pc
  simp only [finishPair, he, thenDo_next, hw, hp, Bool.or_self, Bool.false_eq_true, if_false, if_pos hf] <;> rfl

/-- A pair whose words each go on in sequence (the class C word may be a taken transfer) runs both and then ends. -/
theorem issuePair_completes {c a : Instr} {w0 : Nat} {s t u : State} :
    let h := s.me
    let p := s.setMe { h with snap := some { s := h.s, mstatus := h.mstatus, longs := h.longs.length }, flow := .seq }
    exec c p = .next t → t.me.flow = .seq ∨ t.me.flow = .taken →
    exec a (p.setMe { p.me with mstatus := h.mstatus % 2 ^ 17 }) = .next u → u.me.flow = .seq →
    issuePair c a w0 s = finishPair c a w0 (latency p a) (bit u.me.mstatus 17)
      (u.setMe { u.me with mstatus := u.me.mstatus ||| h.mstatus }) := by
  intro h p hc hft ha hfu
  obtain ⟨hw, hp⟩ := State.completed_of_flow hft h.pc
  change thenDo (exec c p) _ = _
  simp only [hc, thenDo_next]
  change (if (t.waits || t.stoppedAt h.pc) = true then _ else thenDo (exec a (p.setMe { p.me with mstatus := h.mstatus % 2 ^ 17 })) _) = _
  simp only [hw, hp, ha, thenDo_next, hfu, Bool.or_self, Bool.false_eq_true, if_false, ne_eq, not_true_eq_false] <;> rfl

/-- Settles O3: a step is `issueFirst` or `issueSecond` of the fetched bundle, and a word that passes its checks issues. -/
theorem stepRunsTheDecodedWord : Obligations.StepRunsTheDecodedWord := by
  unfold Obligations.StepRunsTheDecodedWord
  refine ⟨?word0, ?word1, fun s => State.step_gated, issueLone0_eq, issueLone1_eq, ?pair⟩
  case word0 =>
    intro s e i j ha hissue hg he hf hword hi hj u hc hh hr v
    rw [State.step_issue ha hissue hg he hf, State.latchBundle_word, if_pos hword]
    exact State.issueFirst_pass hi hj hc hh hr
  case word1 =>
    intro s e i ha hissue hg he hf hword hi u
    have second : step s = u.issueSecond e.w0 e.w1 := by
      rw [State.step_issue ha hissue hg he hf, State.latchBundle_word, if_neg (by omega)]
    rw [second]
    exact ⟨State.issueSecond_inOrder hi, State.issueSecond_resumed hi⟩
  case pair =>
    intro c a w0 s t u v h p hc hft ha hfu r hcr hfv w x
    rw [issuePair_completes hc hft ha hfu]
    exact finishPair_completes hcr hfv

end Sys2Proof.Machine
end

section
/-!
SUPPORT. The marker (R30 to R33, R82, R385): what each entry of a return buffer leaves in the registers, which fields of a
hart the results can change, and how a deferred fault is found and delivered.
-/

namespace Sys2Proof.Machine

/-! ### The registers after the results of a window -/

namespace Hart

/-- Register results change the register files and their dirty bits alone. -/
theorem applyWrite_frame (h : Hart) (w : RegWrite) :
    ∃ s f v m dirty, h.applyWrite w = { h with s := s, f := f, v := v, m := m, dirty := dirty } := by
  cases w with
  | s d x => by_cases hd : d = 0 <;> simp only [applyWrite, writeS, hd, if_true, if_false] <;> exact ⟨_, _, _, _, _, rfl⟩
  | f d x => exact ⟨_, _, _, _, _, rfl⟩
  | v d x => exact ⟨_, _, _, _, _, rfl⟩
  | m d x => by_cases hd : d = 0 <;> simp only [applyWrite, hd, if_true, if_false] <;> exact ⟨_, _, _, _, _, rfl⟩

theorem foldl_applyWrite_frame (l : List RegWrite) : ∀ h : Hart,
    ∃ s f v m dirty, l.foldl applyWrite h = { h with s := s, f := f, v := v, m := m, dirty := dirty } := by
  induction l with
  | nil => exact fun h => ⟨h.s, h.f, h.v, h.m, h.dirty, rfl⟩
  | cons w l ih =>
    intro h
    obtain ⟨_, _, _, _, _, hw⟩ := h.applyWrite_frame w
    obtain ⟨_, _, _, _, _, hl⟩ := ih (h.applyWrite w)
    exact ⟨_, _, _, _, _, by rw [List.foldl_cons, hl, hw]⟩

/-- A window's results change the register files, their dirty bits and the flags alone (R31, R82). -/
theorem writeLongs_frame (l : List LongRes) : ∀ h : Hart, ∃ s f v m dirty fflags mstatus,
    h.writeLongs l =
      { h with s := s, f := f, v := v, m := m, dirty := dirty, fflags := fflags, mstatus := mstatus } := by
  induction l with
  | nil => exact fun h => ⟨h.s, h.f, h.v, h.m, h.dirty, h.fflags, h.mstatus, rfl⟩
  | cons r l ih =>
    intro h
    by_cases hf : r.fault.isSome
    · rw [writeLongs, if_pos hf]; exact ih h
    · obtain ⟨_, _, _, _, _, hw⟩ := foldl_applyWrite_frame r.writes h
      rw [writeLongs, if_neg hf, hw]
      obtain ⟨_, _, _, _, _, _, _, hl⟩ := ih _
      exact ⟨_, _, _, _, _, _, _, hl⟩

end Hart

/-- The last register write, in program order, of a window's results without a fault that `sel` selects. -/
def lastWrite {α : Type} (sel : RegWrite → Option α) (l : List LongRes) : Option α :=
  ((l.filter (fun r => r.fault.isNone)).flatMap (·.writes)).reverse.findSome? sel

section Read
variable {α : Type} {get : Hart → α} {sel : RegWrite → Option α}
  (hget : ∀ h w, get (Hart.applyWrite h w) = (sel w).getD (get h))
include hget

theorem read_foldl_applyWrite (l : List RegWrite) : ∀ h : Hart,
    get (l.foldl Hart.applyWrite h) = (l.reverse.findSome? sel).getD (get h) := by
  induction l with
  | nil => exact fun h => rfl
  | cons w l ih =>
    intro h
    rw [List.foldl_cons, ih, hget, List.reverse_cons, List.findSome?_append]
    cases l.reverse.findSome? sel <;> cases hs : sel w <;> simp [hs]

/-- A value that each register write either sets or leaves is, after a window, the last one that a result without a fault
gave it (R31, R33). -/
theorem read_writeLongs (hflags : ∀ (h : Hart) f m, get { h with fflags := f, mstatus := m } = get h) (l : List LongRes) :
    ∀ h : Hart, get (h.writeLongs l) = (lastWrite sel l).getD (get h) := by
  induction l with
  | nil => exact fun h => rfl
  | cons r l ih =>
    intro h
    by_cases hf : r.fault.isSome
    · have : lastWrite sel (r :: l) = lastWrite sel l := by
        simp [lastWrite, Option.isSome_iff_ne_none.mp hf]
      rw [Hart.writeLongs, if_pos hf, ih, this]
    · have split : lastWrite sel (r :: l) = (lastWrite sel l).or (r.writes.reverse.findSome? sel) := by
        simp only [lastWrite, List.filter_cons, Option.isNone_iff_eq_none, Option.not_isSome_iff_eq_none.mp hf, if_true,
          List.flatMap_cons, List.reverse_append, List.findSome?_append]
      rw [Hart.writeLongs, if_neg hf, ih, hflags, read_foldl_applyWrite hget, split]
      cases lastWrite sel l <;> rfl

end Read

theorem get_set_getD {α : Type} [DecidableEq α] (z : α) (l : Store α) (k d : Nat) (x : α) :
    Store.get z (Store.set z l k x) d = (if k = d then some x else none).getD (Store.get z l d) := by
  by_cases h : k = d
  · simp [h]
  · simp [Store.get_set, h, Ne.symm h]

theorem read_s_writeLongs (h : Hart) (l : List LongRes) {d : Nat} (hd : d ≠ 0) :
    Store.get 0 (h.writeLongs l).s d = (lastWriteS l d).getD (Store.get 0 h.s d) := by
  refine read_writeLongs (get := fun h => Store.get 0 h.s d) (fun h w => ?_) (fun _ _ _ => rfl) l h
  cases w with
  | s k x =>
    by_cases hk : k = 0
    · subst hk; simp [Hart.applyWrite, Hart.writeS, Ne.symm hd]
    · simpa [Hart.applyWrite, Hart.writeS, hk] using get_set_getD 0 h.s k d x
  | f k x => rfl
  | v k x => rfl
  | m k x => by_cases hk : k = 0 <;> simp [Hart.applyWrite, hk]

theorem readF_writeLongs (h : Hart) (l : List LongRes) (d : Nat) :
    (h.writeLongs l).readF d = (lastWriteF l d).getD (h.readF d) := by
  refine read_writeLongs (get := fun h => h.readF d) (fun h w => ?_) (fun _ _ _ => rfl) l h
  cases w with
  | s k x => by_cases hk : k = 0 <;> simp [Hart.applyWrite, Hart.writeS, hk, Hart.readF]
  | f k x => exact get_set_getD 0 h.f k d x
  | v k x => rfl
  | m k x => by_cases hk : k = 0 <;> simp [Hart.applyWrite, hk, Hart.readF]

theorem readV_writeLongs (h : Hart) (l : List LongRes) (d : Nat) :
    (h.writeLongs l).readV d = (lastWriteV l d).getD (h.readV d) := by
  refine read_writeLongs (get := fun h => h.readV d) (fun h w => ?_) (fun _ _ _ => rfl) l h
  cases w with
  | s k x => by_cases hk : k = 0 <;> simp [Hart.applyWrite, Hart.writeS, hk, Hart.readV]
  | f k x => rfl
  | v k x => exact get_set_getD 0 h.v k d x
  | m k x => by_cases hk : k = 0 <;> simp [Hart.applyWrite, hk, Hart.readV]

theorem readM_writeLongs (h : Hart) (l : List LongRes) {d : Nat} (hd : d ≠ 0) :
    (h.writeLongs l).readM d = (lastWriteM l d).getD (h.readM d) := by
  refine read_writeLongs (get := fun h => h.readM d) (fun h w => ?_) (fun h f m => by simp [Hart.readM]) l h
  cases w with
  | s k x => by_cases hk : k = 0 <;> simp [Hart.applyWrite, Hart.writeS, hk, Hart.readM]
  | f k x => simp [Hart.applyWrite, Hart.readM]
  | v k x => simp [Hart.applyWrite, Hart.readM]
  | m k x =>
    by_cases hk : k = 0
    · subst hk; simp [Hart.applyWrite, Ne.symm hd]
    · simpa [Hart.applyWrite, Hart.readM, hd, hk] using get_set_getD 0 h.m k d x

/-- The flags of a window without a fault are ORed in (R82). -/
theorem testBit_fflags_writeLongs (k : Nat) (l : List LongRes) : ∀ h : Hart, (∀ r ∈ l, r.fault = none) →
    (h.writeLongs l).fflags.testBit k = (h.fflags.testBit k || l.any (fun r => r.flags.testBit k)) := by
  induction l with
  | nil => intro h _; simp [Hart.writeLongs]
  | cons r l ih =>
    intro h hl
    have hr : r.fault = none := hl r (List.mem_cons_self ..)
    obtain ⟨_, _, _, _, _, hw⟩ := Hart.foldl_applyWrite_frame r.writes h
    simp only [Hart.writeLongs, hr, Option.isSome_none, Bool.false_eq_true, if_false,
      ih _ (fun x hx => hl x (List.mem_cons_of_mem _ hx)), Nat.testBit_or, List.any_cons, Bool.or_assoc]
    rw [hw]

/-! ### The oldest fault (R385) -/

theorem oldestFault_clean {l : List LongRes} (h : ∀ r ∈ l, r.fault = none) : oldestFault l = none := by
  have : l.filter (fun r => r.fault.isSome) = [] := by
    rw [List.filter_eq_nil_iff]
    intro r hr; simp [h r hr]
  simp [oldestFault, this]

theorem oldestFault_first {l m : List LongRes} {r : LongRes} {c v : Nat} (hl : ∀ q ∈ l, q.fault = none)
    (hr : r.fault = some (c, v)) :
    oldestFault (l ++ r :: m) = some (r.waddr, c, v, m.any (fun q => q.fault.isSome)) := by
  have clean : l.filter (fun r => r.fault.isSome) = [] := by
    rw [List.filter_eq_nil_iff]
    intro r hr; simp [hl r hr]
  have later : (!(m.filter (fun q => q.fault.isSome)).isEmpty) = m.any (fun q => q.fault.isSome) := by
    rw [Bool.eq_iff_iff]; simp [Option.isSome_iff_ne_none]
  simp [oldestFault, List.filter_append, clean, hr, later]

theorem clean_of_oldestFault {l : List LongRes} (h : oldestFault l = none) : ∀ r ∈ l, r.fault = none := by
  intro r hr
  refine Classical.byContradiction fun hf => ?_
  have hm : r ∈ l.filter (fun r => r.fault.isSome) := by
    simpa [hr] using Option.isSome_iff_ne_none.mpr hf
  unfold oldestFault at h
  split at h
  next he => simp [he] at hm
  next q t he =>
    have hq : q ∈ l.filter (fun r => r.fault.isSome) := he ▸ List.mem_cons_self ..
    have := (List.mem_filter.mp hq).2
    split at h
    · cases h
    next hn => simp [hn] at this

/-! ### The marker -/

namespace State

/-- Writing the results changes the hart and, where a tile changes, its core. -/
theorem writeBack_frame (s : State) : ∃ cores, s.writeBack =
    ({ s with cores := cores } : State).setMe
      { s.me.writeLongs s.me.longs with longs := [], parked := false, releaseHeld := 0 } := by
  by_cases h : s.me.longs.all (fun r => r.tiles.isEmpty) = true
  · exact ⟨s.cores, by simp only [writeBack, h, if_true]⟩
  · exact ⟨_, by simp only [writeBack, h]; rfl⟩

@[simp] theorem writeBack_hart (s : State) : s.writeBack.hart = s.hart := by
  obtain ⟨_, h⟩ := s.writeBack_frame; rw [h]; rfl
@[simp] theorem writeBack_mem (s : State) : s.writeBack.mem = s.mem := by
  obtain ⟨_, h⟩ := s.writeBack_frame; rw [h]; rfl
@[simp] theorem writeBack_hub (s : State) : s.writeBack.hub = s.hub := by
  obtain ⟨_, h⟩ := s.writeBack_frame; rw [h]; rfl
@[simp] theorem writeBack_me (s : State) :
    s.writeBack.me = { s.me.writeLongs s.me.longs with longs := [], parked := false, releaseHeld := 0 } := by
  obtain ⟨_, h⟩ := s.writeBack_frame; rw [h, me_setMe]

theorem hartAt_writeBack_other (s : State) {k : Nat} (hk : k ≠ s.hart) : s.writeBack.hartAt k = s.hartAt k := by
  obtain ⟨_, h⟩ := s.writeBack_frame; rw [h]; exact hartAt_setMe_other _ _ hk

/-- The marker of a window without a fault writes its results and does no more. -/
theorem marker_clean {s : State} (h : oldestFault s.me.longs = none) (next : Nat) : s.marker next = s.writeBack := by
  simp [marker, h]

/-- Writing the results leaves how the strand takes its traps. -/
theorem trapsToHandler_writeBack {s : State} (h : s.TrapsToHandler) : s.writeBack.TrapsToHandler := by
  obtain ⟨_, _, _, _, _, _, _, e⟩ := s.me.writeLongs_frame s.me.longs
  simpa [TrapsToHandler, isDrover, e] using h

/-- A long instruction changes its hart alone, outside a pair by an entry at the end of the return buffer (R30, R32). -/
theorem hartAt_long_other (s : State) (w : List RegWrite) (fl : Nat) {k : Nat} (hk : k ≠ s.hart) :
    (s.long w fl).hartAt k = s.hartAt k := hartAt_setMe_other s _ hk

end State

theorem bit_trapStatus (old : Nat) (sup defer dmore : Bool) :
    bit (trapStatus old sup defer dmore) 0 = true ∧ bit (trapStatus old sup defer dmore) 1 = sup ∧
      bit (trapStatus old sup defer dmore) 2 = defer ∧ bit (trapStatus old sup defer dmore) 3 = dmore := by
  cases sup <;> cases defer <;> cases dmore <;>
    simp only [bit, trapStatus, bool1, Nat.testBit_eq_decide_div_mod_eq, decide_eq_true_eq, decide_eq_false_iff_not,
      if_true, if_false, Bool.false_eq_true] <;> omega

/-! ### What the marker does -/

theorem longResultsWaitForTheMarker : LongResultsWaitForTheMarker := by
  intro s w fl hs t
  have hme : t.me = { s.me with
      longs := s.me.longs ++ [{ id := s.me.nextLong, waddr := s.wordAddr, writes := w, flags := fl }],
      nextLong := s.me.nextLong + 1 } := State.me_pushLong_alone s _ hs
  rw [hme]
  exact ⟨rfl, rfl, rfl, rfl, rfl, rfl, rfl, rfl, rfl, rfl, fun k hk => State.hartAt_long_other s w fl hk,
    _, rfl, rfl, rfl, rfl, rfl⟩

theorem markerWritesResultsInProgramOrder : MarkerWritesResultsInProgramOrder := by
  intro s next hclean t
  obtain ⟨_, _, _, _, _, _, _, frame⟩ := s.me.writeLongs_frame s.me.longs
  have ht : t = s.writeBack := State.marker_clean hclean next
  have hme := ht ▸ s.writeBack_me
  rw [hme, ht]
  exact ⟨fun d hd => read_s_writeLongs _ _ hd, fun d => readF_writeLongs _ _ d, fun d => readV_writeLongs _ _ d,
    fun d hd => readM_writeLongs _ _ hd, rfl, rfl,
    fun k => testBit_fflags_writeLongs k _ _ (clean_of_oldestFault hclean), rfl, by rw [frame], s.writeBack_mem,
    s.writeBack_hub, fun k => s.hartAt_writeBack_other⟩

theorem markerDeliversTheOldestFault : MarkerDeliversTheOldestFault := by
  intro s next w c v more hfault hc htraps hslot t
  obtain ⟨_, _, _, _, _, _, _, frame⟩ := s.me.writeLongs_frame s.me.longs
  have ht : t = s.writeBack.enterTrap c w v next 0 true more true := by simp [t, State.marker, hfault]
  rw [ht, State.enterTrap_handler c w v next 0 true more true (State.trapsToHandler_writeBack htraps)
    (by simp [frame, hslot])]
  obtain ⟨hin, hsup, hdefer, hmore⟩ := bit_trapStatus s.writeBack.me.tstatus s.writeBack.me.sup true more
  have kept : s.writeBack.me.sup = s.me.sup ∧ s.writeBack.me.tvec = s.me.tvec := by simp [frame]
  rw [State.me_setMe]
  exact ⟨Nat.mod_eq_of_lt hc, rfl, rfl, rfl, hin, kept.1 ▸ hsup, hdefer, hmore, rfl, kept.2, by simp,
    fun d hd => by simpa using read_s_writeLongs s.me s.me.longs hd, by simp⟩

/-- Settles O22: a window's results are written by `writeLongs`, entry by entry in program order, and the trap of its oldest
fault is entered after them. -/
theorem markerWritesAndDelivers : Obligations.MarkerWritesAndDelivers :=
  ⟨longResultsWaitForTheMarker, markerWritesResultsInProgramOrder, markerDeliversTheOldestFault,
    fun _ => oldestFault_clean, fun _ _ _ _ _ => oldestFault_first⟩

end Sys2Proof.Machine
end

section
/-!
SUPPORT. The lists that the units search: counted ranges, the least by a key, lists in order.
-/

namespace Sys2Proof

theorem mem_upFrom {k n i : Nat} : i ∈ upFrom k n ↔ k ≤ i ∧ i < k + n := by
  induction n generalizing k with
  | zero => simp [upFrom]
  | succ n ih => simp only [upFrom, List.mem_cons, ih]; omega

/-- The least index that a predicate takes is the first that a search upwards finds. -/
theorem find?_upFrom {k n i : Nat} {p : Nat → Bool} (hi : k ≤ i ∧ i < k + n) (hp : p i = true)
    (hl : ∀ j, k ≤ j → j < i → p j = false) : (upFrom k n).find? p = some i := by
  induction n generalizing k with
  | zero => omega
  | succ n ih =>
    rw [upFrom]
    by_cases hk : k = i
    · subst hk; simp [hp]
    · rw [List.find?_cons_of_neg (by simp [hl k (by omega) (by omega)])]
      exact ih (by omega) (fun j hj => hl j (by omega))

/-- A search upwards is decided by the first index at which it finds anything. -/
theorem findSome?_upFrom {α : Type} {k n i : Nat} {p : Nat → Option α} {x : α} (hi : k ≤ i ∧ i < k + n)
    (hp : p i = some x) (hl : ∀ j, k ≤ j → j < i → p j = none) : (upFrom k n).findSome? p = some x := by
  induction n generalizing k with
  | zero => omega
  | succ n ih =>
    rw [upFrom]
    by_cases hk : k = i
    · subst hk; simp [hp]
    · rw [List.findSome?_cons, hl k (by omega) (by omega)]
      exact ih (by omega) (fun j hj => hl j (by omega))

namespace Machine.State

theorem lex_iff_lt (a b : List Nat) : List.lex a b (fun a b => decide (a < b)) = true ↔ List.lt a b := by
  have order : (fun a b : Nat => decide (a < b) = true) = (· < ·) := funext fun _ => funext fun _ => decide_eq_true_eq
  rw [List.lex_eq_true_iff_lex, order]

theorem leastBy_eq_none {α : Type} (key : α → List Nat) {l : List α} : leastBy key l = none ↔ l = [] := by
  cases l with
  | nil => simp [leastBy]
  | cons x t =>
    rw [leastBy]
    split
    · simp
    · split <;> simp

/-- `leastBy` answers an element of the list with the least key, in the order of words from left to right. -/
theorem leastBy_least {α : Type} {key : α → List Nat} {l : List α} {x : α} (h : leastBy key l = some x) :
    x ∈ l ∧ ∀ y ∈ l, List.le (key x) (key y) := by
  induction l generalizing x with
  | nil => cases h
  | cons a t ih =>
    rw [leastBy] at h
    split at h
    next hn =>
      obtain rfl : a = x := by simpa using h
      simp [(leastBy_eq_none key).mp hn]
    next y hy =>
      obtain ⟨hmem, hmin⟩ := ih hy
      simp only [lex_iff_lt, decide_eq_true_eq] at h
      split at h
      next hlt =>
        obtain rfl : y = x := by simpa using h
        refine ⟨.tail _ hmem, ?_⟩
        rintro z (_ | ⟨_, hz⟩)
        · exact List.le_of_lt hlt
        · exact hmin z hz
      next hge =>
        obtain rfl : a = x := by simpa using h
        refine ⟨.head _, ?_⟩
        rintro z (_ | ⟨_, hz⟩)
        · exact List.le_refl _
        · exact List.le_trans (List.not_lt.mp hge) (hmin z hz)

end Machine.State

/-! ### Lists in order -/

theorem perm_insertBy {α : Type} (le : α → α → Bool) (x : α) (l : List α) : (insertBy le x l).Perm (x :: l) := by
  induction l with
  | nil => rfl
  | cons y t ih =>
    rw [insertBy]
    split
    · exact (ih.cons y).trans (.swap x y t)
    · rfl

theorem perm_sortBy {α : Type} (le : α → α → Bool) (l : List α) : (sortBy le l).Perm l := by
  have key : ∀ (l s : List α), (l.foldl (fun s x => insertBy le x s) s).Perm (l ++ s) := by
    intro l
    induction l with
    | nil => exact fun s => .refl s
    | cons x t ih =>
      intro s
      exact (ih _).trans (((perm_insertBy le x s).append_left t).trans List.perm_middle)
  simpa [sortBy] using key l []

end Sys2Proof
end

section
/-!
SUPPORT. CORE_ISSUE (R15, R122, R442): which strand takes a core's issue slot, and what becomes of the ages.
-/

namespace Sys2Proof.Machine

namespace State

theorem exec_coreIssue (s : State) : exec .coreIssue s = execCoreIssue s := rfl

theorem hartAt_setHart_eq (s : State) (k j : Nat) (h : Hart) :
    (s.setHart k h).hartAt j = if j = k then h else s.hartAt j := by
  split
  next hj => rw [hj, hartAt_setHart]
  next hj => exact hartAt_setHart_other s h hj

/-! ### Ready strands -/

theorem mem_readyStrands {s : State} {c j : Nat} {held : List Nat} :
    j ∈ s.readyStrands c held ↔ (decide (j < 4) && s.canIssue (8 * c + j) && !held.contains j) = true := by
  simp [readyStrands, mem_upFrom, and_assoc]

/-- No strand is ready in a cycle in which issue is gated (R442). -/
theorem canIssue_gated {s : State} (hg : s.hub.gating = true) (ho : s.cycle % 2 = 1) (k : Nat) : s.canIssue k = false := by
  simp [canIssue, gated, hg, ho]

/-- A strand is not ready while a word that it issues next reads a short result on its way (R14, R29). -/
theorem canIssue_interlocked {s : State} {k : Nat} (h : s.interlocked k = true) : s.canIssue k = false := by
  simp [canIssue, h]

theorem not_canIssue_late {s : State} {k n : Nat} {e : Fetched} {i : Instr} (hk : k % 8 < 4)
    (hf : (s.hartAt k).fetch.find? (fun e => e.addr == (s.hartAt k).pc) = some e) (hlone : bit e.w0 31 = true)
    (hw : (s.hartAt k).word = 0) (hd : decode (payload e.w0) = .ok i) (hn : n ∈ sources false i)
    (hl : s.cycle < Store.get 0 (s.hartAt k).late n) : s.canIssue k = false := by
  have drover : (k % 8 == 4) = false := by simp; omega
  have now : ({ s with hart := k } : State).bundleNow = some e := by
    simp only [bundleNow, isDrover, drover, Bool.false_and, Bool.false_eq_true, if_false]
    exact hf
  have reads : n ∈ s.nextReads k e := by
    simpa [nextReads, hw, hlone, drover, wordInstr, hd] using hn
  have late : (s.hartAt k).late.isEmpty = false := by
    cases h : (s.hartAt k).late with
    | nil => simp [h] at hl
    | cons => rfl
  apply canIssue_interlocked
  rw [interlocked, now, late]
  simpa [lateReads] using ⟨n, reads, hl⟩

/-! ### The choice of the strand -/

theorem pickStrand_eq_none {s : State} {c : Nat} : s.pickStrand c [] = none := rfl

/-- The order of two-word keys. -/
theorem pair_le {a b x y : Nat} : List.le [a, b] [x, y] ↔ a < x ∨ a = x ∧ b ≤ y := by
  change ¬List.Lex (· < ·) [x, y] [a, b] ↔ _
  simp only [List.cons_lex_cons_iff, List.not_lex_nil, and_false, or_false]
  omega

/-- While a strand is aged, the slot goes to the one that has waited longest, the lowest of equals (R15). -/
theorem pickStrand_aged {s : State} {c j : Nat} {ready : List Nat} (h : s.pickStrand c ready = some j)
    (ha : ∃ i ∈ ready, 192 ≤ (s.hartAt (8 * c + i)).age) (hb : ∀ i ∈ ready, (s.hartAt (8 * c + i)).age < 200000) :
    192 ≤ (s.hartAt (8 * c + j)).age ∧ ∀ i ∈ ready, (s.hartAt (8 * c + i)).age ≤ (s.hartAt (8 * c + j)).age ∧
      ((s.hartAt (8 * c + i)).age = (s.hartAt (8 * c + j)).age → j ≤ i) := by
  simp only [pickStrand] at h
  split at h
  next x hx =>
    obtain rfl : x = j := by simpa using h
    obtain ⟨hmem, hmin⟩ := leastBy_least hx
    obtain ⟨hready, hage⟩ : x ∈ ready ∧ 192 ≤ (s.hartAt (8 * c + x)).age := by simpa using hmem
    refine ⟨hage, fun i hi => ?_⟩
    by_cases hi' : 192 ≤ (s.hartAt (8 * c + i)).age
    · have := pair_le.mp (hmin i (by simp [hi, hi']))
      have := hb i hi
      have := hb x hready
      omega
    · omega
  next hnone =>
    obtain ⟨i, hi, hage⟩ := ha
    have := (leastBy_eq_none _).mp hnone
    rw [List.filter_eq_nil_iff] at this
    exact absurd hage (by simpa using this i hi)

/-- Where no strand is aged, the slot goes to the highest class, in turn within it (R15). -/
theorem pickStrand_class {s : State} {c j : Nat} {ready : List Nat} (h : s.pickStrand c ready = some j)
    (ha : ∀ i ∈ ready, (s.hartAt (8 * c + i)).age < 192) (hb : ∀ i ∈ ready, (s.hartAt (8 * c + i)).cls < 8) :
    let turn := fun (j : Nat) => (j + 4 - (s.coreAt c).rrClass.getD (s.hartAt (8 * c + j)).cls 0) % 4
    ∀ i ∈ ready, (s.hartAt (8 * c + i)).cls ≤ (s.hartAt (8 * c + j)).cls ∧
      ((s.hartAt (8 * c + i)).cls = (s.hartAt (8 * c + j)).cls → turn j ≤ turn i) := by
  have none : ready.filter (fun j => decide (192 ≤ (s.hartAt (8 * c + j)).age)) = [] := by
    rw [List.filter_eq_nil_iff]
    intro i hi
    simpa using ha i hi
  simp only [pickStrand, none, leastBy] at h
  obtain ⟨hmem, hmin⟩ := leastBy_least h
  intro turn i hi
  have key : 8 - (s.hartAt (8 * c + j)).cls < 8 - (s.hartAt (8 * c + i)).cls ∨
      8 - (s.hartAt (8 * c + j)).cls = 8 - (s.hartAt (8 * c + i)).cls ∧ turn j ≤ turn i := pair_le.mp (hmin i hi)
  have := hb i hi
  have := hb j hmem
  omega

theorem pickStrand_mem {s : State} {c j : Nat} {ready : List Nat} (h : s.pickStrand c ready = some j) : j ∈ ready := by
  simp only [pickStrand] at h
  split at h
  next x hx =>
    obtain rfl : x = j := by simpa using h
    exact (List.mem_filter.mp (leastBy_least hx).1).1
  next => exact (leastBy_least h).1

theorem pickStrand_isSome {s : State} {c : Nat} {ready : List Nat} (h : ready ≠ []) : ∃ j, s.pickStrand c ready = some j := by
  rw [← Option.isSome_iff_exists, Option.isSome_iff_ne_none]
  intro hnone
  simp only [pickStrand] at hnone
  split at hnone
  · cases hnone
  · exact h ((leastBy_eq_none _).mp hnone)

/-! ### The slot taken -/

/-- Steps that each change one hart change the harts alone. -/
theorem foldl_harts_frame {f : State → Nat → State} (hf : ∀ s k, ∃ harts, f s k = { s with harts := harts })
    (l : List Nat) : ∀ s : State, ∃ harts, l.foldl f s = { s with harts := harts } := by
  induction l with
  | nil => exact fun s => ⟨s.harts, rfl⟩
  | cons k l ih =>
    intro s
    obtain ⟨_, hk⟩ := hf s k
    obtain ⟨_, hl⟩ := ih (f s k)
    exact ⟨_, by rw [List.foldl_cons, hl, hk]⟩

theorem ageStrands_frame (s : State) (c : Nat) (ready : List Nat) (j : Nat) :
    ∃ harts, s.ageStrands c ready j = { s with harts := harts } := foldl_harts_frame (fun _ _ => ⟨_, rfl⟩) _ s

/-- Taking the slot changes the harts, the core's turn, and who issues. -/
theorem takeSlot_frame (s : State) (c : Nat) (ready : List Nat) (j : Nat) : ∃ cores, s.takeSlot c ready j =
    { s.ageStrands c ready j with cores := cores, hart := 8 * c + j, issuing := true } := ⟨_, rfl⟩

/-- Steps that each rewrite one hart of a list, by a function of that hart: each hart of the list is rewritten once. -/
theorem hartAt_foldl_once {f : State → Nat → State} {key : Nat → Nat} {g : Nat → Hart → Hart}
    (hf : ∀ s i, f s i = s.setHart (key i) (g i (s.hartAt (key i)))) (hk : ∀ i j, key i = key j → i = j) (i : Nat) :
    ∀ (l : List Nat) (s : State), l.Nodup →
      (l.foldl f s).hartAt (key i) = if i ∈ l then g i (s.hartAt (key i)) else s.hartAt (key i) := by
  intro l
  induction l with
  | nil => exact fun s _ => rfl
  | cons j l ih =>
    intro s hl
    obtain ⟨hj, hl⟩ := List.nodup_cons.mp hl
    rw [List.foldl_cons, ih _ hl, hf, hartAt_setHart_eq]
    by_cases hij : i = j
    · subst hij; simp only [hj, if_true, if_false, List.mem_cons, true_or]
    · have : key i ≠ key j := fun h => hij (hk i j h)
      simp only [this, hij, if_false, List.mem_cons, false_or]

theorem hartAt_ageStrands (s : State) (c : Nat) (ready : List Nat) (j : Nat) {i : Nat} (hi : i < 4) :
    (s.ageStrands c ready j).hartAt (8 * c + i) = { s.hartAt (8 * c + i) with
      age := if i = j ∨ !ready.contains i then 0 else (s.hartAt (8 * c + i)).age + 1 } := by
  have mem : i ∈ upFrom 0 4 := mem_upFrom.mpr ⟨Nat.zero_le i, by omega⟩
  have nodup : (upFrom 0 4).Nodup := by decide
  have aged := hartAt_foldl_once (key := fun i => 8 * c + i)
    (g := fun i h => { h with age := if i = j ∨ !ready.contains i then 0 else h.age + 1 }) (fun _ _ => rfl)
    (fun _ _ => Nat.add_left_cancel) i (upFrom 0 4) s nodup
  rwa [if_pos mem] at aged

/-- What CORE_ISSUE does for a ready strand: it holds the slot, and the ages move. -/
theorem coreIssue_takes {s : State} {j : Nat} (hs : s.issuing = false) (h4 : s.ev.strand ≠ 4)
    (hj : s.pickStrand s.ev.core (s.readyStrands s.ev.core s.ev.list) = some j) (hj4 : j < 4) :
    ∃ t : State, exec .coreIssue s = .next t ∧ t.hart = 8 * s.ev.core + j ∧ t.issuing = true ∧
      (∀ i, i < 4 → (t.hartAt (8 * s.ev.core + i)).age =
        if i = j ∨ !(s.readyStrands s.ev.core s.ev.list).contains i then 0 else (s.hartAt (8 * s.ev.core + i)).age + 1) ∧
      t.mem = s.mem ∧ t.hub = s.hub ∧ t.clusters = s.clusters := by
  have age := fun i (hi : i < 4) => hartAt_ageStrands s s.ev.core (s.readyStrands s.ev.core s.ev.list) j hi
  obtain ⟨_, hframe⟩ := ageStrands_frame s s.ev.core (s.readyStrands s.ev.core s.ev.list) j
  obtain ⟨_, htake⟩ := takeSlot_frame s s.ev.core (s.readyStrands s.ev.core s.ev.list) j
  rw [exec_coreIssue, execCoreIssue]
  simp only [hs, h4, hj, htake, Bool.false_eq_true, if_false]
  rw [hframe] at age ⊢
  split
  next => exact ⟨_, rfl, rfl, rfl, fun i hi => congrArg Hart.age (age i hi), rfl, rfl, rfl⟩
  next =>
    refine ⟨_, rfl, rfl, rfl, fun i hi => ?_, rfl, rfl, rfl⟩
    rw [setMe, hartAt_setHart_eq]
    split
    next he =>
      obtain rfl : i = j := Nat.add_left_cancel he
      exact congrArg Hart.age (age i hi)
    next => exact congrArg Hart.age (age i hi)

theorem coreIssue_none {s : State} (hs : s.issuing = false) (h4 : s.ev.strand ≠ 4)
    (hr : s.readyStrands s.ev.core s.ev.list = []) : exec .coreIssue s = .next s := by
  rw [exec_coreIssue, execCoreIssue]
  simp only [hs, h4, hr, pickStrand_eq_none, Bool.false_eq_true, if_false]

/-- The drover's own path (R122). -/
theorem coreIssue_drover {s : State} (hs : s.issuing = false) (h4 : s.ev.strand = 4)
    (hw : (s.coreAt s.ev.core).mailWait = none) (ho : (s.hartAt (8 * s.ev.core + 4)).occ = true)
    (hh : (s.hartAt (8 * s.ev.core + 4)).halted = false) (hp : (s.hartAt (8 * s.ev.core + 4)).parked = false)
    (hf : s.flockIssues (8 * s.ev.core + 4) = true) (hi : s.interlocked (8 * s.ev.core + 4) = false)
    (hg : s.gated = false) (hj : (s.coreAt s.ev.core).mailbox = none ∨ (s.coreAt s.ev.core).joins = []) :
    exec .coreIssue s = .next { s with hart := 8 * s.ev.core + 4, issuing := true } := by
  have join : ((s.coreAt s.ev.core).mailbox.isSome && !(s.coreAt s.ev.core).joins.isEmpty) = false := by
    rcases hj with h | h <;> simp [h]
  rw [exec_coreIssue, execCoreIssue]
  simp only [hs, h4, hw, join, ho, hh, hp, hf, hi, hg, if_true, Bool.false_eq_true, if_false, Bool.not_false, Bool.and_self]

end State

theorem issueSlotGoesToOneStrand : IssueSlotGoesToOneStrand := by
  intro s hs c h ready turn
  have isReady : ∀ j, j ∈ s.readyStrands c s.ev.list ↔ ready j = true := fun j => State.mem_readyStrands
  have none_ready (hn : ∀ j, ready j = false) : s.readyStrands c s.ev.list = [] :=
    List.eq_nil_iff_forall_not_mem.mpr fun j hj => by simpa [hn j] using (isReady j).mp hj
  refine ⟨fun h4 hn => State.coreIssue_none hs h4 (none_ready hn), fun h4 hex hb => ?_, fun h4 hw ho hh hp hf hi hg hj =>
    State.coreIssue_drover hs h4 hw ho hh hp hf hi hg hj, fun hg ho => ⟨State.canIssue_gated hg ho, fun h4 => ?_⟩,
    fun k n e i hk hf hlone hw hd hn hl => State.not_canIssue_late hk hf hlone hw hd hn hl⟩
  · obtain ⟨i, hi⟩ := hex
    obtain ⟨j, hj⟩ := State.pickStrand_isSome (s := s) (c := c) (List.ne_nil_of_mem ((isReady i).mpr hi))
    have hready := State.pickStrand_mem hj
    have lt4 : ∀ i ∈ s.readyStrands c s.ev.list, i < 4 := fun i hi => by
      have := (isReady i).mp hi
      simp only [ready, Bool.and_eq_true, decide_eq_true_eq] at this
      exact this.1.1
    obtain ⟨t, ht, hhart, hissue, hage, hmem, hhub, hcl⟩ := State.coreIssue_takes hs h4 hj (lt4 j hready)
    refine ⟨j, t, ht, (isReady j).mp hready, hhart, hissue, fun ⟨i, hi, ha⟩ => ?_, fun ha i hi => ?_, fun i hi => ?_,
      hmem, hhub, hcl⟩
    · obtain ⟨haged, hmin⟩ := State.pickStrand_aged hj ⟨i, (isReady i).mpr hi, ha⟩ (fun i hi => (hb i (lt4 i hi)).1)
      exact ⟨haged, fun i hi => hmin i ((isReady i).mpr hi)⟩
    · exact State.pickStrand_class hj (fun i hi => ha i ((isReady i).mp hi)) (fun i hi => (hb i (lt4 i hi)).2) i
        ((isReady i).mpr hi)
    · rw [hage i hi]
      by_cases hij : i = j
      · simp [hij]
      · by_cases hr : ready i = true
        · simp [hij, hr, (isReady i).mpr hr, h, c]
        · have : i ∉ s.readyStrands c s.ev.list := fun h => hr ((isReady i).mp h)
          simp [hr, this, c]
  · exact State.coreIssue_none hs h4 (none_ready fun j => by simp [ready, State.canIssue_gated hg ho])

end Sys2Proof.Machine
end

section
/-!
SUPPORT. Fetch (R19, R90, R241): the request that a cluster's port serves next, what its block brings, and how a missing line
is read from a page of this package's memory.
-/

namespace Sys2Proof.Machine

/-- A hart whose fetch has been answered: the bundles of its block, or the lease fault that waits for its issue (R90). -/
def Hart.receive (h : Hart) (ok : Bool) (line : List Nat) : Hart :=
  { h with fetch := if ok then State.bundlesFrom h.pc line
    else [{ addr := h.pc, w0 := 0, w1 := 0, fault := some (0x05, h.pc) }] }

namespace State

/-- Steps that each rewrite one hart by a function of that hart, which acts once only: every hart of the list is rewritten. -/
theorem hartAt_foldl {f : State → Nat → State} {g : Nat → Hart → Hart} {P : State → Prop}
    (hf : ∀ s k, P s → f s k = s.setHart k (g k (s.hartAt k)) ∧ P (f s k)) (hg : ∀ k h, g k (g k h) = g k h)
    (l : List Nat) (j : Nat) : ∀ s : State, P s →
      (l.foldl f s).hartAt j = if j ∈ l then g j (s.hartAt j) else s.hartAt j := by
  induction l with
  | nil => intro s _; simp
  | cons k l ih =>
    intro s hs
    obtain ⟨hk, hp⟩ := hf s k hs
    rw [List.foldl_cons, ih _ hp, hk, hartAt_setHart_eq]
    by_cases hjk : j = k
    · subst hjk; simp [hg]
    · simp [hjk]

/-! ### Requests -/

/-- A strand of a cluster that asks for a bundle of a line in the cluster's cache (R19). -/
def asks (s : State) (cl k : Nat) : Bool := s.wantsFetch k && s.cached cl (s.hartAt k).asid (s.hartAt k).pc

theorem mem_fetchers {s : State} {cl asid a w k : Nat} : k ∈ s.fetchers cl asid a w ↔
    k / 128 = cl ∧ s.wantsFetch k = true ∧ (s.hartAt k).asid = asid ∧ (s.hartAt k).pc / 2 ^ w = a / 2 ^ w := by
  simp only [fetchers, List.mem_filter, List.mem_flatMap, mem_upFrom, Bool.and_eq_true, beq_iff_eq, and_assoc]
  constructor
  · rintro ⟨⟨c, hc⟩, hrest⟩; exact ⟨by omega, hrest⟩
  · rintro ⟨hcl, hw, hrest⟩
    have : k % 8 < 4 := by
      simp only [wantsFetch, Bool.and_eq_true, decide_eq_true_eq] at hw; exact hw.1.1.1
    exact ⟨⟨k / 8, by omega⟩, hw, hrest⟩

/-- The port serves the request whose core is next in turn, of its strands the lowest (R19; log 84). -/
theorem nextFetch_first {s : State} {cl i : Nat} (hcl : i / 128 = cl) (h4 : i % 8 < 4) (hi : s.asks cl i = true)
    (hrr : (s.clusterAt cl).fetchRr < 16)
    (hmin : ∀ j, j / 128 = cl → s.asks cl j = true →
      (i / 8 + 16 - (s.clusterAt cl).fetchRr) % 16 < (j / 8 + 16 - (s.clusterAt cl).fetchRr) % 16 ∨
      ((i / 8 + 16 - (s.clusterAt cl).fetchRr) % 16 = (j / 8 + 16 - (s.clusterAt cl).fetchRr) % 16 ∧ i ≤ j)) :
    s.nextFetch cl = some i := by
  refine findSome?_upFrom (i := (i / 8 + 16 - (s.clusterAt cl).fetchRr) % 16) (by omega) ?_ (fun t _ ht => ?_)
  · refine find?_upFrom (by omega) hi (fun j hj hji => ?_)
    refine Classical.byContradiction fun hask => ?_
    have := hmin j (by omega) (Bool.of_not_eq_false hask)
    omega
  · rw [List.find?_eq_none]
    intro j hj hask
    rw [mem_upFrom] at hj
    have := hmin j (by omega) hask
    omega

/-! ### The block -/

theorem mayFetch_setFetch (s : State) (k j : Nat) (l : List Fetched) :
    (s.setHart k { s.hartAt k with fetch := l }).mayFetch j = s.mayFetch j := by
  by_cases hj : j = k
  · subst hj; simp [mayFetch, whoHart, launchOf, launchAt]
  · simp [mayFetch, whoHart, launchOf, launchAt, hartAt_setHart_eq, hj]

theorem deliverBlock_eq (s : State) (k : Nat) (line : List Nat) :
    s.deliverBlock k line = s.setHart k ((s.hartAt k).receive (s.mayFetch k) line) := by
  unfold deliverBlock failFetch Hart.receive
  cases s.mayFetch k <;> rfl

theorem hartAt_deliverBlocks (s : State) (l : List Nat) (line : List Nat) (j : Nat) :
    (l.foldl (fun s k => s.deliverBlock k line) s).hartAt j =
      if j ∈ l then (s.hartAt j).receive (s.mayFetch j) line else s.hartAt j := by
  refine hartAt_foldl (P := fun t => ∀ j, t.mayFetch j = s.mayFetch j) (g := fun k h => h.receive (s.mayFetch k) line)
    (fun t k ht => ?_) (fun _ _ => rfl) l j s (fun _ => rfl)
  rw [deliverBlock_eq, ht k]
  exact ⟨rfl, fun j => (mayFetch_setFetch t k j _).trans (ht j)⟩

theorem exec_fetchBlockDeliver (s : State) : exec .fetchBlockDeliver s = execFetchBlockDeliver s := rfl

/-- FETCH_BLOCK_DELIVER serves one request: every strand that waits for its block is answered, and the turn moves on. -/
theorem fetchBlockDeliver_serves {s : State} {i : Nat} {asid n : Nat} {line : List Nat} (hi : s.nextFetch s.ev.core = some i)
    (hl : (s.clusterAt s.ev.core).icache.find? (fun l => l.1 == (s.hartAt i).asid && l.2.1 == (s.hartAt i).pc / 64) =
      some (asid, n, line)) :
    ∃ t : State, exec .fetchBlockDeliver s = .next t ∧ (t.clusterAt s.ev.core).fetchRr = (i / 8 + 1) % 16 ∧
      (∀ j, t.hartAt j = if j ∈ s.fetchers s.ev.core (s.hartAt i).asid (s.hartAt i).pc 5
        then (s.hartAt j).receive (s.mayFetch j) line else s.hartAt j) ∧ t.mem = s.mem := by
  obtain ⟨_, hframe⟩ := foldl_harts_frame (f := fun s k => s.deliverBlock k line)
    (fun s k => ⟨_, deliverBlock_eq s k line⟩) (s.fetchers s.ev.core (s.hartAt i).asid (s.hartAt i).pc 5) s
  rw [exec_fetchBlockDeliver, execFetchBlockDeliver]
  simp only [hi, hl]
  refine ⟨_, rfl, by rw [clusterAt_setCluster], hartAt_deliverBlocks s _ line, ?_⟩
  rw [hframe]; rfl

/-! ### A line from memory -/

theorem find?_and {α : Type} {p q : α → Bool} {l : List α} {x : α} (h : l.find? p = some x) (hq : q x = true) :
    l.find? (fun y => p y && q y) = some x := by
  rw [List.find?_eq_some_iff_append] at h ⊢
  obtain ⟨hp, l1, l2, rfl, hn⟩ := h
  refine ⟨by simp [hp, hq], l1, l2, rfl, fun y hy => ?_⟩
  have : p y = false := by simpa using hn y hy
  simp [this]

/-- A leaf of a base page of this package's HBM at a frame. -/
structure LocalLeaf (s : State) (e f : Nat) : Prop where
  type : bits e 9 2 = 0
  frame : bits e 16 44 = f
  own : f / 2 ^ 29 = s.hub.pkg
  hbm : f % 2 ^ 29 < 2 ^ 23
  paddock : s.inPaddock s.hub.pkg = true

/-- The places of a page of this package's HBM: nothing is between them and their readers. -/
theorem place_of_frame {s : State} {e f : Nat} (h : s.LocalLeaf e f) (va : Nat) :
    leafPlace e va false = placeIn f va ∧ s.remote (placeIn f va) = false ∧
      (s.hub.fenced = [] → s.homeLost (placeIn f va) = false) := by
  obtain ⟨htype, hframe, hown, hhbm, _⟩ := h
  have pkg : pkgOfPlace (placeIn f va) = s.hub.pkg := by
    rw [← hown, pkgOfPlace, placeIn]; omega
  have tier : localTier (localOfPlace (placeIn f va)) = 1 := by
    rw [localTier, if_pos]
    rw [localOfPlace, placeIn]; omega
  refine ⟨by simp [leafPlace, htype, entryPage, hframe, placeIn], by simp [remote, pkg], fun hf => ?_⟩
  exact homeLost_own s pkg (by omega) (by simp [hf])

/-- A leaf of such a page leads into the paddock. -/
theorem leafReaches_localLeaf {s : State} {e f : Nat} (h : s.LocalLeaf e f) : s.leafReaches e = true := by
  obtain ⟨htype, hframe, hown, _, hpaddock⟩ := h
  have pkg : pkgOfPlace (entryPage e) = s.hub.pkg := by rw [pkgOfPlace, entryPage, hframe, ← hown]; omega
  rw [leafReaches, if_neg (by omega), pkg, hpaddock]

/-- A micro-TLB entry that translates a read is used as it stands (R233). -/
theorem translate_hit {s : State} {core asid va : Nat} {t : Tlb}
    (ht : s.tlbs.find? (fun t => t.kind == 0 && t.unit == core && t.covers asid va) = some t)
    (hr : s.leafReaches t.entry = true) : s.translate core asid va false = .ok (s, some (t.entry, t.large)) := by
  have hit : s.tlbs.find? (fun t => t.kind == 0 && t.unit == core && t.covers asid va && s.leafReaches t.entry) = some t :=
    find?_and ht hr
  rw [translate]
  simp only [Bool.not_false, Bool.true_or, Bool.and_true, hit]

/-- The pieces of a line: the line. -/
theorem pagePieces_line (a : Nat) : pagePieces (a / 64 * 64) 64 = [(a / 64 * 64, 64)] := by
  have one : (a / 64 * 64 % 65536 + 64 + 65535) / 65536 = 1 := by omega
  have lo : max (a / 64 * 64) (65536 * (a / 64 * 64 / 65536)) = a / 64 * 64 := by omega
  have n : min (a / 64 * 64 + 64) (65536 * (a / 64 * 64 / 65536) + 65536) - a / 64 * 64 = 64 := by omega
  simp only [pagePieces, one, upFrom, List.map_cons, List.map_nil, lo, n]

/-- A line of an executable page of this package's HBM is read as it stands there (R19, R90). -/
theorem readLine_page {s : State} {cl asid a f : Nat} {t : Tlb} (hq : s.QuietMemory) (ha : a < 2 ^ 55)
    (ht : s.tlbs.find? (fun t => t.kind == 0 && t.unit == 16 * cl && t.covers asid (a / 64 * 64)) = some t)
    (hsmall : t.large = false) (hleaf : s.LocalLeaf t.entry f) (hx : bit t.entry 3 = true) :
    s.readLine cl asid a = .ok (s, s.bytesAt (placeIn f (a / 64 * 64)) 64) := by
  obtain ⟨hstores, hatomics, hnears, hpoison, hfenced, hmoves, hagist, hck⟩ := hq
  obtain ⟨hplace, hremote, hlost⟩ := place_of_frame hleaf (a / 64 * 64)
  have virtual : s.resolve (128 * cl) (a / 64 * 64) = some (.virtual_ (a / 64 * 64)) := by
    have h1 : bits (a / 64 * 64) 56 8 = 0 := by rw [bits, Nat.shiftRight_eq_div_pow]; omega
    have h2 : bits (a / 64 * 64) 0 56 = a / 64 * 64 := by rw [bits, Nat.shiftRight_zero]; omega
    simp only [resolve, h1, h2, if_true]
    rw [if_pos (by omega)]
  have type : Chunk.type ⟨placeIn f (a / 64 * 64), 64, t.entry⟩ = 0 := hleaf.type
  have allowed : s.chunkAllowed (s.whoFetch cl asid) .fetch ⟨placeIn f (a / 64 * 64), 64, t.entry⟩ = true := by
    have accepted : Form.fetch.accepted 0 = true := rfl
    simp [chunkAllowed, Form.reads, Form.writes, Form.atomic, type, accepted, hx]
  have checked : s.check (s.whoFetch cl asid) .fetch (a / 64 * 64) 64 64 =
      .ok (s, [⟨placeIn f (a / 64 * 64), 64, t.entry⟩]) := by
    have core : (s.whoFetch cl asid).hart / 8 = 16 * cl := by simp only [whoFetch]; omega
    have range : ¬ 2 ^ 55 < a / 64 * 64 + 64 := by omega
    have hart : (s.whoFetch cl asid).hart = 128 * cl := rfl
    have noLease : (s.whoFetch cl asid).leases = none := rfl
    have asid' : (s.whoFetch cl asid).asid = asid := rfl
    simp only [check, Nat.mul_mod_left, ne_eq, not_true_eq_false, if_false, hart, virtual, range, noLease, chunks,
      pagePieces_line, translateAll, asid', Form.writes]
    rw [show 128 * cl / 8 = 16 * cl by omega, translate_hit ht (leafReaches_localLeaf hleaf), hsmall]
    simp only [bind, Except.bind, hplace, List.all_cons, List.all_nil, allowed, List.any_cons, List.any_nil, pageWaits,
      hmoves, Bool.and_false, Bool.or_self, Bool.and_self, Bool.not_true, Bool.false_eq_true, if_false,
      show ¬ (64 = 0) by omega]
  have replicas : s.replicas ⟨placeIn f (a / 64 * 64), 64, t.entry⟩ = [placeIn f (a / 64 * 64)] := by
    simp [State.replicas, type]
  have free : s.readHeld [⟨placeIn f (a / 64 * 64), 64, t.entry⟩] = false := by
    simp [readHeld, pathBusy, replicas, placeBusy, noCredit, hremote]
  have good : s.chunkBad ⟨placeIn f (a / 64 * 64), 64, t.entry⟩ = false := by
    simp [chunkBad, replicas, poisoned, hpoison, hlost hfenced]
  simp [readLine, checked, bind, Except.bind, free, checkData, good, readChunks, readChunk, type]

theorem exec_icacheMissFill (s : State) : exec .icacheMissFill s = execIcacheMissFill s := rfl

/-- ICACHE_MISS_FILL, where no ECC event comes with the line, fills the line that it reads. -/
theorem icacheMissFill_fills {s t : State} {l : List Nat} (hf : s.fetchers s.ev.core s.ev.val s.ev.addr 6 ≠ [])
    (he : s.ev.ecc = 0) (hr : s.readLine s.ev.core s.ev.val s.ev.addr = .ok (t, l)) :
    exec .icacheMissFill s = .next (t.fillLine s.ev.core s.ev.val s.ev.addr l) := by
  rw [exec_icacheMissFill, execIcacheMissFill]
  simp only [List.isEmpty_iff, hf, eccAddr, he, hr, if_true, if_false]

end State

end Sys2Proof.Machine
end

section
/-!
SUPPORT. The steps of a strand besides its issue: its age, fetch, `herd` and the return of long results (R15, R19, R20, R31).
-/

namespace Sys2Proof.Machine

namespace State

theorem exec_strandAged (s : State) : exec .strandAged s = execStrandAged s := rfl
theorem exec_herdTimeout (s : State) : exec .herdTimeout s = execHerdTimeout s := rfl
theorem exec_herdRelease (s : State) : exec .herdRelease s = execHerdRelease s := rfl
theorem exec_longResultReturn (s : State) : exec .longResultReturn s = execLongResultReturn s := rfl

/-! ### Fetch, from the strands that wait -/

/-- A strand asks for the bundle at its PC when it is occupied, not stopped, and its buffer does not hold it (R19). -/
theorem wantsFetch_iff {s : State} {k : Nat} : s.wantsFetch k = true ↔
    k % 8 < 4 ∧ (s.hartAt k).occ = true ∧ (s.hartAt k).halted = false ∧ ∀ e ∈ (s.hartAt k).fetch, e.addr ≠ (s.hartAt k).pc := by
  simp [wantsFetch, Hart.buffered, and_assoc]

theorem asks_iff {s : State} {cl k : Nat} : s.asks cl k = true ↔ s.wantsFetch k = true ∧
    (s.clusterAt cl).icache.find? (fun l => l.1 == (s.hartAt k).asid && l.2.1 == (s.hartAt k).pc / 64) ≠ none := by
  simp [asks, cached, List.find?_eq_none]

/-! ### `herd` (R20) -/

theorem hartAt_herdGo (s : State) (l : List Nat) (j : Nat) : (l.foldl herdGo s).hartAt j =
    if j ∈ l then { s.hartAt j with herd := none, herdPassed := true } else s.hartAt j :=
  hartAt_foldl (P := fun _ => True) (g := fun _ h => { h with herd := none, herdPassed := true })
    (fun _ _ _ => ⟨rfl, trivial⟩) (fun _ _ => rfl) l j s trivial

/-- HERD_RELEASE, where every occupied strand of the flock waits at one `herd`: all go on. -/
theorem herdRelease_releases {s : State} (hh : (s.hartAt s.evHart).herd ≠ none)
    (hm : ∀ j ∈ s.flockMates s.evHart, (s.hartAt j).herd ≠ none ∧ (s.hartAt j).pc = (s.hartAt s.evHart).pc ∧
      (s.hartAt j).asid = (s.hartAt s.evHart).asid) :
    exec .herdRelease s = .next ((s.flockMates s.evHart).foldl herdGo s) := by
  have ready : ((s.hartAt s.evHart).herd.isSome && (s.flockMates s.evHart).all (fun j =>
      (s.hartAt j).herd.isSome && (s.hartAt j).pc == (s.hartAt s.evHart).pc &&
        (s.hartAt j).asid == (s.hartAt s.evHart).asid)) = true := by
    simp only [Bool.and_eq_true, List.all_eq_true, beq_iff_eq, Option.isSome_iff_ne_none, and_assoc]
    exact ⟨hh, hm⟩
  rw [exec_herdRelease, execHerdRelease]
  simp only [ready, if_true]

/-! ### Long results (R31) -/

section Return
variable {s : State} {l m : List LongRes} {r : LongRes}
  (hl : (s.hartAt s.evHart).longs = l ++ r :: m) (hi : s.ev.idx = l.length) (hq : r.queued = false) (hr : r.returned = false)
include hl hi hq hr

/-- LONG_RESULT_RETURN brings the entry of its index back as `x`, what becomes of it on its way; where the hart is parked and
waits for no other, the marker follows. -/
theorem longResultReturn_eq {x : LongRes} (hx : (if s.ev.aux = 0 then (s, r) else s.returning s.evHart r) = (s, x)) :
    let t := s.setHart s.evHart { s.hartAt s.evHart with longs := l ++ { x with returned := true } :: m }
    exec .longResultReturn s = .next (if (s.hartAt s.evHart).parked && (l ++ { x with returned := true } :: m).all (fun r => r.returned)
      then t.onHart s.evHart (fun u => u.marker u.wordAddr) else t) := by
  have entry : (s.hartAt s.evHart).longs[s.ev.idx]? = some r := by simp [hl, hi]
  have put : setNth (s.hartAt s.evHart).longs s.ev.idx { x with returned := true } =
      l ++ { x with returned := true } :: m := by simp [setNth, hl, hi]
  rw [exec_longResultReturn, execLongResultReturn]
  simp only [entry, hq, hr, hx, put, Bool.or_self, Bool.false_eq_true, if_false]

theorem longResultReturn_waits {x : LongRes} (hx : (if s.ev.aux = 0 then (s, r) else s.returning s.evHart r) = (s, x))
    (hp : (s.hartAt s.evHart).parked = false ∨ ∃ x ∈ l ++ m, x.returned = false) :
    exec .longResultReturn s =
      .next (s.setHart s.evHart { s.hartAt s.evHart with longs := l ++ { x with returned := true } :: m }) := by
  rw [longResultReturn_eq hl hi hq hr hx, if_neg]
  rcases hp with h | ⟨y, hy, hn⟩
  · simp [h]
  · simp only [Bool.and_eq_true, List.all_eq_true, not_and]
    intro _ hall
    have : y ∈ l ++ { x with returned := true } :: m := by
      rw [List.mem_append] at hy ⊢
      exact hy.imp_right (.tail _)
    simp [hall y this] at hn

theorem longResultReturn_marks {x : LongRes} (hx : (if s.ev.aux = 0 then (s, r) else s.returning s.evHart r) = (s, x))
    (hp : (s.hartAt s.evHart).parked = true) (hall : ∀ x ∈ l ++ m, x.returned = true) :
    exec .longResultReturn s =
      .next ((s.setHart s.evHart { s.hartAt s.evHart with longs := l ++ { x with returned := true } :: m }).onHart
        s.evHart (fun u => u.marker u.wordAddr)) := by
  rw [longResultReturn_eq hl hi hq hr hx, if_pos]
  simp only [hp, Bool.true_and, List.all_eq_true]
  intro y hy
  rcases List.mem_append.mp hy with h | h | ⟨_, h⟩
  · exact hall y (List.mem_append_left _ h)
  · rfl
  · exact hall y (List.mem_append_right _ h)

end Return

/-- A load whose packet is lost on its way to or from another package fails with 0x0E, unless it has failed already (R396). -/
theorem returning_lost {s : State} {k a p : Nat} {r : LongRes} (h4 : s.ev.aux = 4) (ha : r.src[s.ev.val]? = some a)
    (hp : (s.accessPlaces k a)[s.ev.addr]? = some p) (hr : s.remote p = true) :
    (if s.ev.aux = 0 then (s, r) else s.returning k r) =
      (s, { r with fault := if r.fault = none then some (0x0E, a) else r.fault }) := by
  have lost : r.lose a = { r with fault := if r.fault = none then some (0x0E, a) else r.fault } := by
    cases h : r.fault <;> simp [LongRes.lose, h]
  simp [h4, returning, ha, hp, hr, lost]

end State

theorem strandSteps : StrandSteps := by
  intro s k h done
  refine ⟨fun hi ha => ?aged, ?fetch, fun hf he => ⟨fun t l hr => ?fill,
    fun f e hq ha hpage ht hx => ?page⟩, fun t ht hc => ?timeout, fun hh hm => ?release,
    fun l m r hl hi hq hr => ⟨fun ha hp => ?waits, fun ha hp hall => ?marks, fun a p ha hp hsrc hpl hrem => ?lost⟩⟩
  case aged =>
    have aged : (s.canIssue s.evHart && (s.hartAt s.evHart).age == 191) = true := by
      simp only [Bool.and_eq_true, beq_iff_eq]; exact ⟨hi, ha⟩
    rw [State.exec_strandAged, execStrandAged]
    simp only [aged, if_true]
    rfl
  case fetch =>
    intro i line cl line? waits turn same hrr hi hline hmin
    have waits_iff : ∀ j, waits j ↔ j / 128 = cl ∧ s.wantsFetch j = true := fun j => by
      rw [State.wantsFetch_iff]
    obtain ⟨hcl, hwants⟩ := (waits_iff i).mp hi
    have next : s.nextFetch s.ev.core = some i :=
      State.nextFetch_first hcl (State.wantsFetch_iff.mp hwants).1 (State.asks_iff.mpr ⟨hwants, by
        have : line? i ≠ none := by rw [hline]; simp
        exact this⟩) hrr fun j hj hask => by
          obtain ⟨hw, hc⟩ := State.asks_iff.mp hask
          exact hmin j ((waits_iff j).mpr ⟨hj, hw⟩) hc
    have same_iff : ∀ j, j ∈ s.fetchers s.ev.core (s.hartAt i).asid (s.hartAt i).pc 5 ↔ same j := fun j => by
      rw [State.mem_fetchers]
      simp only [same, waits_iff, and_assoc, cl]
    obtain ⟨t, ht, hturn, hharts, hmem⟩ := State.fetchBlockDeliver_serves next hline
    refine ⟨t, ht, hturn, fun j hj hmay => ?_, fun j hj hmay => ?_, fun j hj => ?_, hmem⟩
    · rw [hharts, if_pos ((same_iff j).mpr hj), hmay]; rfl
    · rw [hharts, if_pos ((same_iff j).mpr hj), hmay]; rfl
    · rw [hharts, if_neg (fun h => hj ((same_iff j).mp h))]
  case fill => exact State.icacheMissFill_fills hf he hr
  case page =>
    obtain ⟨⟨t, ht', hsmall, _, _, _, htype, hframe⟩, hown, hhbm, hpad⟩ := hpage
    obtain rfl : t = e := by rw [ht] at ht'; exact (Option.some.inj ht').symm
    exact State.icacheMissFill_fills hf he
      (State.readLine_page hq ha ht hsmall ⟨htype, hframe, hown, hhbm, hpad⟩ hx)
  case timeout =>
    rw [State.exec_herdTimeout, execHerdTimeout]
    have ht : (s.hartAt s.evHart).herd = some t := ht
    have hc : t + 16 * s.herdCount s.evHart ≤ s.cycle := hc
    simp only [ht, hc, if_true]
    rfl
  case release =>
    refine ⟨_, State.herdRelease_releases hh hm, fun j hj => ?_, fun j hj => ?_, ?_⟩
    · rw [State.hartAt_herdGo]; exact if_pos hj
    · rw [State.hartAt_herdGo]; exact if_neg hj
    · obtain ⟨_, hframe⟩ := State.foldl_harts_frame (f := State.herdGo) (fun _ _ => ⟨_, rfl⟩) (s.flockMates s.evHart) s
      rw [hframe]
      exact ⟨rfl, rfl⟩
  case waits => exact State.longResultReturn_waits hl hi hq hr (by rw [if_pos ha]) hp
  case marks => exact State.longResultReturn_marks hl hi hq hr (by rw [if_pos ha]) hp hall
  case lost => exact State.longResultReturn_waits hl hi hq hr (State.returning_lost ha hsrc hpl hrem) (.inl hp)

end Sys2Proof.Machine
end

section
/-!
SUPPORT. The arbiters of the scratchpads (R110 to R115): what a cycle's grants of local memory have in common, and the requests
that a cluster and a die scratchpad serve.
-/

namespace Sys2Proof.Machine

/-! ### Claims of banks -/

/-- The banks that a request claims in the cycle in which it is granted. -/
def PortReq.now (q : PortReq) : Nat := q.cycles.headD 0

/-- Two sets of banks as numbers are disjoint when no bit is set in both. -/
theorem land_eq_zero_iff {a b : Nat} : a &&& b = 0 ↔ ∀ k, a.testBit k = true → b.testBit k = false := by
  constructor
  · intro h k ha
    have := congrArg (·.testBit k) h
    simpa [Nat.testBit_and, ha] using this
  · intro h
    apply Nat.eq_of_testBit_eq
    intro k
    cases ha : a.testBit k
    · simp [ha]
    · simp [h k ha]

namespace Grants

/-- A claim takes banks that nothing has claimed, and its further cycles go on (R111). -/
theorem claim_some {g r : Grants} {cycles : List Nat} (h : g.claim cycles = some r) :
    r.got = g.got ∧ cycles.headD 0 &&& g.claimed = 0 ∧ r.claimed = g.claimed ||| cycles.headD 0 ∧
      (∀ x ∈ g.next, x ∈ r.next) ∧ (1 < cycles.length → cycles.tail ∈ r.next) := by
  cases cycles with
  | nil =>
    obtain rfl : g = r := by simpa [claim] using h
    simp
  | cons m t =>
    simp only [claim] at h
    split at h
    next hfree =>
      obtain rfl := (Option.some.inj h).symm
      have hfree : m &&& g.claimed = 0 := by rwa [Nat.and_comm] at hfree
      cases t <;> simp +contextual [hfree]
    next => cases h

/-- A claim finds its banks free in a cycle in which nothing has claimed any. -/
theorem claim_first (cycles : List Nat) : ∃ r, ({} : Grants).claim cycles = some r := by
  cases cycles <;> simp [claim]

/-- What goes on from earlier cycles grants nothing, and the first of it has its banks (R111). -/
theorem goOn_spec (busy : List (List Nat)) : (({} : Grants).goOn busy).got = [] ∧
    ∀ b ∈ busy.head?, ∀ k, (b.headD 0).testBit k = true → (({} : Grants).goOn busy).claimed.testBit k = true := by
  have step : ∀ (g : Grants) (c : List Nat), let r := (g.claim c).getD { g with next := g.next ++ [c] }
      r.got = g.got ∧ ∀ k, g.claimed.testBit k = true → r.claimed.testBit k = true := by
    intro g c
    cases h : g.claim c with
    | none => exact ⟨rfl, fun _ hk => hk⟩
    | some r =>
      obtain ⟨hgot, _, hclaimed, _⟩ := claim_some h
      exact ⟨hgot, fun k hk => by simp [hclaimed, Nat.testBit_or, hk]⟩
  have fold : ∀ (l : List (List Nat)) (g : Grants), (g.goOn l).got = g.got ∧
      ∀ k, g.claimed.testBit k = true → (g.goOn l).claimed.testBit k = true := by
    intro l
    induction l with
    | nil => exact fun g => ⟨rfl, fun _ hk => hk⟩
    | cons c l ih =>
      intro g
      obtain ⟨h1, h2⟩ := step g c
      obtain ⟨h3, h4⟩ := ih ((g.claim c).getD { g with next := g.next ++ [c] })
      exact ⟨h3.trans h1, fun k hk => h4 k (h2 k hk)⟩
  refine ⟨(fold busy {}).1, fun b hb k hk => ?_⟩
  cases busy with
  | nil => cases hb
  | cons c l =>
    obtain rfl : c = b := by simpa using hb
    obtain ⟨r, hr⟩ := claim_first c
    obtain ⟨_, _, hclaimed, _⟩ := claim_some hr
    refine (fold l _).2 k ?_
    simp only [hr, Option.getD_some, hclaimed, Nat.testBit_or, hk, Bool.or_true]

/-! ### The grants of a cycle of local memory (R111) -/

/-- What the grants among the requests `l` keep, while an access that goes on has the banks `held`: each grant is of a request
of the list, its banks are claimed, are neither `held` nor another grant's, and its further cycles go on. -/
structure Sound (l : List PortReq) (held : Nat) (g : Grants) : Prop where
  fromList : ∀ i ∈ g.got, ∃ q ∈ l, q.idx = i
  keeps : ∀ k, held.testBit k = true → g.claimed.testBit k = true
  claimed : ∀ q ∈ l, q.idx ∈ g.got → ∀ k, q.now.testBit k = true → g.claimed.testBit k = true
  apart : ∀ q ∈ l, q.idx ∈ g.got → q.now &&& held = 0
  disjoint : ∀ q ∈ l, ∀ r ∈ l, q.idx ∈ g.got → r.idx ∈ g.got → q.idx ≠ r.idx → q.now &&& r.now = 0
  goesOn : ∀ q ∈ l, q.idx ∈ g.got → 1 < q.cycles.length → q.cycles.tail ∈ g.next

/-- A request that claims its banks keeps the grants sound. -/
theorem Sound.grant {l : List PortReq} {held : Nat} {g r : Grants} {q : PortReq} (h : Sound l held g)
    (hinj : ∀ q ∈ l, ∀ r ∈ l, q.idx = r.idx → q = r) (hq : q ∈ l) (hc : g.claim q.cycles = some r) :
    Sound l held { r with got := r.got ++ [q.idx] } := by
  obtain ⟨hgot, hfree, hclaimed, hnext, htail⟩ := claim_some hc
  have grows : ∀ k, g.claimed.testBit k = true → r.claimed.testBit k = true := fun k hk => by
    simp [hclaimed, Nat.testBit_or, hk]
  have free : ∀ k, q.now.testBit k = true → g.claimed.testBit k = false := land_eq_zero_iff.mp hfree
  have mem : ∀ x ∈ l, x.idx ∈ r.got ++ [q.idx] → x = q ∨ x.idx ∈ g.got := by
    intro x hx hi
    rcases List.mem_append.mp hi with hi | hi
    · exact .inr (hgot ▸ hi)
    · exact .inl (hinj x hx q hq (by simpa using hi))
  have other : ∀ x ∈ l, x.idx ∈ g.got → x.now &&& q.now = 0 := fun x hx hi => land_eq_zero_iff.mpr fun k hk => by
    refine Classical.byContradiction fun hb => ?_
    have := free k (Bool.of_not_eq_false hb)
    rw [h.claimed x hx hi k hk] at this
    cases this
  constructor
  case fromList =>
    intro i hi
    rcases List.mem_append.mp hi with hi | hi
    · exact h.fromList i (hgot ▸ hi)
    · exact ⟨q, hq, (List.mem_singleton.mp hi).symm⟩
  case keeps => exact fun k hk => grows k (h.keeps k hk)
  case claimed =>
    intro x hx hi k hk
    rcases mem x hx hi with rfl | hi
    · simp only [hclaimed, Nat.testBit_or, Bool.or_eq_true]; exact .inr hk
    · exact grows k (h.claimed x hx hi k hk)
  case apart =>
    intro x hx hi
    rcases mem x hx hi with rfl | hi
    · exact land_eq_zero_iff.mpr fun k hk => by
        refine Classical.byContradiction fun hb => ?_
        have := free k hk
        rw [h.keeps k (Bool.of_not_eq_false hb)] at this
        cases this
    · exact h.apart x hx hi
  case disjoint =>
    intro x hx y hy hi hj hne
    rcases mem x hx hi with hxq | hi <;> rcases mem y hy hj with hyq | hj
    · exact absurd (by rw [hxq, hyq]) hne
    · rw [hxq, Nat.and_comm]; exact other y hy hj
    · rw [hyq]; exact other x hx hi
    · exact h.disjoint x hx y hy hi hj hne
  case goesOn =>
    intro x hx hi hlen
    rcases mem x hx hi with rfl | hi
    · exact htail hlen
    · exact hnext _ (h.goesOn x hx hi hlen)

theorem Sound.upTo {l : List PortReq} {held : Nat} (hinj : ∀ q ∈ l, ∀ r ∈ l, q.idx = r.idx → q = r) :
    ∀ (m : List PortReq) (n : Nat) {g : Grants}, (∀ q ∈ m, q ∈ l) → Sound l held g → Sound l held (upTo n m g)
  | _, 0, g, _, h => by unfold Grants.upTo; exact h
  | [], n + 1, g, _, h => h
  | q :: m, n + 1, g, hm, h => by
    have rest : ∀ x ∈ m, x ∈ l := fun x hx => hm x (.tail _ hx)
    rw [Grants.upTo]
    split
    · exact Sound.upTo hinj m (n + 1) rest h
    · split
      next r hc => exact Sound.upTo hinj m n rest (h.grant hinj (hm q (.head _)) hc)
      next => exact Sound.upTo hinj m (n + 1) rest h

end Grants

theorem mem_oldestFirst {l : List PortReq} {q : PortReq} : q ∈ oldestFirst l ↔ q ∈ l := (perm_sortBy _ l).mem_iff

/-- The requests of an event have numbers of their own. -/
theorem localReqs_inj (n i : Nat) (l : List Nat) : ∀ q ∈ localReqs n i l, ∀ r ∈ localReqs n i l, q.idx = r.idx → q = r := by
  have key : ∀ (n i : Nat) (l : List Nat), (∀ q ∈ localReqs n i l, i ≤ q.idx) ∧
      ∀ q ∈ localReqs n i l, ∀ r ∈ localReqs n i l, q.idx = r.idx → q = r := by
    intro n
    induction n with
    | zero => intro i l; simp [localReqs]
    | succ n ih =>
      intro i l
      match l with
      | k :: w :: m :: t =>
        obtain ⟨above, apart⟩ := ih (i + 1) (t.drop m)
        rw [localReqs]
        refine ⟨?_, ?_⟩
        · rintro q (_ | ⟨_, hq⟩)
          · exact Nat.le_refl i
          · have := above q hq; omega
        · rintro q (_ | ⟨_, hq⟩) r (_ | ⟨_, hr⟩) he
          · rfl
          · have : i = r.idx := he
            have := above r hr
            omega
          · have : q.idx = i := he
            have := above q hq
            omega
          · exact apart q hq r hr he
      | [] | [_] | [_, _] => simp [localReqs]
  exact (key n i l).2

theorem localGrants_sound {busy : List (List Nat)} {l : List PortReq} (hinj : ∀ q ∈ l, ∀ r ∈ l, q.idx = r.idx → q = r)
    {b : List Nat} (hb : ∀ c ∈ busy.head?, c = b) (hnone : busy = [] → b = []) :
    Grants.Sound l (b.headD 0) (localGrants busy l) := by
  obtain ⟨hgot, hheld⟩ := Grants.goOn_spec busy
  have start : Grants.Sound l (b.headD 0) (({} : Grants).goOn busy) := by
    constructor
    case keeps =>
      intro k hk
      cases busy with
      | nil => simp [hnone rfl] at hk
      | cons c t => exact hheld c (by simp) k (by rwa [hb c (by simp)])
    all_goals simp [hgot]
  refine .upTo hinj _ _ ?_ (.upTo hinj _ _ ?_ (.upTo hinj _ _ ?_ (.upTo hinj _ _ ?_ start)))
  all_goals
    intro q hq
    simp only [mem_oldestFirst, List.mem_filter] at hq
    exact hq.1

/-! ### A request alone -/

theorem nth_map_upFrom {f : Nat → Nat} {k n i : Nat} (hi : i < n) : nth ((upFrom k n).map f) i = f (k + i) := by
  induction n generalizing k i with
  | zero => omega
  | succ n ih =>
    cases i with
    | zero => rfl
    | succ i =>
      have := ih (k := k + 1) (i := i) (by omega)
      rw [show k + (i + 1) = k + 1 + i by omega]
      exact this

/-- One word claims its bank for one cycle (R110). -/
theorem bankCycles_word (x : Nat) : bankCycles [x] = [2 ^ (x / 8 % 64)] := by
  have most : ∀ r < 64, ((upFrom 0 64).map (fun b => if r = b then 1 else 0)).foldl max 0 = 1 := by decide +kernel
  have only : ∀ r < 64, (upFrom 0 64).filter (fun b => decide (r = b)) = [r] := by decide +kernel
  have hr : x / 8 % 64 < 64 := Nat.mod_lt _ (by decide)
  have load : (upFrom 0 64).map (fun b => ([x / 8].eraseDups.filter (fun w => w % 64 == b)).length) =
      (upFrom 0 64).map (fun b => if x / 8 % 64 = b then 1 else 0) := by
    refine List.map_congr_left fun b _ => ?_
    by_cases h : x / 8 % 64 = b <;> simp [h, List.eraseDups_cons]
  have banks : (upFrom 0 64).filter (fun b => decide (0 < nth ((upFrom 0 64).map (fun b => if x / 8 % 64 = b then 1 else 0)) b)) =
      [x / 8 % 64] := by
    rw [← only _ hr]
    refine List.filter_congr fun b hb => ?_
    rw [nth_map_upFrom (by rw [mem_upFrom] at hb; omega), Nat.zero_add]
    by_cases h : x / 8 % 64 = b <;> simp [h]
  have one : upFrom 0 1 = [0] := rfl
  rw [bankCycles]
  simp only [List.map_cons, List.map_nil, load, most _ hr, one, banks, List.foldl_cons, List.foldl_nil, Nat.zero_add]

theorem localGrants_alone (q : PortReq) (m : Nat) (hq : q.cycles = [m]) (hk : q.kind = 0) (hi : q.idx = 0) :
    localGrants [] [q] = { claimed := m, got := [0] } := by
  by_cases hw : 16 ≤ q.waited <;>
    simp [localGrants, Grants.goOn, oldestFirst, sortBy, insertBy, hw, hk, Grants.upTo, Grants.claim, hq, hi]

theorem eccEvent_none (s : State) (k p : Nat) : s.eccEvent k p 0 = s := rfl

theorem exec_localMemArbitration (s : State) : exec .localMemArbitration s = execLocalMemArbitration s := rfl
theorem exec_clusterSpadArbitration (s : State) : exec .clusterSpadArbitration s = execClusterSpadArbitration s := rfl
theorem exec_dieSpadSliceGrant (s : State) : exec .dieSpadSliceGrant s = execDieSpadSliceGrant s := rfl

/-! ### Cluster scratchpads (R113) -/

/-- What is granted has been asked for. -/
theorem spadGrant_got : ∀ (m : List PortReq) (n : Nat) (r : Grants × Nat), ∀ i ∈ (spadGrant n m r).1.got,
    i ∈ r.1.got ∨ ∃ q ∈ m, q.idx = i
  | _, 0, r, i, h => by unfold spadGrant at h; exact .inl h
  | [], n + 1, r, i, h => .inl h
  | q :: m, n + 1, (g, reads), i, h => by
    rw [spadGrant] at h
    split at h
    · rcases spadGrant_got m (n + 1) _ i h with h | ⟨x, hx, he⟩
      · exact .inl h
      · exact .inr ⟨x, .tail _ hx, he⟩
    · split at h
      next l r hc =>
        obtain ⟨l', _, hr⟩ := Option.bind_eq_some_iff.mp hc
        obtain ⟨r', hr', he⟩ := Option.map_eq_some_iff.mp hr
        obtain ⟨hgot, _⟩ := Grants.claim_some hr'
        obtain ⟨rfl, rfl⟩ : l' = l ∧ r' = r := by simpa using he
        rcases spadGrant_got m n _ i h with h | ⟨x, hx, he⟩
        · rcases List.mem_append.mp h with h | h
          · exact .inl (hgot ▸ h)
          · exact .inr ⟨q, .head _, (List.mem_singleton.mp h).symm⟩
        · exact .inr ⟨x, .tail _ hx, he⟩
      next =>
        rcases spadGrant_got m (n + 1) _ i h with h | ⟨x, hx, he⟩
        · exact .inl h
        · exact .inr ⟨x, .tail _ hx, he⟩

theorem mem_presented {l : List PortReq} {c : Nat} {q : PortReq} (h : q ∈ presented l c) : q ∈ l := by
  have := List.mem_of_mem_take h
  simp only [List.mem_append, mem_oldestFirst, List.mem_filter] at this
  rcases this with (h | h) | h
  all_goals exact h.1.1

theorem spadGrants_got {busy : List (List Nat)} {rr : Nat} {l : List PortReq} :
    ∀ i ∈ (spadGrants busy rr l).got, ∃ q ∈ l, q.idx = i := by
  have turns : ∀ (p : List Nat) (r : Grants × Nat), (∀ i ∈ r.1.got, ∃ q ∈ l, q.idx = i) →
      ∀ i ∈ (p.foldl (fun r p => spadGrant 1 (presented l p) r) r).1.got, ∃ q ∈ l, q.idx = i := by
    intro p
    induction p with
    | nil => exact fun r h => h
    | cons c p ih =>
      refine fun r h => ih _ fun i hi => ?_
      rcases spadGrant_got _ _ _ i hi with hi | ⟨q, hq, he⟩
      · exact h i hi
      · exact ⟨q, mem_presented hq, he⟩
  intro i hi
  rcases spadGrant_got _ _ _ i hi with hi | ⟨q, hq, he⟩
  · refine turns _ _ (fun i hi => ?_) i hi
    rcases spadGrant_got _ _ _ i hi with hi | ⟨q, hq, he⟩
    · rw [(Grants.goOn_spec busy).1] at hi; cases hi
    · simp only [mem_oldestFirst, List.mem_filter, List.mem_append, List.mem_flatMap] at hq
      rcases hq.1 with ⟨c, _, hq⟩ | ⟨hq, _⟩
      · exact ⟨q, mem_presented hq, he⟩
      · exact ⟨q, hq, he⟩
  · simp only [mem_oldestFirst, List.mem_filter] at hq
    exact ⟨q, hq.1, he⟩

theorem spadGrant_empty (n : Nat) (r : Grants × Nat) : spadGrant n [] r = r := by
  cases n <;> rfl

section Alone
variable {q : PortReq} (hi : q.idx = 0) (hk : q.kind = 0)

/-- The grant of one read: its bank, and no further cycle. -/
def grantOfRead (q : PortReq) : Grants × Nat :=
  ({ claimed := 2 ^ spadBank q.offset, got := [0] }, 2 ^ spadBank q.offset)

include hi hk in
theorem spadGrant_first (n : Nat) : spadGrant (n + 1) [q] ({}, 0) = grantOfRead q := by
  simp [spadGrant, spadClaim, Grants.claim, hi, hk, grantOfRead, nth, spadGrant_empty]

include hi in
theorem spadGrant_again : ∀ n : Nat, spadGrant n [q] (grantOfRead q) = grantOfRead q
  | 0 => rfl
  | n + 1 => by simp [spadGrant, hi, grantOfRead]

theorem presented_alone (c : Nat) : presented [q] c = if q.port = c ∨ q.port = c + 32 then [q] else [] := by
  by_cases h1 : q.port = c <;> by_cases h2 : q.port = c + 32 <;> by_cases hw : 16 ≤ q.waited <;>
    simp [presented, h1, h2, hw, oldestFirst, sortBy, insertBy]

include hi in
theorem turns_granted (p : List Nat) :
    p.foldl (fun r p => spadGrant 1 (presented [q] p) r) (grantOfRead q) = grantOfRead q := by
  induction p with
  | nil => rfl
  | cons c p ih =>
    rw [List.foldl_cons, presented_alone]
    split
    · rw [spadGrant_again hi, ih]
    · rw [spadGrant_empty, ih]

include hi hk in
theorem turns_first (hp : q.port ≤ 16) (p : List Nat) : p.foldl (fun r p => spadGrant 1 (presented [q] p) r) ({}, 0) =
    if q.port ∈ p then grantOfRead q else ({}, 0) := by
  induction p with
  | nil => rfl
  | cons c p ih =>
    rw [List.foldl_cons, presented_alone]
    by_cases hc : q.port = c
    · rw [if_pos (.inl hc), spadGrant_first hi hk, turns_granted hi, if_pos (by simp [hc])]
    · rw [if_neg (by omega), spadGrant_empty, ih]
      simp [hc]

/-- Of one request, the cores' turns find it when it is of one of their ports. -/
theorem presented_turns (hp : q.port ≤ 16) (k n : Nat) : (upFrom k n).flatMap (presented [q]) =
    if k ≤ q.port ∧ q.port < k + n then [q] else [] := by
  induction n generalizing k with
  | zero => rw [if_neg (by omega)]; rfl
  | succ n ih =>
    rw [upFrom, List.flatMap_cons, presented_alone, ih]
    by_cases hk : q.port = k
    · rw [if_pos (.inl hk), if_neg (by omega), if_pos (by omega), List.append_nil]
    · rw [if_neg (by omega), List.nil_append]
      by_cases hin : k + 1 ≤ q.port ∧ q.port < k + 1 + n
      · rw [if_pos hin, if_pos (by omega)]
      · rw [if_neg hin, if_neg (by omega)]

/-- Of one request, the arbiter finds that request. -/
theorem before_alone (hp : q.port ≤ 16) :
    (upFrom 0 16).flatMap (presented [q]) ++ [q].filter (fun q => q.port == 16) = [q] := by
  rw [presented_turns hp]
  by_cases h : q.port = 16
  · simp [h]
  · rw [if_pos (by omega)]
    simp [h]

include hi hk in
/-- A read alone is granted, whichever core's turn it is. -/
theorem spadGrants_alone (hp : q.port ≤ 16) (rr : Nat) : spadGrants [] rr [q] = (grantOfRead q).1 := by
  have turn : q.port < 16 → q.port ∈ (upFrom 0 16).map (fun i => (rr + i) % 16) := fun h => by
    rw [List.mem_map]
    exact ⟨(q.port + 16 - rr % 16) % 16, by rw [mem_upFrom]; omega, by omega⟩
  have sorted : oldestFirst [q] = [q] := rfl
  simp only [spadGrants, before_alone hp, Grants.goOn, List.foldl_nil]
  by_cases hw : 8 ≤ q.waited
  · have old : oldestFirst ([q].filter (fun q => decide (8 ≤ q.waited))) = [q] := by simp [hw, sorted]
    rw [old, List.length_singleton, spadGrant_first hi hk, turns_granted hi]
    by_cases hd : q.port = 16
    · simp [hd, sorted, spadGrant_again hi]
    · simp [hd, oldestFirst, sortBy, spadGrant_empty]
  · have young : oldestFirst ([q].filter (fun q => decide (8 ≤ q.waited))) = [] := by simp [hw, oldestFirst, sortBy]
    rw [young, spadGrant_empty, turns_first hi hk hp]
    by_cases hd : q.port = 16
    · rw [if_neg (by simp [hd, mem_upFrom]; omega)]
      simp [hd, sorted, spadGrant_first hi hk]
    · rw [if_pos (turn (by omega))]
      simp [hd, oldestFirst, sortBy, spadGrant_empty]

end Alone

/-! ### Die scratchpads (R115) -/

/-- The slice of a die scratchpad that serves a request (R115). -/
def PortReq.slice (q : PortReq) : Nat := q.offset / 256 % 48

/-- The grants of a die scratchpad's slices, in the order of a list: the first request of each slice. -/
def sliceGrants (l : List PortReq) (g : List (Nat × Nat)) : List (Nat × Nat) :=
  l.foldl (fun g q => if g.any (fun e => e.1 == q.slice) then g else g ++ [(q.slice, q.idx)]) g

theorem sliceGrants_spec (l : List PortReq) : ∀ g : List (Nat × Nat), (g.map (·.1)).Nodup →
    ((sliceGrants l g).map (·.1)).Nodup ∧ (∀ e ∈ g, e ∈ sliceGrants l g) ∧
      (∀ e ∈ sliceGrants l g, e ∈ g ∨ ∃ q ∈ l, q.idx = e.2 ∧ e.1 = q.slice) ∧
      ∀ q ∈ l, ∃ e ∈ sliceGrants l g, e.1 = q.slice := by
  induction l with
  | nil => exact fun g hg => ⟨hg, fun _ h => h, fun _ h => .inl h, by simp⟩
  | cons q l ih =>
    intro g hg
    by_cases hany : g.any (fun e => e.1 == q.slice) = true
    · have step : sliceGrants (q :: l) g = sliceGrants l g := by simp only [sliceGrants, List.foldl_cons, hany, if_true]
      obtain ⟨h1, h2, h3, h4⟩ := ih g hg
      rw [step]
      refine ⟨h1, h2, fun e he => (h3 e he).imp_right fun ⟨x, hx, h⟩ => ⟨x, .tail _ hx, h⟩, ?_⟩
      rintro x (_ | ⟨_, hx⟩)
      · obtain ⟨e, he, hs⟩ := List.any_eq_true.mp hany
        exact ⟨e, h2 e he, by simpa using hs⟩
      · exact h4 x hx
    · have step : sliceGrants (q :: l) g = sliceGrants l (g ++ [(q.slice, q.idx)]) := by
        simp only [sliceGrants, List.foldl_cons, hany]; rfl
      have nodup : ((g ++ [(q.slice, q.idx)]).map (·.1)).Nodup := by
        rw [List.map_append, List.nodup_append]
        refine ⟨hg, by simp, fun a ha b hb hab => hany ?_⟩
        obtain ⟨e, he, rfl⟩ := List.mem_map.mp ha
        exact List.any_eq_true.mpr ⟨e, he, by simpa [hab] using hb⟩
      obtain ⟨h1, h2, h3, h4⟩ := ih _ nodup
      rw [step]
      refine ⟨h1, fun e he => h2 e (List.mem_append_left _ he), fun e he => ?_, ?_⟩
      · rcases h3 e he with h | ⟨x, hx, h⟩
        · rcases List.mem_append.mp h with h | h
          · exact .inl h
          · obtain rfl : e = (q.slice, q.idx) := by simpa using h
            exact .inr ⟨q, .head _, rfl, rfl⟩
        · exact .inr ⟨x, .tail _ hx, h⟩
      · rintro x (_ | ⟨_, hx⟩)
        · exact ⟨_, h2 _ (List.mem_append_right _ (.head _)), rfl⟩
        · exact h4 x hx

/-! ### The arbiters' steps -/

theorem arbitrationSteps : ArbitrationSteps := by
  intro s haux done c
  refine ⟨?localMem, ?cluster, ?die⟩
  case localMem =>
    intro l now
    obtain ⟨b, hb, hnone⟩ : ∃ b : List Nat, (∀ x ∈ c.portBusy.head?, x = b) ∧ (c.portBusy = [] → b = []) := by
      cases c.portBusy with
      | nil => exact ⟨[], by simp, fun _ => rfl⟩
      | cons x t => exact ⟨x, by simp, by simp⟩
    have sound : Grants.Sound l (b.headD 0) (localGrants c.portBusy l) :=
      localGrants_sound (localReqs_inj _ _ _) hb hnone
    refine ⟨_, _, ?_, sound.fromList, fun q hq hi x hx => hb x hx ▸ sound.apart q hq hi, sound.disjoint, sound.goesOn, ?_⟩
    · rw [exec_localMemArbitration, execLocalMemArbitration, haux]
      simp only [eccEvent_none]
      rfl
    · intro w x hlist hbusy
      have one : l = [{ idx := 0, kind := 0, port := 0, waited := w, offset := x, cycles := [2 ^ (x / 8 % 64)] }] := by
        simp [l, hlist, localReqs, nth, bankCycles_word]
      rw [one, hbusy, localGrants_alone _ _ rfl rfl rfl]
      exact ⟨rfl, rfl, rfl⟩
  case cluster =>
    intro l x
    refine ⟨(spadGrants x.portBusy x.rr l).next, (spadGrants x.portBusy x.rr l).got, ?_, spadGrants_got, fun p w o hlist hp hbusy => ?_⟩
    · rw [exec_clusterSpadArbitration, execClusterSpadArbitration, haux]
      simp only [eccEvent_none]
      rfl
    · have one : l = [{ idx := 0, kind := 0, port := p, waited := w, offset := o, cycles := [] }] := by
        simp [l, hlist, spadReqs]
      rw [one, hbusy, spadGrants_alone rfl rfl hp]
      exact ⟨rfl, rfl⟩
  case die =>
    intro l
    obtain ⟨hnodup, _, hfrom, hserved⟩ := sliceGrants_spec (oldestFirst l) [] .nil
    refine ⟨(sliceGrants (oldestFirst l) []).map (fun e => (48 * s.ev.core + e.1, e.2)), ?_, ?_, fun e he => ?_, fun q hq => ?_⟩
    · rw [exec_dieSpadSliceGrant, execDieSpadSliceGrant, haux]
      simp only [eccEvent_none]
      rfl
    · have : ((sliceGrants (oldestFirst l) []).map (fun e => (48 * s.ev.core + e.1, e.2))).map (·.1) =
          ((sliceGrants (oldestFirst l) []).map (·.1)).map (fun n => 48 * s.ev.core + n) := by simp
      rw [this]
      exact List.Pairwise.map _ (fun a b hne h => hne (Nat.add_left_cancel h)) hnodup
    · obtain ⟨g, hg, rfl⟩ := List.mem_map.mp he
      rcases hfrom g hg with h | ⟨q, hq, hidx, hslice⟩
      · cases h
      · exact ⟨q, mem_oldestFirst.mp hq, hidx, congrArg (48 * s.ev.core + ·) hslice⟩
    · obtain ⟨e, he, hslice⟩ := hserved q (mem_oldestFirst.mpr hq)
      exact ⟨_, List.mem_map.mpr ⟨e, he, rfl⟩, congrArg (48 * s.ev.core + ·) hslice⟩

end Sys2Proof.Machine
end

section
/-!
SUPPORT. How an idle strand takes work (R286 to R289, R294, R295, R40): the message that its inbox starts, the order of the
sources, what a core steals, and the suspension that gets its record slot.
-/

namespace Sys2Proof.Machine

theorem exec_messageDeliver (s : State) : exec .messageDeliver s = execMessageDeliver s := rfl
theorem exec_continuationPickup (s : State) : exec .continuationPickup s = execContinuationPickup s := rfl
theorem exec_workSteal (s : State) : exec .workSteal s = execWorkSteal s := rfl
theorem exec_messageAged (s : State) : exec .messageAged s = execMessageAged s := rfl
theorem exec_recordPoolSlotFree (s : State) : exec .recordPoolSlotFree s = execRecordPoolSlotFree s := rfl

/-- The strand of a message's handler (R288): it runs in user mode, which is the model's choice (log 31). -/
def Hart.handling (h : Hart) (frm : Nat) (x : InMsg) (t : Nat) (e : HandlerEntry) : Hart :=
  let m := x.msg
  let p : Pick := { pc := e.pc, ts := if e.timed then m.ts else allOnes64, saved := [(1, m.ts), (2, m.hdr)], cls := e.prio }
  { (h.pickUp frm p) with
    v := Store.set 0 [] 31 (BitVec.ofNat 1024 (joinLanes 64 m.payload)), mcause := bool1 (t != m.tag), latch := some m,
    heldAnti := if m.anti then some m.key else none, handlerTag := some t, record := none, level := 0 }

namespace State

theorem clusterOf_core (k : Nat) : clusterOf (k / 8) = k / 128 := Nat.div_div_eq_div_mul k 8 16

/-! ### Messages (R286 to R289) -/

/-- Messages that no entry takes leave their core and change nothing else. -/
theorem dropUnreachable_frame (s : State) (core : Nat) : ∃ cores, s.dropUnreachable core = { s with cores := cores } := by
  have drops : ∀ (l : List InMsg) (s : State), ∃ cores, l.foldl (fun s _ => s.countDropped core) s = { s with cores := cores } := by
    intro l
    induction l with
    | nil => exact fun s => ⟨s.cores, rfl⟩
    | cons x l ih =>
      intro s
      obtain ⟨cores, h⟩ := ih (s.countDropped core)
      exact ⟨cores, h⟩
  rw [dropUnreachable]
  split
  · exact ⟨s.cores, rfl⟩
  · obtain ⟨cores, h⟩ := drops _ _
    exact ⟨cores, h⟩

@[simp] theorem dropUnreachable_mem (s : State) (core : Nat) : (s.dropUnreachable core).mem = s.mem := by
  obtain ⟨cores, h⟩ := s.dropUnreachable_frame core
  rw [h]

@[simp] theorem noteTimed_harts (s : State) (slot : Option Nat) : (s.noteTimed slot).harts = s.harts := by
  cases slot <;> rfl

@[simp] theorem noteTimed_mem (s : State) (slot : Option Nat) : (s.noteTimed slot).mem = s.mem := by
  cases slot <;> rfl

theorem startHandler_mem (s : State) (k : Nat) (x : InMsg) (t : Nat) (e : HandlerEntry) : (s.startHandler k x t e).mem = s.mem := by
  simp only [startHandler, apply_ite State.mem, noteTimed_mem, setHart_mem, setCore_mem, ite_self]

/-- A handler starts in this state (R288). -/
theorem startHandler_hart (s : State) (k : Nat) (x : InMsg) (t : Nat) (e : HandlerEntry) :
    (s.startHandler k x t e).hartAt k = (s.hartAt k).handling (s.frmOf (s.hartAt k).slot) x t e := by
  simp only [hartAt, startHandler, apply_ite State.harts, noteTimed_harts, setHart_harts, setCore_harts, ite_self,
    Store.get_set_same]
  rfl

/-- A chosen message starts on a strand that may run it. -/
theorem deliver_eq {s : State} {k t : Nat} {x : InMsg} {e : HandlerEntry} (hk : s.handlerStrand k = true)
    (hx : s.chooseMessage (k / 8) = some (x, t, e)) : s.deliver k = some (s.startHandler k x t e) := by
  simp [deliver, hk, hx]

/-! ### The order of the sources (R294) -/

section
variable {s r : State} {k : Nat} (hr : r = s.dropUnreachable (k / 8))
include hr

theorem takeWork_deliver {t : State} (h : r.deliver k = some t) : s.takeWork k = .ok t := by
  subst hr; simp only [takeWork, h]

theorem takeWork_deque {j : Nat} (h : r.deliver k = none) (hj : (r.dequeFor (k / 8) k).getLast? = some j) :
    s.takeWork k = r.takeDeque (k / 8) k j := by
  subst hr; simp only [takeWork, h, hj]

theorem takeWork_ready {e : Nat × Nat} (h : r.deliver k = none) (hj : (r.dequeFor (k / 8) k).getLast? = none)
    (he : r.readyFor k = some e) : s.takeWork k = r.takeReady k e := by
  subst hr; simp only [takeWork, h, hj, he]

theorem takeWork_clusterDeque {j : Nat} (h : r.deliver k = none) (hj : (r.dequeFor (k / 8) k).getLast? = none)
    (he : r.readyFor k = none) (hc : (r.clusterDequeFor (k / 128) k).head? = some j) :
    s.takeWork k = r.takeClusterDeque (k / 128) k j := by
  subst hr
  rw [← clusterOf_core] at hc ⊢
  simp only [takeWork, h, hj, he, hc]

end

/-! ### Stealing (R295) -/

/-- A core steals from another core of its cluster, for a strand of its own that has nothing else to take. -/
theorem stealFrom_some {s : State} {core v k j : Nat} (h : s.stealFrom core = some (v, k, j)) :
    v / 16 = core / 16 ∧ v ≠ core ∧ k / 8 = core ∧ j ∈ s.dequeFor v k ∧ j < (s.coreAt v).dqCount ∧ s.onlySteals k = true := by
  obtain ⟨d, hd, h⟩ := List.exists_of_findSome?_eq_some h
  obtain ⟨i, hi, h⟩ := List.exists_of_findSome?_eq_some h
  obtain ⟨n, hn, he⟩ := Option.map_eq_some_iff.mp h
  obtain ⟨hv, rfl, rfl⟩ : core / 16 * 16 + (core % 16 + d) % 16 = v ∧ n = k ∧ i = j := by simpa using he
  have found := List.find?_some hn
  have strand := List.mem_of_find?_eq_some hn
  rw [mem_upFrom] at hd hi strand
  rw [hv] at hi
  simp only [Bool.and_eq_true, List.contains_iff_mem, hv] at found
  exact ⟨by omega, by omega, by omega, found.1, by omega, found.2⟩

theorem onlySteals_iff {s : State} {k : Nat} : s.onlySteals k = true ↔
    s.deliver k = none ∧ s.readyFor k = none ∧ s.clusterDequeFor (k / 128) k = [] := by
  simp [onlySteals, clusterOf_core, and_assoc]

theorem steal_eq {s : State} {core v k j : Nat} (hm : s.maySteal core = true) (h : s.stealFrom core = some (v, k, j)) :
    s.steal core = s.takeDeque v k j := by
  simp [steal, hm, h]

/-! ### The suspension that gets its slot (R40) -/

/-- A suspension that waited for a record slot is made, unless it waits again. -/
theorem recordPoolSlotFree_suspends {s u : State} {p : Susp} (hp : (s.hartAt s.evHart).susp = some p)
    (hw : (s.hartAt s.evHart).waitSlot = true)
    (hu : (({ s with hart := s.evHart } : State).setHart s.evHart
      { s.hartAt s.evHart with waitSlot := false, susp := none }).runSusp (s.hartAt s.evHart).npc p = .ok u)
    (hf : (u.hartAt s.evHart).flow ≠ .wait) : exec .recordPoolSlotFree s = .next { u with hart := s.hart } := by
  have made : s.asHart s.evHart (fun u =>
      let v := u.setMe { u.me with waitSlot := false, susp := none }
      finish v (v.runSusp (s.hartAt s.evHart).npc p)) = .next { u with hart := s.hart } := by
    have hu : (({ s with hart := s.evHart } : State).setMe { ({ s with hart := s.evHart } : State).me with
        waitSlot := false, susp := none }).runSusp (s.hartAt s.evHart).npc p = .ok u := hu
    simp only [asHart, hu, finish_ok]
  rw [exec_recordPoolSlotFree, execRecordPoolSlotFree]
  simp only [hp, hw, made, if_true]
  rw [if_neg]
  exact hf

end State

/-! ### The steps -/

theorem workSteps : WorkSteps := by
  intro s hstrand k done r own
  have hk8 : k / 8 = s.ev.core := by omega
  have hr : r = s.dropUnreachable (k / 8) := by rw [hk8]
  have pickup : ∀ {t : State}, s.takeWork k = .ok t → exec .continuationPickup s = done t := fun h => by
    rw [exec_continuationPickup, execContinuationPickup, State.evHart, h, finishEvent_ok]
  refine ⟨?message, ?deque, ?ready, ?clusterDeque, ?steal, ?aged, ?slot⟩
  case message =>
    intro x t e hh hx
    have hd := State.deliver_eq hh hx
    refine ⟨r.startHandler k x t e, ?_, pickup (State.takeWork_deliver hr hd), ?_⟩
    · have same : r.evHart = k := by
        obtain ⟨cores, h⟩ := s.dropUnreachable_frame s.ev.core
        show (s.dropUnreachable s.ev.core).evHart = k
        rw [h]; rfl
      have : (r.deliver r.evHart).getD r = r.startHandler k x t e := by rw [same, hd, Option.getD_some]
      rw [exec_messageDeliver, execMessageDeliver]
      exact congrArg Host.Outcome.next this
    · intro g
      have hg : g = (r.hartAt k).handling (r.frmOf (r.hartAt k).slot) x t e := r.startHandler_hart k x t e
      clear_value g
      subst hg
      refine ⟨rfl, rfl, ?_, ?_, ?_, ?_, ?_, rfl, rfl, rfl, ?_, rfl, ?_⟩
      · simp [Hart.nowS, Hart.handling, Hart.pickUp, Store.get_set]
      · simp [Hart.nowS, Hart.handling, Hart.pickUp]
      · intro n h1 h2
        simp [Hart.nowS, Hart.handling, Hart.pickUp, Store.get_set, h1, h2, Store.get]
      · simp [Hart.readV, Hart.handling]
      · by_cases ht : e.timed <;> simp [Hart.handling, Hart.pickUp, ht, allOnes64]
      · by_cases ht : t = x.msg.tag <;> simp [Hart.handling, ht, bool1]
      · rw [State.startHandler_mem]; exact State.dropUnreachable_mem s _
  case deque => exact fun j t h hj ht => pickup ((State.takeWork_deque hr h hj).trans ht)
  case ready => exact fun e t h hj he ht => pickup ((State.takeWork_ready hr h hj he).trans ht)
  case clusterDeque => exact fun j t h hj he hc ht => pickup ((State.takeWork_clusterDeque hr h hj he hc).trans ht)
  case steal =>
    intro v j i t hm hs ht
    obtain ⟨hv, hne, hj, _, _, honly⟩ := State.stealFrom_some hs
    obtain ⟨hd, hready, hcd⟩ := State.onlySteals_iff.mp honly
    refine ⟨?_, hv, hne, hj, hd, hready, hcd⟩
    rw [exec_workSteal, execWorkSteal, State.steal_eq hm hs, ht, finishEvent_ok]
  case aged =>
    intro l m x t hin hidx hs ht
    have at_ : (s.coreAt s.ev.core).inbox[s.ev.idx]? = some x := by simp [hin, hidx]
    have aged : ∀ y : InMsg, setNth (s.coreAt s.ev.core).inbox s.ev.idx y = l ++ y :: m := by simp [setNth, hin, hidx]
    rw [exec_messageAged, execMessageAged]
    simp only [at_, hs, if_pos ht, aged]
    rfl
  case slot => exact fun p u hp hw hu hf => State.recordPoolSlotFree_suspends hp hw hu hf

end Sys2Proof.Machine
end

section
/-!
SUPPORT. The words that bytes in memory make, and what a table reads after every unit is rewritten.
-/

namespace Sys2Proof

theorem joinLanes_append (w : Nat) (l m : List Nat) :
    joinLanes w (l ++ m) = joinLanes w l + 2 ^ (w * l.length) * joinLanes w m := by
  induction l with
  | nil => simp [joinLanes]
  | cons x l ih =>
    simp only [List.cons_append, joinLanes, ih, List.length_cons, Nat.mul_succ, Nat.pow_add, Nat.mul_add, Nat.add_assoc]
    rw [Nat.mul_assoc, Nat.mul_left_comm (2 ^ w)]

theorem joinLanes_lt (w : Nat) (l : List Nat) : joinLanes w l < 2 ^ (w * l.length) := by
  induction l with
  | nil => simp [joinLanes]
  | cons x l ih =>
    have hx : x % 2 ^ w < 2 ^ w := Nat.mod_lt _ (Nat.two_pow_pos w)
    simp only [joinLanes, List.length_cons, Nat.mul_succ, Nat.pow_add]
    calc x % 2 ^ w + 2 ^ w * joinLanes w l < 2 ^ w * (joinLanes w l + 1) := by rw [Nat.mul_add]; omega
      _ ≤ 2 ^ w * 2 ^ (w * l.length) := Nat.mul_le_mul_left _ ih
      _ = 2 ^ (w * l.length) * 2 ^ w := Nat.mul_comm _ _

/-- Lanes taken apart again are those that were joined. -/
theorem splitLanes_joinLanes {w : Nat} {l : List Nat} (h : ∀ x ∈ l, x < 2 ^ w) : splitLanes w l.length (joinLanes w l) = l := by
  induction l with
  | nil => rfl
  | cons x l ih =>
    have hx : x % 2 ^ w = x := Nat.mod_eq_of_lt (h x (.head _))
    have hd : (x % 2 ^ w + 2 ^ w * joinLanes w l) / 2 ^ w = joinLanes w l := by
      rw [Nat.add_mul_div_left _ _ (Nat.two_pow_pos w), Nat.div_eq_of_lt (Nat.mod_lt _ (Nat.two_pow_pos w)), Nat.zero_add]
    rw [List.length_cons, splitLanes, joinLanes, hd, ih fun y hy => h y (.tail _ hy), Nat.add_mul_mod_self_left, Nat.mod_mod, hx]

/-- Lanes joined again make the number that was taken apart, up to their width. -/
theorem joinLanes_splitLanes (w n x : Nat) : joinLanes w (splitLanes w n x) = x % 2 ^ (w * n) := by
  induction n generalizing x with
  | zero => simp [splitLanes, joinLanes, Nat.mod_one]
  | succ n ih => rw [splitLanes, joinLanes, ih, Nat.mod_mod, Nat.mul_succ, Nat.add_comm (w * n), Nat.pow_add, Nat.mod_mul]

theorem length_splitLanes (w n x : Nat) : (splitLanes w n x).length = n := by
  induction n generalizing x with
  | zero => rfl
  | succ n ih => rw [splitLanes, List.length_cons, ih]

theorem splitLanes_lt (w n x : Nat) : ∀ y ∈ splitLanes w n x, y < 2 ^ w := by
  induction n generalizing x with
  | zero => simp [splitLanes]
  | succ n ih =>
    rintro y (_ | ⟨_, hy⟩)
    · exact Nat.mod_lt _ (Nat.two_pow_pos w)
    · exact ih _ y hy

theorem upFrom_add (p a b : Nat) : upFrom p (a + b) = upFrom p a ++ upFrom (p + a) b := by
  induction a generalizing p with
  | zero => simp [upFrom]
  | succ a ih => rw [Nat.succ_add, upFrom, ih, upFrom, List.cons_append, Nat.add_right_comm, Nat.add_assoc p a 1]

theorem length_upFrom (p n : Nat) : (upFrom p n).length = n := by
  induction n generalizing p with
  | zero => rfl
  | succ n ih => rw [upFrom, List.length_cons, ih]

namespace Machine

/-! ### Doublewords as bytes -/

theorem length_wordBytes (l : List Nat) : (wordBytes l).length = 8 * l.length := by
  induction l with
  | nil => rfl
  | cons x l ih =>
    rw [wordBytes, List.flatMap_cons, List.length_append, List.length_cons, bytesOf, length_splitLanes]
    rw [wordBytes] at ih
    omega

theorem wordBytes_lt (l : List Nat) : ∀ x ∈ wordBytes l, x < 256 := by
  intro x hx
  obtain ⟨y, _, hx⟩ := List.mem_flatMap.mp hx
  exact splitLanes_lt 8 8 y x hx

theorem ofBytes_wordBytes (l : List Nat) : ofBytes (wordBytes l) = joinLanes 64 l := by
  induction l with
  | nil => rfl
  | cons x l ih =>
    rw [ofBytes, wordBytes] at ih
    rw [ofBytes, wordBytes, List.flatMap_cons, joinLanes_append, ih, bytesOf, joinLanes_splitLanes, length_splitLanes, joinLanes]

namespace State

theorem length_bytesAt (s : State) (p n : Nat) : (s.bytesAt p n).length = n := by simp [bytesAt, length_upFrom]

theorem readAt_lt (s : State) (p n : Nat) : s.readAt p n < 2 ^ (8 * n) := by
  have := joinLanes_lt 8 (s.bytesAt p n)
  rwa [length_bytesAt] at this

/-- Bytes are read as their doublewords, the lowest first. -/
theorem readAt_words (s : State) (p n : Nat) :
    s.readAt p (8 * n) = joinLanes 64 ((List.range n).map (fun i => s.readAt (p + 8 * i) 8)) := by
  induction n generalizing p with
  | zero => rfl
  | succ n ih =>
    have split : s.bytesAt p (8 * (n + 1)) = s.bytesAt p 8 ++ s.bytesAt (p + 8) (8 * n) := by
      rw [Nat.mul_succ, Nat.add_comm, bytesAt, upFrom_add, List.map_append]; rfl
    have rest : (List.range n).map (fun i => s.readAt (p + 8 + 8 * i) 8) =
        (List.range n).map (fun i => s.readAt (p + 8 * (i + 1)) 8) := by
      refine List.map_congr_left fun i _ => ?_
      rw [Nat.mul_succ, Nat.add_assoc, Nat.add_comm 8]
    have first : s.readAt p 8 % 2 ^ 64 = s.readAt p 8 := Nat.mod_eq_of_lt (s.readAt_lt p 8)
    calc s.readAt p (8 * (n + 1)) = s.readAt p 8 + 2 ^ 64 * s.readAt (p + 8) (8 * n) := by
          rw [readAt, split, ofBytes, joinLanes_append, length_bytesAt]; rfl
      _ = _ := by
        rw [ih, rest, List.range_succ_eq_map, List.map_cons, List.map_map, joinLanes, Nat.mul_zero, Nat.add_zero, first]
        rfl

/-- The words of a record are those of its bytes. -/
theorem splitLanes_bytesAt (s : State) (p : Nat) : splitLanes 64 8 (ofBytes (s.bytesAt p 64)) = recordWords s p := by
  have joined : ofBytes (s.bytesAt p 64) = joinLanes 64 (recordWords s p) := s.readAt_words p 8
  rw [joined]
  refine splitLanes_joinLanes (l := recordWords s p) fun x hx => ?_
  obtain ⟨i, _, rfl⟩ := List.mem_map.mp hx
  exact s.readAt_lt _ 8

theorem nth_recordWords (s : State) (p : Nat) {i : Nat} (hi : i < 8) : nth (recordWords s p) i = s.readAt (p + 8 * i) 8 := by
  simp [nth, recordWords, hi]

theorem nth_recordWords_lt (s : State) (p : Nat) (i : Nat) : nth (recordWords s p) i < 2 ^ 64 := by
  by_cases hi : i < 8
  · rw [nth_recordWords s p hi]; exact s.readAt_lt _ 8
  · simp [nth, recordWords, hi]

/-- Bytes written to a scratchpad are read there. -/
theorem bytesAt_perform_scratch (s : State) {p : Nat} {l : List Nat} (hp : isScratch p = true) (hl : ∀ x ∈ l, x < 256) :
    (s.perform p l).bytesAt p l.length = l := by
  refine List.ext_getElem (length_bytesAt _ _ _) fun i h1 h2 => ?_
  have at_ : ∀ n p i, (h : i < (upFrom p n).length) → (upFrom p n)[i] = p + i := by
    intro n
    induction n with
    | zero => intro p i h; simp [upFrom] at h
    | succ n ih =>
      intro p i h
      cases i with
      | zero => rfl
      | succ i => simp only [upFrom, List.getElem_cons_succ, ih]; omega
  simp only [bytesAt, List.getElem_map, at_]
  rw [byteAt_perform_scratch _ _ _ _ hp, if_pos (by omega), Nat.add_sub_cancel_left, List.getD_eq_getElem?_getD,
    List.getElem?_eq_getElem h2, Option.getD_some]
  exact Nat.mod_eq_of_lt (hl _ (List.getElem_mem h2))

/-- A record written to a scratchpad is read there: its first word. -/
theorem firstWord_perform (s : State) {p : Nat} {l : List Nat} (hp : isScratch p = true) (hl : l.length = 8) :
    nth (recordWords (s.perform p (wordBytes l)) p) 0 = nth l 0 % 2 ^ 64 := by
  have length : (wordBytes l).length = 64 := by rw [length_wordBytes, hl]
  have bytes := bytesAt_perform_scratch s hp (wordBytes_lt l)
  rw [length] at bytes
  rw [← splitLanes_bytesAt, bytes, ofBytes_wordBytes]
  cases l with
  | nil => rfl
  | cons x l =>
    show (x % 2 ^ 64 + 2 ^ 64 * joinLanes 64 l) % 2 ^ 64 = x % 2 ^ 64
    rw [Nat.add_mul_mod_self_left, Nat.mod_mod]

theorem bytesAt_lt (s : State) (p n : Nat) : ∀ x ∈ s.bytesAt p n, x < 256 := by
  intro x hx
  obtain ⟨q, _, rfl⟩ := List.mem_map.mp hx
  exact (Store.get unlistedByte s.mem q).isLt

end State
end Machine

namespace Store

variable {α : Type} [DecidableEq α]

open Machine.State (mapUnits)

theorem mapUnits_cons (d : α) (e : Nat × α) (l : Store α) (g : Nat → α → α) :
    mapUnits d (e :: l) g = if g e.1 e.2 = d then mapUnits d l g else (e.1, g e.1 e.2) :: mapUnits d l g := by
  by_cases h : g e.1 e.2 = d <;> simp [mapUnits, h]

theorem get_mapUnits_drop (d : α) (g : Nat → α → α) (l : Store α) (k : Nat) : get d (mapUnits d (drop l k) g) k = d := by
  induction l with
  | nil => rfl
  | cons e l ih =>
    by_cases h : e.1 = k
    · simpa [drop, h] using ih
    · by_cases hd : g e.1 e.2 = d <;> simp [drop, h, mapUnits_cons, hd, get, ih]

theorem get_mapUnits_put (d : α) (g : Nat → α → α) (l : Store α) (k : Nat) (v : α) :
    get d (mapUnits d (put (drop l k) k v) g) k = g k v := by
  have front : ∀ m : Store α, get d (mapUnits d ((k, v) :: drop m k) g) k = g k v := by
    intro m
    by_cases hv : g k v = d <;> simp [mapUnits_cons, hv, get, get_mapUnits_drop]
  induction l with
  | nil => exact front []
  | cons e l ih =>
    by_cases h : e.1 = k
    · simpa [drop, h] using ih
    · by_cases hlt : k < e.1
      · simpa [drop, h, put, hlt] using front (e :: l)
      · by_cases hd : g e.1 e.2 = d <;> simp [drop, h, put, hlt, mapUnits_cons, hd, get, ih]

/-- A unit just written is read as it is rewritten. -/
theorem get_mapUnits_set (d : α) {g : Nat → α → α} (l : Store α) (k : Nat) (v : α) (hg : g k d = d) :
    get d (mapUnits d (set d l k v) g) k = g k v := by
  by_cases h : v = d
  · rw [h, hg, set, if_pos rfl, get_mapUnits_drop]
  · rw [set, if_neg h, get_mapUnits_put]

end Store

end Sys2Proof
end

section
/-!
SUPPORT. Records (R35 to R40, R294, R295, R443): the strand that picks one up, the pool slot that a copied one gets, the places
from which one is taken, and the record that a `yield` leaves.
-/

namespace Sys2Proof.Machine

/-! ### The strand of a record (R35, R37) -/

/-- The strand that runs the record of words `w` in slot `a`; `old` is what the launch unit held of its continuation. -/
def Hart.running (h : Hart) (frm a : Nat) (old : Option Cont) (w : List Nat) : Hart :=
  { (h.pickUp frm (State.pickOf w)) with
    record := some a, level := bits (nth w 7) 3 3, latch := old.bind (·.latch), heldAnti := old.bind (·.heldAnti),
    handlerTag := old.bind (·.handlerTag) }

theorem pickedUp_running (h : Hart) (frm a : Nat) (old : Option Cont) {w : List Nat} (hw : ∀ i, nth w i < 2 ^ 64) :
    PickedUp w a (h.running frm a old w) := by
  refine ⟨rfl, rfl, Nat.mod_eq_of_lt (hw 1), ?_, ?_, ?_, ?_, ?_, ?_, ?_, ?_, rfl, rfl, rfl, rfl⟩
  case refine_6 =>
    intro n h4 h31
    have : n ≠ 1 ∧ n ≠ 2 ∧ n ≠ 3 ∧ n ≠ 4 := by omega
    simp [Hart.nowS, Hart.running, Hart.pickUp, State.pickOf, Store.get_set, this, h31]
  case refine_7 => simp [Hart.running, Hart.pickUp, State.pickOf, bits]
  case refine_8 => simp [Hart.running, bits, Nat.shiftRight_eq_div_pow]
  all_goals simpa [Hart.nowS, Hart.running, Hart.pickUp, State.pickOf, Store.get_set] using hw _

theorem recordFault_of_ok {w : List Nat} (h : RecordOk w) : recordFault w = none := by
  obtain ⟨hpc, hhigh, hreserved⟩ := h
  have high : nth w 7 / 2 ^ 32 = 0 := Nat.div_eq_of_lt hhigh
  simp only [recordFault, bits, Nat.shiftRight_eq_div_pow, hpc, high, hreserved, ne_eq, not_true_eq_false, or_self, if_false]

namespace State

/-! ### Frames -/

theorem bytesAt_of_mem {s t : State} (h : t.mem = s.mem) (p n : Nat) : t.bytesAt p n = s.bytesAt p n :=
  List.map_congr_left fun q _ => byteAt_of_mem h q

theorem recordWords_of_mem {s t : State} (h : t.mem = s.mem) (p : Nat) : recordWords t p = recordWords s p :=
  List.map_congr_left fun i _ => congrArg ofBytes (bytesAt_of_mem h (p + 8 * i) 8)

theorem clusterAt_setCluster_eq (s : State) (k j : Nat) (x : Cluster) :
    (s.setCluster k x).clusterAt j = if j = k then x else s.clusterAt j := Store.get_set ..

/-- Units whose accesses change owner keep their deques. -/
theorem dqCount_mapOwner {s : State} {cores : Store Core} {c : Nat} {x : Core} (h : s.cores = Store.set {} cores c x)
    (g : Owner → Owner) : ((s.mapOwner g).coreAt c).dqCount = x.dqCount := by
  rw [coreAt, mapOwner, h]
  dsimp only
  rw [Store.get_mapUnits_set _ _ _ _ (by rfl)]
  split <;> rfl

theorem writeBytes_frame (l : List Nat) : ∀ (s : State) (p : Nat), ∃ mem, s.writeBytes p l = { s with mem := mem } := by
  induction l with
  | nil => exact fun s p => ⟨s.mem, rfl⟩
  | cons x l ih =>
    intro s p
    obtain ⟨mem, h⟩ := ih (s.setByte p x) (p + 1)
    exact ⟨mem, h⟩

/-- A write to a scratchpad changes memory and the written lines alone, where no line is poisoned. -/
theorem perform_frame {s : State} {p : Nat} (hp : isScratch p = true) (hq : s.poison = []) (l : List Nat) :
    ∃ mem written, s.perform p l = { s with mem := mem, written := written } := by
  obtain ⟨mem, h⟩ := writeBytes_frame l s p
  simp only [perform, h, hp, hq, if_true]
  exact ⟨mem, _, rfl⟩

theorem closeGap_frame {place : Nat → Nat} (hplace : ∀ i, isScratch (place i) = true) (head n : Nat) :
    ∀ (fuel j : Nat) (s : State), s.poison = [] →
      ∃ mem written, s.closeGap place head n fuel j = { s with mem := mem, written := written } := by
  intro fuel
  induction fuel with
  | zero => exact fun j s _ => ⟨s.mem, s.written, rfl⟩
  | succ fuel ih =>
    intro j s hq
    rw [closeGap]
    split
    · obtain ⟨mem, written, h⟩ := perform_frame (hplace (head + j)) hq (s.bytesAt (place (head + j + 1)) 64)
      rw [h]
      exact ih (j + 1) _ hq
    · exact ⟨s.mem, s.written, rfl⟩

theorem isScratch_dequePlace (c i : Nat) : isScratch (dequePlace c i) = true := by
  rw [isScratch, decide_eq_true_eq, dequePlace, placeLocal]; omega

theorem isScratch_clusterDequePlace (n i : Nat) : isScratch (clusterDequePlace n i) = true := by
  rw [isScratch, decide_eq_true_eq, clusterDequePlace, placeCluster]; omega

theorem isScratch_poolPlace (n i : Nat) : isScratch (poolPlace n i) = true := by
  rw [isScratch, decide_eq_true_eq, poolPlace, placeCluster]; omega

/-! ### A record runs (R37) -/

section
variable {s : State} {k a : Nat} {w : List Nat} (hw : recordFault w = none)
include hw

/-- A well-formed record changes its strand, what the launch unit holds, and whose the accesses of the continuation are. -/
theorem runRecord_frame : ∃ frm old hub, s.runRecord k a w =
    { (s.setHart k ((s.hartAt k).running frm a old w)).adopt k a ((s.hartAt k).slot.getD 0) with hub := hub } := by
  refine ⟨s.frmOf (s.hartAt k).slot, s.hub.conts.find? (fun c => c.recAddr == a && some c.slot == (s.hartAt k).slot), ?_⟩
  simp only [runRecord, hw]
  split
  · exact ⟨_, rfl⟩
  · cases (s.hartAt k).slot <;> exact ⟨_, rfl⟩

theorem runRecord_pickedUp (hlt : ∀ i, nth w i < 2 ^ 64) : PickedUp w a ((s.runRecord k a w).hartAt k) := by
  obtain ⟨frm, old, hub, h⟩ := runRecord_frame hw (s := s) (k := k) (a := a)
  have : (s.runRecord k a w).hartAt k = (s.hartAt k).running frm a old w := by
    rw [h]; exact hartAt_setHart s k ((s.hartAt k).running frm a old w)
  rw [this]
  exact pickedUp_running _ _ _ _ hlt

theorem runRecord_rest : (s.runRecord k a w).mem = s.mem ∧ (s.runRecord k a w).clusters = s.clusters ∧
    ∃ slot, (s.runRecord k a w).cores = (s.adopt k a slot).cores := by
  obtain ⟨frm, old, hub, h⟩ := runRecord_frame hw (s := s) (k := k) (a := a)
  rw [h]
  exact ⟨rfl, rfl, _, rfl⟩

end

/-! ### The slot of a record (R40, R375) -/

/-- A continuation without a slot gets the lowest free one of its flock's pool. -/
theorem recordSlot_free {s : State} {f : Flock} {free : Nat} (hr : s.me.record = none) (hf : s.flockOf s.hart = some f)
    (hfree : f.pool.find? (fun i => !(s.clusterAt f.cluster).poolBusy.contains i) = some free) :
    let c := s.clusterAt f.cluster
    s.recordSlot = .ok ((s.setCluster f.cluster { c with poolBusy := c.poolBusy ++ [free] }).setMe
      { s.me with record := some (poolAddr f.cluster free) }, poolAddr f.cluster free) := by
  simp only [recordSlot, hr, hf, hfree]
  rfl

theorem poolAddr_place {n i : Nat} (hn : n < 96) (hi : i < 256) :
    0xF5 * 2 ^ 56 + poolAddr n i % 2 ^ 56 = poolPlace n i := by
  unfold poolAddr poolPlace placeCluster; omega

/-- The strand's flock has a free pool slot, the lowest of which is `free`, and no line of memory is poisoned. -/
structure GetsSlot (s : State) (k : Nat) (f : Flock) (free : Nat) : Prop where
  flock : s.flockOf k = some f
  lowest : f.pool.find? (fun i => !(s.clusterAt f.cluster).poolBusy.contains i) = some free
  cluster : f.cluster < 96
  inRange : free < 256
  clean : s.poison = []

/-- A record copied from a deque runs from the lowest free slot of the flock's pool, which holds its bytes (R294). -/
theorem runCopied_runs {s : State} {k free : Nat} {f : Flock} {data w : List Nat} (h : s.GetsSlot k f free)
    (hlen : data.length = 64) (hb : ∀ x ∈ data, x < 256) (hwords : splitLanes 64 8 (ofBytes data) = w)
    (hw : ∀ i, nth w i < 2 ^ 64) (hok : RecordOk w) :
    ∃ t, s.runCopied k data = .ok t ∧ PickedUp w (poolAddr f.cluster free) (t.hartAt k) ∧
      t.bytesAt (poolPlace f.cluster free) 64 = data ∧ (∀ n, (t.clusterAt n).cdCount = (s.clusterAt n).cdCount) ∧
      ∃ a slot, t.cores = (s.adopt k a slot).cores := by
  obtain ⟨hf, hfree, hcl, hi, hq⟩ := h
  have hfault := recordFault_of_ok hok
  let c := s.clusterAt f.cluster
  let r : State := ({ s with hart := k } : State).setHart k { s.hartAt k with record := none }
  let u := r.setCluster f.cluster { c with poolBusy := c.poolBusy ++ [free] }
  let v : State := { u.setMe { u.me with record := some (poolAddr f.cluster free) } with hart := s.hart }
  have none : r.me.record = none := congrArg Hart.record (hartAt_setHart { s with hart := k } k _)
  have same : r.flockOf r.hart = some f := by simpa [r, flockOf, launchOf, hartAt, launchAt] using hf
  have slot := recordSlot_free none same hfree
  obtain ⟨mem, written, hp⟩ := perform_frame (s := v) (isScratch_poolPlace f.cluster free) hq data
  have run : s.runCopied k data = .ok ((v.perform (poolPlace f.cluster free) data).runRecord k (poolAddr f.cluster free) w) := by
    rw [runCopied, ← poolAddr_place hcl hi, ← hwords]
    dsimp only
    rw [slot]
    rfl
  obtain ⟨hmem, hclusters, slotNo, hcores⟩ := runRecord_rest (s := v.perform (poolPlace f.cluster free) data) (k := k)
    (a := poolAddr f.cluster free) hfault
  refine ⟨_, run, runRecord_pickedUp hfault hw, ?_, fun n => ?_, poolAddr f.cluster free, slotNo, hcores.trans ?_⟩
  · have := bytesAt_perform_scratch v (isScratch_poolPlace f.cluster free) hb
    rw [hlen] at this
    exact (bytesAt_of_mem hmem _ _).trans this
  · have : (v.perform (poolPlace f.cluster free) data).clusters = u.clusters := by rw [hp]; rfl
    rw [clusterAt, hclusters, this]
    show (u.clusterAt n).cdCount = _
    simp only [u, clusterAt_setCluster_eq]
    split
    next h => rw [h]
    next => rfl
  · rw [hp]; rfl

/-! ### Where a record is taken from (R294, R295) -/

section
variable {s : State} {k free : Nat} {f : Flock} (h : s.GetsSlot k f free)
include h

/-- A record of a core's deque leaves it, and runs from a copy. -/
theorem takeDeque_runs {core j : Nat} (hj : j < (s.coreAt core).dqCount)
    (hok : RecordOk (recordWords s (dequePlace core ((s.coreAt core).dqHead + j)))) :
    let w := recordWords s (dequePlace core ((s.coreAt core).dqHead + j))
    ∃ t, s.takeDeque core k j = .ok t ∧ PickedUp w (poolAddr f.cluster free) (t.hartAt k) ∧
      (t.coreAt core).dqCount + 1 = (s.coreAt core).dqCount ∧ t.readAt (poolPlace f.cluster free) 64 = joinLanes 64 w := by
  intro w
  let c := s.coreAt core
  obtain ⟨mem, written, hgap⟩ := closeGap_frame (isScratch_dequePlace core) c.dqHead c.dqCount c.dqCount j s h.clean
  let u := ({ s with mem := mem, written := written } : State).setCore core { c with dqCount := c.dqCount - 1 }
  have hu : u.GetsSlot k f free := { h with }
  obtain ⟨t, hrun, hpick, hbytes, _, a, slot, hcores⟩ := runCopied_runs hu (s.length_bytesAt _ 64) (s.bytesAt_lt _ 64)
    (s.splitLanes_bytesAt _) (s.nth_recordWords_lt _) hok
  refine ⟨t, ?_, hpick, ?_, ?_⟩
  · rw [takeDeque, hgap]; exact hrun
  · have := dqCount_mapOwner (s := u) rfl (fun o => if o = .record a slot then .hart k else o)
    rw [coreAt, hcores]
    have : (Store.get {} (u.adopt k a slot).cores core).dqCount = c.dqCount - 1 := this
    rw [this]
    exact Nat.sub_add_cancel (Nat.one_le_of_lt hj)
  · rw [readAt, hbytes]; exact s.readAt_words _ 8

/-- A record of a cluster's deque leaves it, and runs from a copy. -/
theorem takeClusterDeque_runs {n j : Nat} (hj : j < (s.clusterAt n).cdCount)
    (hok : RecordOk (recordWords s (clusterDequePlace n ((s.clusterAt n).cdHead + j)))) :
    ∃ t, s.takeClusterDeque n k j = .ok t ∧
      PickedUp (recordWords s (clusterDequePlace n ((s.clusterAt n).cdHead + j))) (poolAddr f.cluster free) (t.hartAt k) ∧
      (t.clusterAt n).cdCount + 1 = (s.clusterAt n).cdCount := by
  let x := s.clusterAt n
  obtain ⟨mem, written, hgap⟩ := closeGap_frame (isScratch_clusterDequePlace n) x.cdHead x.cdCount x.cdCount j s h.clean
  let u := ({ s with mem := mem, written := written } : State).setCluster n { x with cdCount := x.cdCount - 1 }
  have busy : (u.clusterAt f.cluster).poolBusy = (s.clusterAt f.cluster).poolBusy := by
    simp only [u, clusterAt_setCluster_eq]
    split
    next he => rw [he]
    next => rfl
  have hu : u.GetsSlot k f free := { h with lowest := by rw [busy]; exact h.lowest }
  obtain ⟨t, hrun, hpick, _, hcount, _⟩ := runCopied_runs hu (s.length_bytesAt _ 64) (s.bytesAt_lt _ 64)
    (s.splitLanes_bytesAt _) (s.nth_recordWords_lt _) hok
  refine ⟨t, ?_, hpick, ?_⟩
  · rw [takeClusterDeque, hgap]; exact hrun
  · have : (u.clusterAt n).cdCount = x.cdCount - 1 := by simp [u]
    rw [hcount, this]
    exact Nat.sub_add_cancel (Nat.one_le_of_lt hj)

end

/-! ### Reads and writes of a pool slot -/

theorem resolve_poolAddr (s : State) (k : Nat) {n i : Nat} (hn : n < 96) (hi : i < 256) :
    s.resolve k (poolAddr n i) = some (.scratch (poolPlace n i) (2 ^ 23 - (0x7F8000 + 64 * i))) := by
  have h1 : bits (poolAddr n i) 56 8 = 0xF5 := by unfold bits poolAddr; omega
  have h2 : bits (poolAddr n i) 0 56 = n * 2 ^ 23 + (0x7F8000 + 64 * i) := by unfold bits poolAddr; omega
  have h3 : bits (n * 2 ^ 23 + (0x7F8000 + 64 * i)) 23 7 = n := by unfold bits; omega
  have h4 : (n * 2 ^ 23 + (0x7F8000 + 64 * i)) % 2 ^ 23 = 0x7F8000 + 64 * i := by omega
  have h5 : n * 2 ^ 23 + (0x7F8000 + 64 * i) < 2 ^ 30 := by omega
  simp only [resolve, h1, h2, h3, h4, h5, hn, and_self, if_true]
  rfl

/-- An access to a pool slot by an agent that no user right bars passes its checks, in one piece. -/
theorem check_poolAddr (s : State) {w : Who} (f : Form) {n i : Nat} (hn : n < 96) (hi : i < 256) (hs : w.scratch = true)
    (hu : w.user = false) : s.check w f (poolAddr n i) 64 64 = .ok (s, [⟨poolPlace n i, 64, 0⟩]) := by
  have aligned : poolAddr n i % 64 = 0 := by unfold poolAddr; omega
  have room : ¬2 ^ 23 - (0x7F8000 + 64 * i) < 64 := by omega
  simp only [check, aligned, resolve_poolAddr s _ hn hi, room, hs, hu, ne_eq, not_true_eq_false, if_false, Bool.not_true,
    Bool.false_eq_true, or_self, Bool.false_and]
  rfl

section
variable {s : State} {p : Nat} (hp : isScratch p = true)
include hp

theorem remote_scratch : s.remote p = false := by simp [remote, hp]

theorem pathBusy_scratch (m : Nat) : s.pathBusy [⟨p, m, 0⟩] = false := by
  simp [pathBusy, replicas, placeBusy, remote_scratch hp]

theorem noCredit_scratch (t : Traffic) : s.noCredit t p = false := by simp [noCredit, remote_scratch hp]

end

/-- A checked read of a scratchpad gives the bytes there, where no line is poisoned. -/
theorem readBytes_scratch {s : State} {w : Who} {a p n al : Nat} (hc : s.check w .read a n al = .ok (s, [⟨p, n, 0⟩]))
    (hp : isScratch p = true) (ho : w.own = false) (hq : s.poison = []) :
    s.readBytes w .read a n al = .ok (s, s.bytesAt p n) := by
  have held : s.readHeld [⟨p, n, 0⟩] = false := by simp [readHeld, pathBusy_scratch hp, replicas, noCredit_scratch hp]
  have bad : s.chunkBad ⟨p, n, 0⟩ = false := by simp [chunkBad, replicas, poisoned, hq, homeLost_scratch s hp]
  have opened : s.openRead w .read a n al = .ok (s, [⟨p, n, 0⟩]) := by
    simp [openRead, hc, ho, held, bad, bind, Except.bind]
  simp [readBytes, opened, readChunks, readChunk, bind, Except.bind]

end State
end Sys2Proof.Machine
end

section
/-!
SUPPORT. Which records are picked up (R36 to R40, R294, R295, R443), and the settled statement about the steps of a core and its
cluster.
-/

namespace Sys2Proof.Machine

theorem ok_bind {α β : Type} (x : α) (g : α → Act β) : ((.ok x : Act α) >>= g) = g x := rfl

namespace State

/-! ### An empty inbox -/

theorem dropUnreachable_empty {s : State} {c : Nat} (h : (s.coreAt c).inbox = []) : s.dropUnreachable c = s := by
  simp [dropUnreachable, h]

theorem deliver_empty {s : State} {k : Nat} (h : (s.coreAt (k / 8)).inbox = []) : s.deliver k = none := by
  simp [deliver, chooseMessage, h, leastBy]

/-! ### Ready queues (R443) -/

theorem recordSlotNo_of_ok {w : List Nat} (h : RecordOk w) : recordSlotNo w = nth w 7 / 2 ^ 16 := by
  obtain ⟨_, hhigh, _⟩ := h
  rw [recordSlotNo, bits, Nat.shiftRight_eq_div_pow]
  exact Nat.mod_eq_of_lt (by omega)

/-- A record that names the slot of its entry runs. -/
theorem takeReady_eq {s u v : State} {k : Nat} {e : Nat × Nat} {l : List Nat}
    (hu : s.setCluster (clusterOf (k / 8)) { s.clusterAt (clusterOf (k / 8)) with
      ready := (s.clusterAt (clusterOf (k / 8))).ready.erase e } = u)
    (hread : u.readBytes (u.whoLaunch k e.2) .read e.1 64 64 = .ok (v, l))
    (hslot : recordSlotNo (splitLanes 64 8 (ofBytes l)) = e.2) :
    s.takeReady k e = .ok (v.runRecord k e.1 (splitLanes 64 8 (ofBytes l))) := by
  subst hu
  simp only [takeReady, hread, hslot, if_true]

/-- The oldest entry of a ready queue leaves it, and its record runs in its slot. -/
theorem takeReady_runs {s : State} {k n i slot : Nat} {l : List (Nat × Nat)} (hn : n < 96) (hi : i < 256)
    (hready : (s.clusterAt (clusterOf (k / 8))).ready = (poolAddr n i, slot) :: l) (hq : s.poison = [])
    (hok : RecordOk (recordWords s (poolPlace n i))) (hslot : nth (recordWords s (poolPlace n i)) 7 / 2 ^ 16 = slot) :
    ∃ t, s.takeReady k (poolAddr n i, slot) = .ok t ∧
      PickedUp (recordWords s (poolPlace n i)) (poolAddr n i) (t.hartAt k) ∧ (t.clusterAt (clusterOf (k / 8))).ready = l := by
  let u := s.setCluster (clusterOf (k / 8))
    { s.clusterAt (clusterOf (k / 8)) with ready := (s.clusterAt (clusterOf (k / 8))).ready.erase (poolAddr n i, slot) }
  have launch : (u.whoLaunch k slot).scratch = true ∧ (u.whoLaunch k slot).user = false ∧ (u.whoLaunch k slot).own = false := by
    rw [whoLaunch]; split <;> exact ⟨rfl, rfl, rfl⟩
  obtain ⟨hscratch, huser, hown⟩ := launch
  have read := readBytes_scratch (check_poolAddr u .read hn hi hscratch huser) (isScratch_poolPlace n i) hown hq
  have words : splitLanes 64 8 (ofBytes (u.bytesAt (poolPlace n i) 64)) = recordWords s (poolPlace n i) :=
    s.splitLanes_bytesAt _
  have hfault := recordFault_of_ok hok
  refine ⟨u.runRecord k (poolAddr n i) (recordWords s (poolPlace n i)), ?_,
    runRecord_pickedUp hfault (s.nth_recordWords_lt _), ?_⟩
  · rw [← words]
    exact takeReady_eq rfl read (by rw [words, recordSlotNo_of_ok hok, hslot])
  · obtain ⟨_, hclusters, _⟩ := runRecord_rest (s := u) (k := k) (a := poolAddr n i) hfault
    rw [clusterAt, hclusters]
    show (u.clusterAt (clusterOf (k / 8))).ready = l
    simp [u, hready]

/-! ### A `yield` (R39, R40) -/

theorem poolIndex_poolAddr {n i : Nat} (hn : n < 96) (hi : i < 256) : poolCluster (poolAddr n i) = some n ∧
    (poolAddr n i % 2 ^ 23 - 0x7F8000) / 64 = i := by
  have h1 : poolAddr n i % 2 ^ 23 = 0x7F8000 + 64 * i := by unfold poolAddr; omega
  have h2 : poolAddr n i / 2 ^ 56 = 0xF5 := by unfold poolAddr; omega
  have h3 : bits (poolAddr n i) 23 7 = n := by unfold bits poolAddr; omega
  refine ⟨?_, by omega⟩
  simp only [poolCluster, h1, h2, h3]
  rw [if_pos ⟨trivial, by omega, by omega⟩]

/-- With no store under way, a hart's access to a scratchpad comes after nothing. -/
theorem ownFirst_scratch {s : State} {p : Nat} (hp : isScratch p = true) (hs : s.stores = []) (k n : Nat) :
    s.ownFirst k [⟨p, n, 0⟩] = .ok s := by
  simp [ownFirst, drainWhere, hs, drainList, ok_bind, pathBusy_scratch hp]

/-- A hart's write to a scratchpad performs at once. -/
theorem writeOwn_scratch {s : State} {p : Nat} (hp : isScratch p = true) (ha : s.hub.agist = []) (k : Nat) (user : Bool)
    (a n : Nat) (data : List Nat) : s.writeOwn k user a [⟨p, n, 0⟩] data = .ok (s.perform p (data.take n)) := by
  have write : s.writeNow user a [⟨p, n, 0⟩] data = .ok (s.perform p (data.take n)) := by
    simp [writeNow, replicas, homeLost_scratch s hp, quotaHoldsAny, ha, pathBusy_scratch hp, noCredit_scratch hp, performChunks,
      performChunk, ok_bind]
  simp [writeOwn, write, noteDests, replicas, hp, ok_bind]

/-- A record is written at once where its write is to a scratchpad and no store is under way. -/
theorem writeRecord_scratch {s : State} {a p n next : Nat} (hp : isScratch p = true) (hs : s.stores = [])
    (ha : s.hub.agist = [])
    (hc : s.check { s.whoMe with user := s.whoMe.user && (poolIndex a).isNone } .vstore a 64 64 = .ok (s, [⟨p, n, 0⟩])) :
    s.writeRecord a next = .ok (s.perform p ((wordBytes (s.me.recordWords next)).take n)) := by
  rw [writeRecord, hc, ok_bind]
  dsimp only
  rw [ownFirst_scratch hp hs, ok_bind, writeOwn_scratch hp ha]

theorem poolIndex_isNone {a c : Nat} (h : poolCluster a = some c) : (poolIndex a).isNone = false := by
  rw [poolIndex, h]; rfl

/-- No user right bars the write of a record to its pool slot (R375; log 32). -/
theorem writeRecord_pool {s : State} {n i : Nat} (hn : n < 96) (hi : i < 256) (hs : s.stores = []) (ha : s.hub.agist = [])
    (next : Nat) : s.writeRecord (poolAddr n i) next =
      .ok (s.perform (poolPlace n i) ((wordBytes (s.me.recordWords next)).take 64)) := by
  have user : (s.whoMe.user && (poolIndex (poolAddr n i)).isNone) = false := by
    rw [poolIndex_isNone (poolIndex_poolAddr hn hi).1, Bool.and_false]
  exact writeRecord_scratch (isScratch_poolPlace n i) hs ha
    (check_poolAddr s (w := { s.whoMe with user := s.whoMe.user && (poolIndex (poolAddr n i)).isNone }) .vstore hn hi rfl user)

/-- The strand idle, and its continuation in slot `a` ready. -/
def yielded (v : State) (a : Nat) : State :=
  let x := v.suspended a .ready none
  (((v.trackCont x).park v.hart a x.slot).freeHart v.hart).placeReady a x.slot v.coreNo

theorem yielded_hart (v : State) (a : Nat) : (v.yielded a).hartAt v.hart = idleHart v.me := by
  have : (v.yielded a).harts = Store.set {} v.harts v.hart (idleHart v.me) := rfl
  rw [hartAt, this, Store.get_set_same]

theorem yielded_mem (v : State) (a : Nat) : (v.yielded a).mem = v.mem := by
  simp only [yielded, placeReady, setCluster_mem, freeHart, disown, orphanTakes, park, mapOwner, setHart_mem, trackCont]

/-- The record joins the ready queue of the cluster that holds its slot (R327). -/
theorem yielded_ready {v : State} {a n : Nat} (h : v.poolHolder a = some n) :
    (a, v.me.slot.getD 0) ∈ ((v.yielded a).clusterAt n).ready := by
  let x := v.suspended a .ready none
  let y := ((v.trackCont x).park v.hart a x.slot).freeHart v.hart
  have holder : y.poolHolder a = some n := h
  have : v.yielded a = y.setCluster n { y.clusterAt n with ready := (y.clusterAt n).ready ++ [(a, v.me.slot.getD 0)] } := by
    show y.placeReady a x.slot v.coreNo = _
    rw [placeReady, holder]
    rfl
  rw [this, clusterAt_setCluster]
  exact List.mem_append_right _ (.head _)

theorem runSusp_yield {s u v : State} {a next : Nat} (slot : s.recordSlot = .ok (u, a)) (write : u.writeRecord a next = .ok v) :
    s.runSusp next .yield_ = .ok (v.yielded a) := by
  rw [runSusp, leave, slot, ok_bind]
  dsimp only
  rw [write, ok_bind]
  rfl

theorem poolHolder_of_index {s : State} {a n i : Nat} (ha : poolCluster a = some n ∧ (a % 2 ^ 23 - 0x7F8000) / 64 = i)
    (h : ∃ e ∈ (s.clusterAt n).pool, e.1 = i) : s.poolHolder a = some n := by
  obtain ⟨hcluster, hindex⟩ := ha
  simp only [poolHolder, hcluster, hindex]
  rw [if_pos]
  simpa using h

/-- A continuation whose record is written to a scratchpad, in a slot that a cluster's pool holds, leaves its strand idle, its
record there, and the slot in the cluster's ready queue (R39, R327). -/
theorem yielded_perform {u : State} {a p n next : Nat} (hp : isScratch p = true) (hq : u.poison = [])
    (holder : u.poolHolder a = some n) :
    let t := (u.perform p (wordBytes (u.me.recordWords next))).yielded a
    (t.hartAt u.hart).occ = false ∧ (t.hartAt u.hart).flow = .gone ∧ nth (recordWords t p) 0 = next / 8 * 8 % 2 ^ 64 ∧
      (a, u.me.slot.getD 0) ∈ (t.clusterAt n).ready := by
  intro t
  have first : nth (recordWords t p) 0 = next / 8 * 8 % 2 ^ 64 :=
    (congrArg (nth · 0) (recordWords_of_mem (yielded_mem _ a) p)).trans (u.firstWord_perform hp rfl)
  obtain ⟨mem, written, h⟩ := perform_frame hp hq (wordBytes (u.me.recordWords next))
  have ht : t = ({ u with mem := mem, written := written } : State).yielded a := congrArg (·.yielded a) h
  have hart : t.hartAt u.hart = idleHart u.me := by rw [ht]; exact yielded_hart { u with mem := mem, written := written } a
  refine ⟨congrArg Hart.occ hart, congrArg Hart.flow hart, first, ?_⟩
  rw [ht]
  exact yielded_ready (v := { u with mem := mem, written := written }) holder

/-- The continuation of a strand leaves it with its record in the lowest free slot of the flock's pool, which joins the ready
queue of the cluster that holds the pool (R40, R327). -/
theorem runSusp_yield_pool {s : State} {f : Flock} {free : Nat} (h : s.GetsSlot s.hart f free) (hr : s.me.record = none)
    (hs : s.stores = []) (ha : s.hub.agist = []) (hpool : ∃ e ∈ (s.clusterAt f.cluster).pool, e.1 = free) (next : Nat) :
    ∃ t, s.runSusp next .yield_ = .ok t ∧ (t.hartAt s.hart).occ = false ∧ (t.hartAt s.hart).flow = .gone ∧
      nth (recordWords t (poolPlace f.cluster free)) 0 = next / 8 * 8 % 2 ^ 64 ∧
      (poolAddr f.cluster free, s.me.slot.getD 0) ∈ (t.clusterAt f.cluster).ready := by
  have slot := recordSlot_free hr h.flock h.lowest
  have index := poolIndex_poolAddr h.cluster h.inRange
  have write := fun u hu hv => writeRecord_pool (s := u) h.cluster h.inRange hu hv next
  generalize poolAddr f.cluster free = a at *
  have hp := isScratch_poolPlace f.cluster free
  generalize poolPlace f.cluster free = p at *
  let c := s.clusterAt f.cluster
  let u := (s.setCluster f.cluster { c with poolBusy := c.poolBusy ++ [free] }).setMe { s.me with record := some a }
  have whole : (wordBytes (u.me.recordWords next)).take 64 = wordBytes (u.me.recordWords next) :=
    List.take_of_length_le (by rw [length_wordBytes]; exact Nat.le_refl 64)
  have write := write u hs ha
  rw [whole] at write
  have pool : ∃ e ∈ (u.clusterAt f.cluster).pool, e.1 = free := by
    have : u.clusterAt f.cluster = { c with poolBusy := c.poolBusy ++ [free] } := clusterAt_setCluster s f.cluster _
    rw [this]
    exact hpool
  have mine : u.me.slot = s.me.slot := by simp only [u, me_setMe]
  obtain ⟨hocc, hflow, hword, hready⟩ := yielded_perform (next := next) hp (u := u) h.clean (poolHolder_of_index index pool)
  rw [mine] at hready
  exact ⟨_, runSusp_yield slot write, hocc, hflow, hword, hready⟩

end State

/-! ### The steps -/

theorem recordsArePickedUp : RecordsArePickedUp := by
  intro s f free c k x goes pool has hstrand hc hcl hi hpool hquiet hinbox
  obtain ⟨hstores, hatomics, hnears, hclean, hfenced, hmoves, hagist, hckd⟩ := hquiet
  have hk : k / 8 = c := by omega
  have hk16 : clusterOf (k / 8) = c / 16 := by rw [hk]; rfl
  have gets : ∀ {k : Nat}, has k → s.GetsSlot k f free := fun h => ⟨h.1, h.2, hcl, hi, hclean⟩
  have quiet : s = s.dropUnreachable (k / 8) := by rw [hk, State.dropUnreachable_empty hinbox]
  have silent : s.deliver k = none := State.deliver_empty (by rw [hk]; exact hinbox)
  have pickup : ∀ {t : State}, s.takeWork k = .ok t → exec .continuationPickup s = .next t := fun h => by
    rw [exec_continuationPickup, execContinuationPickup, State.evHart, h, finishEvent_ok]
  refine ⟨?deque, ?ready, ?clusterDeque, ?steal, ?yield_⟩
  case deque =>
    intro j hhas hlast w hok
    have hj : j < (s.coreAt c).dqCount := by
      have := List.mem_of_getLast? hlast
      simp only [State.dequeFor, List.mem_filter, mem_upFrom] at this
      omega
    obtain ⟨t, htake, hpick, hcount, hcopy⟩ := State.takeDeque_runs (gets hhas) hj hok
    refine ⟨t, pickup ?_, hpick, hcount, hcopy⟩
    rw [State.takeWork_deque quiet silent (by rw [hk]; exact hlast), hk]
    exact htake
  case ready =>
    intro cl i l hnone hfor hready hcl hi w hok hslot
    have hslot : nth w 7 / 2 ^ 16 = (s.hartAt k).slot.getD 0 := by rw [← hslot]; rfl
    obtain ⟨t, htake, hpick, hrest⟩ := State.takeReady_runs (k := k) hcl hi (by rw [hk16]; exact hready) hclean hok hslot
    rw [hk16] at hrest
    refine ⟨t, pickup ?_, hpick, hrest⟩
    rw [State.takeWork_ready quiet silent (by rw [hk, hnone]; rfl) hfor]
    exact htake
  case clusterDeque =>
    intro j hhas hnone hfor hhead w hok
    have hj : j < (s.clusterAt (c / 16)).cdCount := by
      have := List.mem_of_head? hhead
      simp only [State.clusterDequeFor, List.mem_filter, mem_upFrom] at this
      omega
    obtain ⟨t, htake, hpick, hcount⟩ := State.takeClusterDeque_runs (gets hhas) hj hok
    have hk128 : k / 128 = c / 16 := by omega
    refine ⟨t, pickup ?_, hpick, hcount⟩
    rw [State.takeWork_clusterDeque quiet silent (by rw [hk, hnone]; rfl) hfor (by rw [hk128]; exact hhead), hk128]
    exact htake
  case steal =>
    intro v k' j hmay hfrom hhas w hok
    obtain ⟨_, _, _, _, hj, _⟩ := State.stealFrom_some hfrom
    obtain ⟨t, htake, hpick, hcount, _⟩ := State.takeDeque_runs (gets hhas) hj hok
    refine ⟨t, ?_, hpick, hcount⟩
    rw [exec_workSteal, execWorkSteal, State.steal_eq hmay hfrom, htake, finishEvent_ok]
  case yield_ =>
    intro hsusp hwait hrecord hhas
    let v : State := ({ s with hart := k } : State).setHart k { s.hartAt k with waitSlot := false, susp := none }
    have mine : v.me = { s.hartAt k with waitSlot := false, susp := none } := State.hartAt_setHart { s with hart := k } k _
    have hv : v.GetsSlot v.hart f free := by
      refine ⟨?_, hhas.2, hcl, hi, hclean⟩
      have := hhas.1
      simpa [State.flockOf, State.launchOf, State.hartAt, State.launchAt, v] using this
    obtain ⟨t, hrun, hocc, hflow, hword, hready⟩ := State.runSusp_yield_pool hv (by rw [mine]; exact hrecord) hstores hagist hpool
      (s.hartAt k).npc
    refine ⟨{ t with hart := s.hart }, State.recordPoolSlotFree_suspends hsusp hwait hrun ?_, hocc, ?_, ?_⟩
    · have : (t.hartAt k).flow = .gone := hflow
      exact fun h => by rw [State.evHart] at h; rw [this] at h; cases h
    · have : (s.hartAt k).npc / 8 * 8 % 2 ^ 64 = (s.hartAt k).npc % 2 ^ 64 / 8 * 8 := by omega
      rw [← this]
      exact hword
    · rw [mine] at hready
      exact hready

end Sys2Proof.Machine

namespace Sys2Proof

/-- Settles O49: its five parts are the steps of issue, of fetch and results, of arbitration, of the order of work, and of records. -/
theorem coreAndClusterSteps : Obligations.CoreAndClusterSteps :=
  ⟨Machine.issueSlotGoesToOneStrand, Machine.strandSteps, Machine.arbitrationSteps, Machine.workSteps, Machine.recordsArePickedUp⟩

end Sys2Proof
end

section
/-!
SUPPORT. Where an address points (R105, R106, R109): the selector and the offset of an address, what each selector's offset
resolves to, and the settled statement about the apertures.
-/

namespace Sys2Proof.Machine

/-! ### The fields of an address -/

section
variable {g x : Nat} (hx : x < 2 ^ 56)
include hx

theorem selector_of_address (hg : g < 256) : bits (g * 2 ^ 56 + x) 56 8 = g := by unfold bits; omega

theorem offset_of_address : bits (g * 2 ^ 56 + x) 0 56 = x := by unfold bits; omega

end

namespace State

/-! ### What each selector's offset resolves to -/

section
variable (s : State) (k : Nat) {x : Nat} (hx : x < 2 ^ 56)
include hx

theorem resolve_global : s.resolve k x = if x < 2 ^ 55 then some (.virtual_ x) else none := by
  have selector : bits x 56 8 = 0 := by unfold bits; omega
  have offset : bits x 0 56 = x := by unfold bits; omega
  simp only [resolve, selector, offset, if_true]

theorem resolve_local : s.resolve k (0xF0 * 2 ^ 56 + x) =
    if x < 2 ^ 19 then some (.scratch (placeLocal (k / 8) x) (2 ^ 19 - x)) else none := by
  simp only [resolve, selector_of_address hx (g := 0xF0) (by omega), offset_of_address hx]
  rfl

theorem resolve_cluster : s.resolve k (0xF1 * 2 ^ 56 + x) =
    if x < 2 ^ 23 then some (.scratch (placeCluster (k / 8 / 16) x) (2 ^ 23 - x)) else none := by
  simp only [resolve, selector_of_address hx (g := 0xF1) (by omega), offset_of_address hx]
  rfl

theorem resolve_die : s.resolve k (0xF2 * 2 ^ 56 + x) =
    if x < 0x6000000 then some (.scratch (placeDie (k / 8 / 384) x) (0x6000000 - x)) else none := by
  simp only [resolve, selector_of_address hx (g := 0xF2) (by omega), offset_of_address hx]
  rfl

theorem resolve_stack : s.resolve k (0xF3 * 2 ^ 56 + x) =
    if x < s.stackBytes k then
      some (.scratch (placeLocal (k / 8) (0x80000 - (k % 8 + 1) * s.stackBytes k + x)) (s.stackBytes k - x))
    else none := by
  simp only [resolve, selector_of_address hx (g := 0xF3) (by omega), offset_of_address hx]
  rfl

theorem resolve_anyLocal : s.resolve k (0xF4 * 2 ^ 56 + x) =
    if x < 2 ^ 30 ∧ bits x 19 11 < 1536 then
      some (.scratch (placeLocal (bits x 19 11) (x % 2 ^ 19)) (2 ^ 19 - x % 2 ^ 19))
    else none := by
  simp only [resolve, selector_of_address hx (g := 0xF4) (by omega), offset_of_address hx]
  rfl

theorem resolve_anyCluster : s.resolve k (0xF5 * 2 ^ 56 + x) =
    if x < 2 ^ 30 ∧ bits x 23 7 < 96 then
      some (.scratch (placeCluster (bits x 23 7) (x % 2 ^ 23)) (2 ^ 23 - x % 2 ^ 23))
    else none := by
  simp only [resolve, selector_of_address hx (g := 0xF5) (by omega), offset_of_address hx]
  rfl

theorem resolve_anyDie : s.resolve k (0xF6 * 2 ^ 56 + x) =
    if x < 2 ^ 29 ∧ x % 2 ^ 27 < 0x6000000 then
      some (.scratch (placeDie (bits x 27 2) (x % 2 ^ 27)) (0x6000000 - x % 2 ^ 27))
    else none := by
  simp only [resolve, selector_of_address hx (g := 0xF6) (by omega), offset_of_address hx]
  rfl

/-- A selector that R105 does not list points nowhere. -/
theorem resolve_unlisted {g : Nat} (hg : g < 256) (h0 : g ≠ 0) (hout : g < 0xF0 ∨ 0xF6 < g) :
    s.resolve k (g * 2 ^ 56 + x) = none := by
  obtain ⟨h1, h2, h3, h4, h5, h6, h7⟩ :
    g ≠ 0xF0 ∧ g ≠ 0xF1 ∧ g ≠ 0xF2 ∧ g ≠ 0xF3 ∧ g ≠ 0xF4 ∧ g ≠ 0xF5 ∧ g ≠ 0xF6 := by omega
  simp only [resolve, selector_of_address hx hg, h0, h1, h2, h3, h4, h5, h6, h7, if_false]

end

/-! ### The scratchpads by number -/

section
variable (s : State) (k : Nat)

/-- Offset `x` of core `c`'s local memory, under the selector that names a core. -/
theorem resolve_localOf {c x : Nat} (hc : c < 1536) (hx : x < 2 ^ 19) :
    s.resolve k (0xF4 * 2 ^ 56 + c * 2 ^ 19 + x) = some (.scratch (placeLocal c x) (2 ^ 19 - x)) := by
  have index : bits (c * 2 ^ 19 + x) 19 11 = c := by unfold bits; omega
  have offset : (c * 2 ^ 19 + x) % 2 ^ 19 = x := by omega
  rw [Nat.add_assoc, resolve_anyLocal s k (by omega), index, offset, if_pos (by omega)]

/-- Offset `x` of cluster `c`'s scratchpad, under the selector that names a cluster. -/
theorem resolve_clusterOf {c x : Nat} (hc : c < 96) (hx : x < 2 ^ 23) :
    s.resolve k (0xF5 * 2 ^ 56 + c * 2 ^ 23 + x) = some (.scratch (placeCluster c x) (2 ^ 23 - x)) := by
  have index : bits (c * 2 ^ 23 + x) 23 7 = c := by unfold bits; omega
  have offset : (c * 2 ^ 23 + x) % 2 ^ 23 = x := by omega
  rw [Nat.add_assoc, resolve_anyCluster s k (by omega), index, offset, if_pos (by omega)]

/-- Offset `x` of die `d`'s scratchpad, under the selector that names a die: the offset has 27 bits, and the scratchpad ends
below them. -/
theorem resolve_dieOf {d x : Nat} (hd : d < 4) (hx : x < 2 ^ 27) :
    s.resolve k (0xF6 * 2 ^ 56 + d * 2 ^ 27 + x) =
      if x < 0x6000000 then some (.scratch (placeDie d x) (0x6000000 - x)) else none := by
  have index : bits (d * 2 ^ 27 + x) 27 2 = d := by unfold bits; omega
  have offset : (d * 2 ^ 27 + x) % 2 ^ 27 = x := by omega
  have inRange : d * 2 ^ 27 + x < 2 ^ 29 := by omega
  simp only [Nat.add_assoc, resolve_anyDie s k (x := d * 2 ^ 27 + x) (by omega), index, offset, inRange, true_and]

/-- No core has a number from 1,536 up. -/
theorem resolve_localOf_none {x : Nat} (hx : 1536 * 2 ^ 19 ≤ x) (hx' : x < 2 ^ 56) :
    s.resolve k (0xF4 * 2 ^ 56 + x) = none := by
  rw [resolve_anyLocal s k hx', if_neg]
  unfold bits; omega

/-- No cluster has a number from 96 up. -/
theorem resolve_clusterOf_none {x : Nat} (hx : 96 * 2 ^ 23 ≤ x) (hx' : x < 2 ^ 56) :
    s.resolve k (0xF5 * 2 ^ 56 + x) = none := by
  rw [resolve_anyCluster s k hx', if_neg]
  unfold bits; omega

end

end State

/-- Settles O24: each selector's equation, below the end of its range and from there up. -/
theorem apertureMap : Obligations.ApertureMap := by
  unfold Obligations.ApertureMap
  intro s k core
  refine ⟨?global, ?globalEnd, ?local_, ?cluster, ?die, ?stack, fun c x => s.resolve_localOf k, fun c x => s.resolve_clusterOf k,
    ?dieOf, ?localEnd, ?clusterEnd, ?dieEnd, ?stackEnd, fun x => s.resolve_localOf_none k, fun x => s.resolve_clusterOf_none k,
    ?noDie, ?dieOfEnd, fun g x hg h0 hout hx => s.resolve_unlisted k hx hg h0 hout⟩
  case global => intro x h; rw [s.resolve_global k (Nat.lt_of_lt_of_le h (by decide)), if_pos h]
  case globalEnd => intro x h hx; rw [s.resolve_global k hx, if_neg (by omega)]
  case local_ => intro x h; rw [s.resolve_local k (Nat.lt_of_lt_of_le h (by decide)), if_pos h]
  case localEnd => intro x h hx; rw [s.resolve_local k hx, if_neg (by omega)]
  case cluster => intro x h; rw [s.resolve_cluster k (Nat.lt_of_lt_of_le h (by decide)), if_pos h]
  case clusterEnd => intro x h hx; rw [s.resolve_cluster k hx, if_neg (by omega)]
  case die => intro x h; rw [s.resolve_die k (Nat.lt_of_lt_of_le h (by decide)), if_pos h]
  case dieEnd => intro x h hx; rw [s.resolve_die k hx, if_neg (by omega)]
  case stack => intro x h hx; rw [s.resolve_stack k hx, if_pos h]
  case stackEnd => intro x h hx; rw [s.resolve_stack k hx, if_neg (by omega)]
  case dieOf => intro d x hd h; rw [s.resolve_dieOf k hd (by omega), if_pos h]
  case dieOfEnd => intro d x hd h hx; rw [s.resolve_dieOf k hd hx, if_neg (by omega)]
  case noDie => intro x h hx; rw [s.resolve_anyDie k hx, if_neg (by omega)]

end Sys2Proof.Machine
end

section
/-!
SUPPORT. A hart's read of its core's local memory (R127, R133), the operations of a stream register (R125, R126), and the
settled statement about the stream instructions (R157, R158).
-/

namespace Sys2Proof.Machine

namespace State

/-! ### A calm hart's read of its core's local memory -/

theorem isScratch_placeLocal (c low : Nat) : isScratch (placeLocal c low) = true :=
  decide_eq_true (by unfold placeLocal; omega)

/-- A hart with nothing under way makes its next access at once (R133). -/
theorem inOrder_none {s : State} (h : s.NothingUnderWay) : s.inOrder s.hart = .ok s := by
  obtain ⟨hstores, hatomics, hnears⟩ := h
  have a : s.atomics.any (fun t => t.hart == s.hart) = false := by simpa [List.any_eq_false] using hatomics
  have n : s.nears.any (fun t => t.hart == s.hart) = false := by simpa [List.any_eq_false] using hnears
  simp only [inOrder, a, n, Bool.or_self, Bool.false_eq_true, if_false]
  exact drainWhere_none fun t ht => by simp [ofHart, hstores t ht]

/-- An access to a scratchpad comes after no store of a hart that has none on its way. -/
theorem ownFirst_noStores {s : State} {k p : Nat} (hp : isScratch p = true) (hs : ∀ t ∈ s.stores, t.hart ≠ k) (n : Nat) :
    s.ownFirst k [⟨p, n, 0⟩] = .ok s := by
  have drained : s.drainWhere (fun t => ofHart k t && s.follows [⟨p, n, 0⟩] t) = .ok s :=
    drainWhere_none fun t ht => by simp [ofHart, hs t ht]
  simp [ownFirst, drained, ok_bind, pathBusy_scratch hp]

/-- A hart's own checked read of a scratchpad gives the bytes there, where no line is poisoned. -/
theorem readBytes_scratch_own {s : State} {w : Who} {a p n al : Nat} (hc : s.check w .read a n al = .ok (s, [⟨p, n, 0⟩]))
    (hp : isScratch p = true) (hs : ∀ t ∈ s.stores, t.hart ≠ w.hart) (hq : s.poison = []) :
    s.readBytes w .read a n al = .ok (s, s.bytesAt p n) := by
  have held : s.readHeld [⟨p, n, 0⟩] = false := by simp [readHeld, pathBusy_scratch hp, replicas, noCredit_scratch hp]
  have bad : s.chunkBad ⟨p, n, 0⟩ = false := by simp [chunkBad, replicas, poisoned, hq, homeLost_scratch s hp]
  have opened : s.openRead w .read a n al = .ok (s, [⟨p, n, 0⟩]) := by
    simp [openRead, hc, ok_bind, ownFirst_noStores hp hs, held, bad]
  simp [readBytes, opened, readChunks, readChunk, ok_bind]

theorem ownLocal_aligned {low align : Nat} (ha : align ∣ 2 ^ 56) (h : low % align = 0) : ownLocal low % align = 0 :=
  Nat.mod_eq_zero_of_dvd ((Nat.dvd_add_right (Nat.dvd_mul_left_of_dvd ha _)).mpr (Nat.dvd_of_mod_eq_zero h))

/-- The bytes that a calm hart reads at an aligned address of its core's local memory. -/
theorem readBytes_ownLocal {s : State} {a n align low : Nat} (hcalm : s.Calm) (ho : OwnLocal a n align low) (hn : n ≠ 0)
    (ha : align ∣ 2 ^ 56) :
    s.readBytes s.whoMe .read a n align = .ok (s, s.bytesAt (placeLocal s.coreNo low) n) := by
  obtain ⟨hsup, _, _, hpoison, hstores, _, _⟩ := hcalm
  obtain ⟨rfl, halign, hend⟩ := ho
  have user : s.whoMe.user = false := by
    show (!s.me.sup) = false
    rw [hsup]; rfl
  exact readBytes_scratch_own (s.check_ownLocal s.whoMe .read (ownLocal_aligned ha halign) hn hend rfl user)
    (isScratch_placeLocal _ _) hstores hpoison

/-! ### The operations of a stream register (R125, R126) -/

/-- A descriptor that R125 admits: linear, without a destination, of at least one row of 1 to 128 bytes. -/
theorem streamOk_of_fields {w : List Nat} (hdest : nth w 1 = 0) (hrows : 1 ≤ nth w 2 % 2 ^ 16)
    (hbytes : 1 ≤ nth w 2 / 2 ^ 16 % 2 ^ 16) (hbytes' : nth w 2 / 2 ^ 16 % 2 ^ 16 ≤ 128) (hmode : nth w 3 < 2 ^ 32) :
    streamOk w = true := by
  have mode : nth w 3 / 2 ^ 32 = 0 := Nat.div_eq_of_lt hmode
  simp only [streamOk, bits, Nat.shiftRight_eq_div_pow, Nat.pow_zero, Nat.div_one, hdest, hrows, hbytes, hbytes', mode, and_self,
    decide_true, BEq.rfl, Bool.and_self]

/-- A calm hart binds a free stream register to an admitted descriptor in its core's local memory. -/
theorem bindStream_ok {s : State} {q a low : Nat} (hcalm : s.Calm) (hfree : (s.streamAt q).state = 0)
    (ho : OwnLocal a 32 8 low) {w : List Nat} (hw : splitLanes 64 4 (s.readAt (placeLocal s.coreNo low) 32) = w)
    (hok : streamOk w = true) :
    s.bindStream q a = .ok (s.setStream q
      { state := 1, src := nth w 0, rows := nth w 2 % 2 ^ 16, rbytes := nth w 2 / 2 ^ 16 % 2 ^ 16,
        stride := nth w 2 / 2 ^ 32 % 2 ^ 32, pc := s.me.pc, asid := s.me.asid, user := false }) := by
  have read := readBytes_ownLocal hcalm ho (by decide) (by decide)
  obtain ⟨hsup, _, hrelease, _, hnone⟩ := hcalm
  have unheld : ¬ s.me.releaseHeld = 2 := by omega
  have words : splitLanes 64 4 (ofBytes (s.bytesAt (placeLocal s.coreNo low) 32)) = w := hw
  simp only [bindStream, hfree, unheld, inOrder_none hnone, read, ok_bind, words, hok, hsup, bits, Nat.shiftRight_eq_div_pow,
    Nat.pow_zero, Nat.div_one, ne_eq, not_true_eq_false, if_false, if_true, Bool.not_true]

section
variable {s : State} {q : Nat} (hbound : (s.streamAt q).state = 1)
include hbound

/-- A pop of a bound stream whose next element has arrived takes it; the last one leaves the stream drained. -/
theorem popStream_head {l : List Nat} {t : List (List Nat × Option (Nat × Nat))}
    (he : (s.streamAt q).elems = (l, none) :: t) :
    s.popStream q = .ok (s.setStream q { s.streamAt q with
      elems := t, popped := (s.streamAt q).popped + 1,
      state := if (s.streamAt q).popped + 1 = (s.streamAt q).rows then 2 else 1 }, l) := by
  simp [popStream, hbound, he]

/-- A pop of a bound stream whose next element has not arrived waits. -/
theorem popStream_empty (he : (s.streamAt q).elems = []) : s.popStream q = .error .wait := by
  simp [popStream, hbound, he]

end

end State

/-! ### The stream instructions (R157, R158) -/

theorem exec_qbind (q a : Nat) (s : State) : exec (.qbind q a) s = finish s (s.bindStream q (s.rs a)) := rfl

theorem exec_qunbind_bound {q : Nat} {s : State} (h : (s.streamAt q).state ≠ 0) :
    exec (.qunbind q) s = .next (s.setStream q {}) := by
  show finish s (if (s.streamAt q).state = 0 then _ else _) = _
  rw [if_neg h, finish_ok]

section
variable {s u : State} {q : Nat} {l : List Nat}

theorem exec_vpop_ok (h : s.popStream q = .ok (u, l)) (d : Nat) :
    exec (.vpop d q) s = .next (u.setMe (u.me.applyWrite (.v d (BitVec.ofNat 1024 (ofBytes l))))) := by
  show finish s (s.popStream q >>= _) = _
  rw [h, ok_bind, finish_ok]

theorem exec_spop_ok (h : s.popStream q = .ok (u, l)) (d : Nat) :
    exec (.spop d q) s = .next (u.setMe (u.me.writeS d (BitVec.ofNat 64 (ofBytes (l.take 8))))) := by
  show finish s (s.popStream q >>= _) = _
  rw [h, ok_bind, finish_ok]
  rfl

theorem exec_vpop_wait (h : s.popStream q = .error .wait) (d : Nat) : exec (.vpop d q) s = .next s.hold := by
  show finish s (s.popStream q >>= _) = _
  rw [h]
  rfl

theorem exec_spop_wait (h : s.popStream q = .error .wait) (d : Nat) : exec (.spop d q) s = .next s.hold := by
  show finish s (s.popStream q >>= _) = _
  rw [h]
  rfl

end

/-- The status word: elements popped, whether the next row failed, whether the stream is drained, and the elements that wait. -/
theorem streamStatus_eq (x : Stream) : streamStatus x =
    x.popped * 2 ^ 16 + (match x.elems with
      | (_, some _) :: _ => 1
      | _ => 0) * 2 ^ 9 +
    (if x.state = 2 then 2 ^ 8 else 0) + (x.elems.filter (fun e => e.2.isNone)).length := by
  have drained : bool1 (x.state == 2) * 2 ^ 8 = if x.state = 2 then 2 ^ 8 else 0 := by
    by_cases h : x.state = 2 <;> simp [h, bool1]
  simp only [streamStatus, drained]
  rcases x.elems with _ | ⟨⟨_, _ | _⟩, _⟩ <;> rfl

theorem exec_qstat_bound {q : Nat} {s : State} (h : (s.streamAt q).state ≠ 0) (d : Nat) :
    exec (.qstat d q) s = .next (s.long [.s d (BitVec.ofNat 64 (streamStatus (s.streamAt q)))]) := by
  show finish s (if (s.streamAt q).state = 0 then _ else _) = _
  rw [if_neg h, finish_ok]
  rfl

/-- Settles O32, by the operations of a stream register: `bindStream_ok`, `popStream_head` and `popStream_empty`. -/
theorem streamResults : Obligations.StreamResults := by
  unfold Obligations.StreamResults
  refine ⟨?bind_, fun s q => exec_qunbind_bound, ?pop, ?wait, ?status⟩
  case bind_ =>
    intro s q a low hcalm hfree ho w hdest hrows hbytes hbytes' hmode x
    rw [exec_qbind, State.bindStream_ok hcalm hfree ho rfl (State.streamOk_of_fields hdest hrows hbytes hbytes' hmode), finish_ok]
  case pop =>
    intro s d q l t hbound he x y u
    have popped : s.popStream q = .ok (u, l) := State.popStream_head hbound he
    exact ⟨exec_vpop_ok popped d, exec_spop_ok popped d⟩
  case wait =>
    intro s d q hbound he
    have waits := State.popStream_empty hbound he
    exact ⟨exec_vpop_wait waits d, exec_spop_wait waits d⟩
  case status =>
    intro s d q hbound x flt
    exact (exec_qstat_bound hbound d).trans
      (congrArg (fun n => Host.Outcome.next (s.long [.s d (BitVec.ofNat 64 n)])) (streamStatus_eq x))

end Sys2Proof.Machine
end

section
/-!
SUPPORT. Soft maximum, random words and the draw (R182 to R189, R212, R222, R223): the long result that each instruction leaves
for the marker, as the chapter's functions give it.
-/

namespace Sys2Proof.Machine

/-! ### Soft maximum (R182 to R186) -/

theorem exec_sminit (d a : Nat) (s : State) : exec (.sminit d a) s =
    .next (s.long [.v d (ofLanes 32 [(smInit (s.rf a % 2 ^ 32)).1, (smInit (s.rf a % 2 ^ 32)).2])]) := rfl

theorem exec_smupd {d a m l alpha : Nat} {p : List Nat} {s : State}
    (h : smUpdate (nth (lanes 32 (s.rv d)) 0) (nth (lanes 32 (s.rv d)) 1) (s.pair32 a) = (m, l, alpha, p)) :
    exec (.smupd d a) s = .next (s.long (.v d (ofLanes 32 [m, l, alpha]) :: writePair32 a p)) := by
  show execSmupd d a s = _
  rw [execSmupd, h]

theorem exec_smerge {d a b m l a1 a2 : Nat} {s : State}
    (h : smMerge (nth (lanes 32 (s.rv a)) 0) (nth (lanes 32 (s.rv a)) 1) (nth (lanes 32 (s.rv b)) 0)
      (nth (lanes 32 (s.rv b)) 1) = (m, l, a1, a2)) :
    exec (.smerge d a b) s = .next (s.long [.v d (ofLanes 32 [m, l, a1, a2])]) := by
  show execSmerge d a b s = _
  rw [execSmerge, h]
  rfl

theorem exec_smout (d a : Nat) (s : State) : exec (.smout d a) s =
    .next (s.long [.v d (ofLanes 32 [smOut (nth (lanes 32 (s.rv a)) 1), nth (lanes 32 (s.rv a)) 1])]) := rfl

/-! ### Random words and the draw (R187 to R189) -/

theorem exec_rngb (d a : Nat) (s : State) :
    exec (.rngb d a) s = .next (s.long [.v d (ofLanes 32 (s.randomWords (s.rs a)))]) := rfl

theorem exec_rngm (d a b : Nat) (s : State) : exec (.rngm d a b) s = .next (s.long [.m d (BitVec.ofNat 128 (ofBools
    ((splitLanes 16 64 (joinLanes 32 (s.randomWords (s.rs a)))).map
      (fun x => decide (x < rngThreshold (s.rf b % 2 ^ 32))))))]) := rfl

theorem exec_mdraw {d a b i : Nat} {s : State}
    (h : drawIndex s.me.rngseed.toNat s.me.rngstream.toNat (s.rs b) (s.pair32 a) = i) :
    exec (.mdraw d a b) s = .next (s.pushLong
      { id := 0, waddr := 0, writes := [.s d (BitVec.ofNat 64 i)], mstatus := if i = 64 then 2 ^ 16 else 0 }) := by
  show execMdraw d a b s = _
  rw [execMdraw, h]

/-- Settles O19: each instruction's equation above, its operands read as the register numbers say. -/
theorem softmaxRandomAndDraw : Obligations.SoftmaxRandomAndDraw := by
  unfold Obligations.SoftmaxRandomAndDraw
  intro d a b s st x y seed stream i0 u g w k
  exact ⟨exec_sminit d a s, exec_smupd rfl, exec_smerge rfl, exec_smout d a s, exec_rngb d a s, exec_rngm d a b s,
    exec_mdraw rfl⟩

end Sys2Proof.Machine
end

section
/-!
SUPPORT. The arithmetic of a product on one element (R171): rounding to a multiple of a power of two, the dot product of a
block, and the addend of each block.
-/

namespace Sys2Proof

/-! ### Rounding to a whole number, half to even -/

/-- Half to even: the nearest multiple of `2 ^ -e`, and of two the even one. -/
theorem roundUnits_rne_nearest (neg : Bool) (m : Nat) {e : Int} (he : e < 0) :
    let M : Int := 2 ^ (-e).toNat
    let n : Nat := (roundUnits .rne neg m e false 0).1
    let d := ((n : Int) * M - m).natAbs
    2 * d ≤ M.natAbs ∧ (2 * d = M.natAbs → n % 2 = 0) := by
  obtain ⟨k, hk⟩ : ∃ k, (-e).toNat = k + 1 := ⟨(-e).toNat - 1, by omega⟩
  have unit : (2 : Nat) ^ (k + 1) = 2 * 2 ^ k := by rw [Nat.pow_succ, Nat.mul_comm]
  intro M n d
  have hM : M = 2 * ((2 ^ k : Nat) : Int) := by
    have power : ((2 ^ (k + 1) : Nat) : Int) = 2 ^ (k + 1) := Int.natCast_pow 2 (k + 1)
    rw [show M = 2 ^ (k + 1) from congrArg (fun i => (2 : Int) ^ i) hk, ← power, unit]
    exact Int.natCast_mul 2 (2 ^ k)
  have parts := Nat.div_add_mod m (2 * 2 ^ k)
  have low : m % (2 * 2 ^ k) < 2 * 2 ^ k := Nat.mod_lt _ (Nat.mul_pos (by decide) (Nat.two_pow_pos k))
  have hn : n = if 2 ^ k < m % (2 * 2 ^ k) ∨ m % (2 * 2 ^ k) = 2 ^ k ∧ m / (2 * 2 ^ k) % 2 = 1
      then m / (2 * 2 ^ k) + 1 else m / (2 * 2 ^ k) := by
    simp [n, roundUnits, Int.not_le.mpr he, hk, unit]
  revert parts low hn
  generalize m / (2 * 2 ^ k) = q
  generalize m % (2 * 2 ^ k) = r
  intro parts low hn
  have whole : (2 * ((2 ^ k : Nat) : Int)) * q + r = m := by exact_mod_cast parts
  have up : ((q + 1 : Nat) : Int) * M = (2 * ((2 ^ k : Nat) : Int)) * q + M := by
    rw [Int.natCast_add, Int.add_mul, Int.natCast_one, Int.one_mul, hM, Int.mul_comm (q : Int)]
  have down : (q : Int) * M = (2 * ((2 ^ k : Nat) : Int)) * q := by rw [hM, Int.mul_comm]
  by_cases h : 2 ^ k < r ∨ r = 2 ^ k ∧ q % 2 = 1
  · rw [if_pos h] at hn
    have hd : d = (M - r).natAbs := by
      refine congrArg Int.natAbs ?_
      rw [hn, up]
      omega
    rw [hd, hn, hM]
    omega
  · rw [if_neg h] at hn
    have hd : d = r := by
      show ((n : Int) * M - m).natAbs = r
      rw [hn, down]
      omega
    rw [hd, hn, hM]
    omega

theorem rneShift_of_nonneg (x : Int) {n : Int} (hn : 0 ≤ n) : rneShift x n = x * 2 ^ n.toNat := by
  have whole : (roundUnits .rne false x.natAbs n false 0).1 = x.natAbs * 2 ^ n.toNat := by
    rw [roundUnits, if_pos hn, Int.sub_zero]
  have power : ((2 ^ n.toNat : Nat) : Int) = 2 ^ n.toNat := Int.natCast_pow 2 n.toNat
  simp only [rneShift, whole, Int.natCast_mul, power]
  split
  next h => rw [Int.ofNat_natAbs_of_nonpos (Int.le_of_lt h), Int.neg_mul, Int.neg_neg]
  next h => rw [Int.natAbs_of_nonneg (Int.not_lt.mp h)]

theorem rneShift_nearest (x : Int) {n : Int} (hn : n < 0) :
    let M : Int := 2 ^ (-n).toNat
    let d := (rneShift x n * M - x).natAbs
    2 * d ≤ M.natAbs ∧ (2 * d = M.natAbs → rneShift x n % 2 = 0) := by
  intro M d
  obtain ⟨near, even⟩ := roundUnits_rne_nearest false x.natAbs hn
  generalize hr : (roundUnits .rne false x.natAbs n false 0).1 = r at near even
  have hx : rneShift x n = if x < 0 then -(r : Int) else r := by simp only [rneShift, hr]
  have dist : d = ((r : Int) * M - x.natAbs).natAbs := by
    simp only [d, hx]
    split
    next h => rw [← Int.natAbs_neg]; congr 1; rw [Int.neg_mul]; omega
    next h => congr 1; omega
  rw [dist]
  refine ⟨near, fun h => ?_⟩
  have := even h
  rw [hx]
  split <;> omega

/-! ### Blocks -/

theorem sum_map_eq_zero {f : Nat → Int} (hf : ∀ m, f m = 0) (l : List Nat) : (l.map f).sum = 0 := by
  induction l with
  | nil => rfl
  | cons m l ih => rw [List.map_cons, List.sum_cons, hf, ih, Int.zero_add]

theorem sum_zipWith_take (n : Nat) (xs ys : List Int) : (List.zipWith (· * ·) (xs.take n) (ys.take n)).sum =
    ((List.range n).map (fun m => xs.getD m 0 * ys.getD m 0)).sum := by
  induction xs generalizing n ys with
  | nil => rw [sum_map_eq_zero (fun m => by rw [List.getD_nil, Int.zero_mul]), List.take_nil, List.zipWith_nil_left, List.sum_nil]
  | cons x xs ih =>
    cases ys with
    | nil =>
      rw [sum_map_eq_zero (fun m => by rw [List.getD_nil, Int.mul_zero]), List.take_nil, List.zipWith_nil_right, List.sum_nil]
    | cons y ys =>
      cases n with
      | zero => rfl
      | succ n =>
        rw [List.range_succ_eq_map, List.map_cons, List.map_map, List.sum_cons]
        exact congrArg (x * y + ·) (ih n ys)

/-- Elements that a segment does not list count as zero. -/
theorem blockDot_eq_sum (x c : Segment) (b : Nat) : blockDot x c b =
    ((List.range 16).map (fun m => x.ms.getD (16 * b + m) 0 * c.ms.getD (16 * b + m) 0)).sum := by
  rw [blockDot, ← List.sum_eq_foldl, sum_zipWith_take]
  simp only [List.getD_eq_getElem?_getD, List.getElem?_drop]

/-- An element after block `b` of a row and a column (R171): the rounded addend is clamped to 56 bits with OV, and a NaN block
adds nothing. -/
def addBlock (x c : Segment) (k f : Int) (e : Elem) (b : Nat) : Elem :=
  if nth x.es b = 255 ∨ nth c.es b = 255 then { e with nan := true }
  else
    let p := ((List.range 16).map (fun m => x.ms.getD (16 * b + m) 0 * c.ms.getD (16 * b + m) 0)).sum
    let v := e.a.toInt + rneShift p ((nth x.es b : Int) + nth c.es b + k - f)
    if v < -2 ^ 55 then { e with a := BitVec.ofInt 56 (-2 ^ 55), ov := true }
    else if 2 ^ 55 ≤ v then { e with a := BitVec.ofInt 56 (2 ^ 55 - 1), ov := true }
    else { e with a := BitVec.ofInt 56 v }

/-- A sum put into an element, clamped as `sat56` says. -/
theorem elem_sat56 (e : Elem) (v : Int) :
    ({ e with a := BitVec.ofInt 56 (sat56 v).1, ov := e.ov || (sat56 v).2 } : Elem) =
      if v < -2 ^ 55 then { e with a := BitVec.ofInt 56 (-2 ^ 55), ov := true }
      else if 2 ^ 55 ≤ v then { e with a := BitVec.ofInt 56 (2 ^ 55 - 1), ov := true }
      else { e with a := BitVec.ofInt 56 v } := by
  have top : (2 ^ 55 : Int) - 1 < v ↔ 2 ^ 55 ≤ v := Int.sub_one_lt_iff
  by_cases low : v < -2 ^ 55
  · have clamped : sat56 v = (-2 ^ 55, true) := if_pos low
    rw [clamped, if_pos low, Bool.or_true]
  · rw [if_neg low]
    by_cases high : 2 ^ 55 ≤ v
    · have clamped : sat56 v = (2 ^ 55 - 1, true) := (if_neg low).trans (if_pos (top.mpr high))
      rw [clamped, if_pos high, Bool.or_true]
    · have kept : sat56 v = (v, false) := (if_neg low).trans (if_neg (mt top.mp high))
      rw [kept, if_neg high, Bool.or_false]

/-- A product's addends on an element are those of its four blocks, in order. -/
theorem addBlocks_eq (x c : Segment) (k f : Int) (e : Elem) : addBlocks x c k f e =
    addBlock x c k f (addBlock x c k f (addBlock x c k f (addBlock x c k f e 0) 1) 2) 3 := by
  have step : addBlocks x c k f e = [0, 1, 2, 3].foldl (addBlock x c k f) e := by
    refine congrArg (fun g => List.foldl g e [0, 1, 2, 3]) (funext fun e => funext fun b => ?_)
    rw [addBlock, ← blockDot_eq_sum, ← elem_sat56]
  exact step

end Sys2Proof
end

section
/-!
SUPPORT. The accumulator tiles (R171, R172, R218, R220): what each change leaves in a tile, and the changes that a marker makes.
-/

namespace Sys2Proof

theorem upFrom_eq_range' (k n : Nat) : upFrom k n = List.range' k n := by
  induction n generalizing k with
  | zero => rfl
  | succ n ih => rw [upFrom, ih, List.range'_succ]

namespace Store

variable {α : Type} [DecidableEq α]

/-- A table listed from key `k` up, without its defaults, gives each key the element at its place. -/
theorem get_filter_zip_upFrom (d : α) (l : List α) (k j : Nat) :
    get d ((List.zip (upFrom k l.length) l).filter (fun e => e.2 ≠ d)) j = if k ≤ j then l.getD (j - k) d else d := by
  induction l generalizing k with
  | nil => simp [upFrom]
  | cons x l ih =>
    have cons : get d ((List.zip (upFrom k (x :: l).length) (x :: l)).filter (fun e => e.2 ≠ d)) j =
        if j = k then x else if k + 1 ≤ j then l.getD (j - (k + 1)) d else d := by
      rw [List.length_cons, upFrom, List.zip_cons_cons, ← ih]
      by_cases hx : x = d
      · by_cases hj : j = k
        · rw [List.filter_cons_of_neg (by simpa using hx), ih, if_neg (by omega), if_pos hj, hx]
        · rw [List.filter_cons_of_neg (by simpa using hx), if_neg hj]
      · rw [List.filter_cons_of_pos (by simpa using hx), get]
        simp only [eq_comm]
    rw [cons]
    rcases Nat.lt_trichotomy j k with h | rfl | h
    · rw [if_neg (by omega), if_neg (by omega), if_neg (by omega)]
    · simp
    · rw [if_neg (by omega), if_pos (by omega), if_pos (by omega), show j - k = j - (k + 1) + 1 by omega, List.getD_cons_succ]

section Writes
variable {β : Type} (d : α) (key : β → Nat) (val : β → α)

/-- A key that none of the writes names keeps its value. -/
theorem get_foldl_set_other {l : List β} {j : Nat} (h : ∀ p ∈ l, key p ≠ j) (t : Store α) :
    get d (l.foldl (fun e p => set d e (key p) (val p)) t) j = get d t j := by
  induction l generalizing t with
  | nil => rfl
  | cons p l ih =>
    obtain ⟨hp, hl⟩ := List.forall_mem_cons.mp h
    rw [List.foldl_cons, ih hl, get_set_other d t _ hp.symm]

/-- Of writes to different keys, each leaves its value. -/
theorem get_foldl_set_mem {l : List β} (hl : (l.map key).Nodup) {p : β} (hp : p ∈ l) (t : Store α) :
    get d (l.foldl (fun e p => set d e (key p) (val p)) t) (key p) = val p := by
  induction l generalizing t with
  | nil => cases hp
  | cons q l ih =>
    obtain ⟨hq, hl⟩ := List.nodup_cons.mp hl
    rw [List.foldl_cons]
    rcases List.mem_cons.mp hp with rfl | hp
    · have other : ∀ r ∈ l, key r ≠ key p := fun r hr h => hq (h ▸ List.mem_map_of_mem (f := key) hr)
      rw [get_foldl_set_other d key val other, get_set_same]
    · exact ih hl hp _

end Writes

end Store

/-- Element `n` of a tile after a product. -/
theorem getD_productInto {rows cols : List Segment} {k f : Int} {tile : List Elem} (ht : tile.length = 4096) {n : Nat}
    (hn : n < 4096) : (productInto rows cols k f tile).getD n {} =
      addBlocks (rows.getD (n / 64) ⟨[], []⟩) (cols.getD (n % 64) ⟨[], []⟩) k f (tile.getD n {}) := by
  simp [productInto, upFrom_eq_range', ht, hn]

namespace Machine

namespace Tile

/-- `mzero` clears every element (R218). -/
theorem get_apply_zero (z : Tile) (t : Nat) (f : Int) (i : Nat) : Store.get ({} : Elem) (z.apply (.zero t f)).els i = {} := rfl

/-- A product adds its blocks to element (i, j) of the tile, at index 64 i + j (R171). -/
theorem get_apply_product (z : Tile) (t fa fb : Nat) (k : Int) (rows cols : List Segment) {i j : Nat} (hi : i < 64)
    (hj : j < 64) : Store.get ({} : Elem) (z.apply (.product t fa fb k rows cols)).els (64 * i + j) =
      addBlocks (rows.getD i ⟨[], []⟩) (cols.getD j ⟨[], []⟩) k z.anchor (Store.get {} z.els (64 * i + j)) := by
  have row : (64 * i + j) / 64 = i := by omega
  have col : (64 * i + j) % 64 = j := by omega
  have hn : 64 * i + j < 4096 := by omega
  generalize hold : (upFrom 0 4096).map (fun n => Store.get ({} : Elem) z.els n) = old
  have length : old.length = 4096 := by rw [← hold, List.length_map, length_upFrom]
  have before : old.getD (64 * i + j) {} = Store.get {} z.els (64 * i + j) := by
    simp [← hold, upFrom_eq_range', hn]
  have els : (z.apply (.product t fa fb k rows cols)).els = (List.zip (upFrom 0 (productInto rows cols k z.anchor old).length)
      (productInto rows cols k z.anchor old)).filter (fun e => e.2 ≠ ({} : Elem)) := by
    rw [apply, hold, productInto, List.length_zipWith, length_upFrom, length]
    rfl
  rw [els, Store.get_filter_zip_upFrom, if_pos (Nat.zero_le _), Nat.sub_zero, getD_productInto length hn, row, col, before]

/-- An element as a 64-bit lane of `mwr` gives it (R220). -/
def laneElem (x : Nat) : Elem := { a := BitVec.ofNat 56 x, nan := x.testBit 57, ov := x.testBit 56 }

theorem els_apply_put (z : Tile) (t r q : Nat) (l : List Nat) : (z.apply (.put t r q l)).els =
    (List.zip (upFrom 0 16) l).foldl (fun e p => Store.set {} e (64 * r + 16 * q + p.1) (laneElem p.2)) z.els := rfl

/-- `mwr` puts its sixteen lanes into the quarter row (R220). -/
theorem get_apply_put (z : Tile) (t r q : Nat) {l : List Nat} (hl : l.length = 16) {k : Nat} (hk : k < 16) :
    Store.get ({} : Elem) (z.apply (.put t r q l)).els (64 * r + 16 * q + k) = laneElem (nth l k) := by
  have length : (upFrom 0 16).length = l.length := hl.symm
  have distinct : ((List.zip (upFrom 0 16) l).map (fun p => 64 * r + 16 * q + p.1)).Nodup := by
    rw [show (fun p : Nat × Nat => 64 * r + 16 * q + p.1) = (64 * r + 16 * q + ·) ∘ Prod.fst from rfl, ← List.map_map,
      List.map_fst_zip (Nat.le_of_eq length), upFrom_eq_range', List.map_add_range']
    exact List.nodup_range'
  have mem : (k, nth l k) ∈ List.zip (upFrom 0 16) l := by
    rw [List.mem_iff_getElem]
    exact ⟨k, by simp [length_upFrom, hl, hk], by simp [upFrom_eq_range', nth, hl, hk]⟩
  rw [els_apply_put]
  exact Store.get_foldl_set_mem {} _ (fun p : Nat × Nat => laneElem p.2) distinct mem z.els

/-- `mwr` leaves every element outside its quarter row (R220). -/
theorem get_apply_put_other (z : Tile) (t r q : Nat) (l : List Nat) {i : Nat}
    (hi : i < 64 * r + 16 * q ∨ 64 * r + 16 * q + 16 ≤ i) :
    Store.get ({} : Elem) (z.apply (.put t r q l)).els i = Store.get {} z.els i := by
  rw [els_apply_put]
  refine Store.get_foldl_set_other {} _ (fun p : Nat × Nat => laneElem p.2) (fun p hp => ?_) z.els
  have := mem_upFrom.mp (List.of_mem_zip hp).1
  omega

end Tile

/-! ### The changes of a window -/

/-- A core's tiles after changes: each tile takes, in order, the changes that name it (R172). -/
theorem Core.foldl_applyTile (l : List TileOp) (c : Core) :
    (l.foldl applyTile c).za0 = (l.filter (fun o => o.tile == 0)).foldl Tile.apply c.za0 ∧
    (l.foldl applyTile c).za1 = (l.filter (fun o => o.tile != 0)).foldl Tile.apply c.za1 ∧
    (l.foldl applyTile c).products = c.products := by
  induction l generalizing c with
  | nil => exact ⟨rfl, rfl, rfl⟩
  | cons o l ih =>
    obtain ⟨h0, h1, hp⟩ := ih (c.applyTile o)
    rw [List.foldl_cons, h0, h1, hp]
    by_cases h : o.tile = 0 <;> simp [applyTile, h]

/-- The changes of a window without a fault, in program order. -/
theorem Core.writeTiles_clean {l : List LongRes} (h : ∀ r ∈ l, r.fault = none) (c : Core) :
    c.writeTiles l = (l.flatMap (fun r => r.tiles)).foldl applyTile c := by
  induction l generalizing c with
  | nil => rfl
  | cons r l ih =>
    obtain ⟨hr, hl⟩ := List.forall_mem_cons.mp h
    rw [writeTiles, hr, List.flatMap_cons, List.foldl_append, ih hl]
    rfl

theorem Core.writeTiles_empty {l : List LongRes} (h : l.all (fun r => r.tiles.isEmpty) = true) (c : Core) :
    c.writeTiles l = c := by
  induction l generalizing c with
  | nil => rfl
  | cons r l ih =>
    obtain ⟨hr, hl⟩ : r.tiles = [] ∧ l.all (fun r => r.tiles.isEmpty) = true := by simpa using h
    rw [writeTiles, hr, List.foldl_nil, ite_self, ih hl]

/-- What a marker leaves of the strand's core is what the results of its window make of it. -/
theorem State.writeBack_myCore (s : State) : s.writeBack.myCore = s.myCore.writeTiles s.me.longs := by
  by_cases h : s.me.longs.all (fun r => r.tiles.isEmpty) = true
  · rw [Core.writeTiles_empty h, writeBack, if_pos h, myCore_setMe]
  · rw [writeBack, if_neg h, myCore_setMe]
    exact coreAt_setCore s s.coreNo _

/-- Settles O60: the window's changes by `writeTiles`, each change of a tile by its equations, a product's blocks by `addBlock`,
and their rounding by `rneShift_nearest`. -/
theorem tilesChangeAtTheMarker : Obligations.TilesChangeAtTheMarker := by
  unfold Obligations.TilesChangeAtTheMarker
  refine ⟨?window, fun z t f => ⟨rfl, z.get_apply_zero t f⟩, ?put, ?product,
    fun x n => ⟨rneShift_of_nonneg x, fun hn => rneShift_nearest x hn⟩⟩
  case window =>
    intro s next hclean u ops
    have hu : u = s.writeBack := State.marker_clean hclean next
    have core : u.myCore = ops.foldl Core.applyTile s.myCore := by
      rw [hu, State.writeBack_myCore, Core.writeTiles_clean (clean_of_oldestFault hclean)]
    obtain ⟨h0, h1, hp⟩ := Core.foldl_applyTile ops s.myCore
    rw [core, hu, State.writeBack_me]
    exact ⟨h0, h1, hp, rfl⟩
  case put =>
    intro z t r q l hl y
    exact ⟨rfl, fun k hk => z.get_apply_put t r q hl hk, fun i hi => z.get_apply_put_other t r q l hi⟩
  case product =>
    intro z t fa fb k rows cols y
    refine ⟨rfl, fun i j hi hj => ?_⟩
    exact (z.get_apply_product t fa fb k rows cols hi hj).trans (addBlocks_eq _ _ k z.anchor _)

end Machine

end Sys2Proof
end

section
/-!
SUPPORT. Canonical tables by their entries, and writes at their home that no checkpoint watches: what a doubleword reads as
after a write (R255), and what a write notes of moves and leases (R246, R250).
-/

namespace Sys2Proof

namespace Store

variable {α : Type}

theorem get_of_not_key (d : α) {l : Store α} {k : Nat} (h : ∀ e ∈ l, e.1 ≠ k) : get d l k = d := by
  induction l with
  | nil => rfl
  | cons e l ih =>
    obtain ⟨he, hl⟩ := List.forall_mem_cons.mp h
    rw [get, if_neg he, ih hl]

/-- A filter by keys keeps the values of the keys that it lets through. -/
theorem get_filter_key (d : α) (p : Nat → Bool) (l : Store α) (k : Nat) :
    get d (l.filter (fun e => p e.1)) k = if p k then get d l k else d := by
  induction l with
  | nil => simp
  | cons e l ih =>
    by_cases hk : e.1 = k
    · cases hp : p k <;> simp [get, hk, hp, ih]
    · cases hp : p e.1 <;> simp [get, hk, hp, ih]

variable [DecidableEq α]

theorem le_key_of_wfFrom (d : α) {lo : Nat} {l : Store α} (hw : wfFrom d lo l = true) : ∀ e ∈ l, lo ≤ e.1 := by
  induction l generalizing lo with
  | nil => simp
  | cons e l ih =>
    simp only [wfFrom, Bool.and_eq_true, decide_eq_true_eq] at hw
    obtain ⟨⟨hlo, _⟩, hl⟩ := hw
    exact List.forall_mem_cons.mpr ⟨hlo, fun x hx => by have := ih hl x hx; omega⟩

/-- The keys of a canonical table rise. -/
theorem keys_rise (d : α) {lo : Nat} {l : Store α} (hw : wfFrom d lo l = true) : l.Pairwise (fun e f => e.1 < f.1) := by
  induction l generalizing lo with
  | nil => exact .nil
  | cons e l ih =>
    simp only [wfFrom, Bool.and_eq_true, decide_eq_true_eq] at hw
    exact .cons (le_key_of_wfFrom d hw.2) (ih hw.2)

/-- A canonical table gives each of its keys the value listed with it. -/
theorem get_of_mem (d : α) {lo : Nat} {l : Store α} (hw : wfFrom d lo l = true) {e : Nat × α} (he : e ∈ l) :
    get d l e.1 = e.2 := by
  induction l generalizing lo with
  | nil => cases he
  | cons x l ih =>
    simp only [wfFrom, Bool.and_eq_true, decide_eq_true_eq] at hw
    rcases List.mem_cons.mp he with rfl | he
    · rw [get, if_pos rfl]
    · have := le_key_of_wfFrom d hw.2 e he
      rw [get, if_neg (by omega), ih hw.2 he]

/-- A table whose keys from `src` up have been copied to those from `dst` up, `n` of them, in the place of what stood there. -/
def copyRange (d : α) (l : Store α) (src dst n : Nat) : Store α :=
  (l.filter (fun e => decide (src ≤ e.1 ∧ e.1 < src + n))).foldl (fun m e => set d m (dst + (e.1 - src)) e.2)
    (l.filter (fun e => !decide (dst ≤ e.1 ∧ e.1 < dst + n)))

theorem get_copyRange (d : α) {l : Store α} (hw : wf d l = true) (src dst n q : Nat) :
    get d (copyRange d l src dst n) q = if dst ≤ q ∧ q < dst + n then get d l (src + (q - dst)) else get d l q := by
  let cells := l.filter (fun e => decide (src ≤ e.1 ∧ e.1 < src + n))
  have inSrc : ∀ e ∈ cells, e ∈ l ∧ src ≤ e.1 ∧ e.1 < src + n := fun e he => by simpa [cells] using he
  have kept := get_filter_key d (fun p => !decide (dst ≤ p ∧ p < dst + n)) l q
  have untouched (h : ∀ e ∈ cells, dst + (e.1 - src) ≠ q) :
      get d (copyRange d l src dst n) q = if !decide (dst ≤ q ∧ q < dst + n) then get d l q else d :=
    (get_foldl_set_other d (fun e : Nat × α => dst + (e.1 - src)) (·.2) h _).trans kept
  by_cases hq : dst ≤ q ∧ q < dst + n
  · rw [if_pos hq]
    by_cases hl : ∃ e ∈ l, e.1 = src + (q - dst)
    · obtain ⟨e, he, hkey⟩ := hl
      have hcell : e ∈ cells := List.mem_filter.mpr ⟨he, decide_eq_true (by omega)⟩
      have distinct : (cells.map (fun e => dst + (e.1 - src))).Nodup := by
        rw [List.Nodup, List.pairwise_map]
        refine ((keys_rise d hw).filter _).imp_of_mem fun he hf hlt => ?_
        have := inSrc _ he
        have := inSrc _ hf
        omega
      have hqe : q = dst + (e.1 - src) := by omega
      rw [← hkey, get_of_mem d hw he, hqe]
      exact get_foldl_set_mem d (fun e : Nat × α => dst + (e.1 - src)) (·.2) distinct hcell _
    · have none_ : ∀ e ∈ l, e.1 ≠ src + (q - dst) := fun e he h => hl ⟨e, he, h⟩
      have other : ∀ e ∈ cells, dst + (e.1 - src) ≠ q := fun e he h => by
        obtain ⟨hmem, hlo, _⟩ := inSrc e he
        exact none_ e hmem (by omega)
      rw [untouched other, get_of_not_key d none_, decide_eq_true hq]
      rfl
  · have other : ∀ e ∈ cells, dst + (e.1 - src) ≠ q := fun e he h => by
      obtain ⟨_, hlo, hhi⟩ := inSrc e he
      omega
    rw [untouched other, decide_eq_false hq, if_neg hq]
    rfl

end Store

namespace Machine.State

/-! ### Doublewords after a write -/

theorem length_bytesOf (n x : Nat) : (bytesOf n x).length = n := length_splitLanes 8 n x

theorem readAt_congr {s t : State} {p n : Nat} (h : ∀ q, p ≤ q → q < p + n → t.byteAt q = s.byteAt q) :
    t.readAt p n = s.readAt p n := by
  refine congrArg ofBytes (List.map_congr_left fun q hq => ?_)
  obtain ⟨h1, h2⟩ := mem_upFrom.mp hq
  exact h q h1 h2

theorem readAt_of_mem {s t : State} (h : t.mem = s.mem) (p n : Nat) : t.readAt p n = s.readAt p n :=
  readAt_congr fun q _ _ => byteAt_of_mem h q

section
variable {s : State} (hc : s.hub.ckdctl = 0) (p n x : Nat)
include hc

/-- A word written at its home changes its own bytes and no other, while no checkpoint keeps dirty bits. -/
theorem byteAt_writeAt_other {q : Nat} (hq : q < p ∨ p + n ≤ q) : (s.writeAt p n x).byteAt q = s.byteAt q := by
  rw [writeAt, byteAt_perform s p _ q hc, length_bytesOf, if_neg (by omega)]

theorem readAt_writeAt_other {q m : Nat} (hq : q + m ≤ p ∨ p + n ≤ q) : (s.writeAt p n x).readAt q m = s.readAt q m :=
  readAt_congr fun _ _ _ => byteAt_writeAt_other hc p n x (by omega)

theorem bytesAt_writeAt : (s.writeAt p n x).bytesAt p n = bytesOf n x := by
  refine List.ext_getElem (by rw [length_bytesAt, length_bytesOf]) fun i hi hl => ?_
  rw [length_bytesAt] at hi
  simp only [bytesAt, upFrom_eq_range', List.getElem_map, List.getElem_range', Nat.one_mul]
  rw [writeAt, byteAt_perform s p _ _ hc, length_bytesOf, if_pos (by omega), Nat.add_sub_cancel_left,
    List.getD_eq_getElem?_getD, List.getElem?_eq_getElem hl, Option.getD_some]
  exact Nat.mod_eq_of_lt (splitLanes_lt 8 n x _ (List.getElem_mem hl))

/-- A word written at its home is read there. -/
theorem readAt_writeAt : (s.writeAt p n x).readAt p n = x % 2 ^ (8 * n) := by
  rw [readAt, bytesAt_writeAt hc, ofBytes, bytesOf, joinLanes_splitLanes]

end

/-! ### What a write notes -/

theorem markDirtyBit_off {s : State} (hc : s.hub.ckdctl = 0) (p : Nat) : s.markDirtyBit p = s := by
  simp [markDirtyBit, hc, bit]

/-- A dirty bit is a byte of memory. -/
theorem markDirtyBit_frame (s : State) (p : Nat) : ∃ mem, s.markDirtyBit p = { s with mem := mem } := by
  unfold markDirtyBit
  dsimp only
  repeat' split
  all_goals exact ⟨_, rfl⟩

@[simp] theorem markDirtyBit_hub (s : State) (p : Nat) : (s.markDirtyBit p).hub = s.hub := by
  obtain ⟨_, h⟩ := s.markDirtyBit_frame p
  rw [h]

@[simp] theorem markDirtyBit_stores (s : State) (p : Nat) : (s.markDirtyBit p).stores = s.stores := by
  obtain ⟨_, h⟩ := s.markDirtyBit_frame p
  rw [h]

@[simp] theorem markDirtyBit_atomics (s : State) (p : Nat) : (s.markDirtyBit p).atomics = s.atomics := by
  obtain ⟨_, h⟩ := s.markDirtyBit_frame p
  rw [h]

@[simp] theorem writeAt_stores (s : State) (p n x : Nat) : (s.writeAt p n x).stores = s.stores := by
  obtain ⟨_, h⟩ := writeBytes_frame (bytesOf n x) s p
  simp only [writeAt, perform, noteWrite, h, apply_ite State.stores, markDirtyBit_stores, ite_self]

@[simp] theorem writeAt_atomics (s : State) (p n x : Nat) : (s.writeAt p n x).atomics = s.atomics := by
  obtain ⟨_, h⟩ := writeBytes_frame (bytesOf n x) s p
  simp only [writeAt, perform, noteWrite, h, apply_ite State.atomics, markDirtyBit_atomics, ite_self]

/-- A rewriting of the page moves that only logs lines, as a write does (R246). -/
def OnlyLogs (f : PageMove → PageMove) : Prop := ∀ m, ∃ l, f m = { m with logged := l }

/-- A rewriting of the leases that changes only which pages are dirty, as a write does (R250). -/
def OnlyDirties (g : AgistLease → AgistLease) : Prop := ∀ a, ∃ l, g a = { a with dirtyPages := l }

theorem onlyLogs_id : OnlyLogs id := fun m => ⟨m.logged, rfl⟩
theorem onlyDirties_id : OnlyDirties id := fun a => ⟨a.dirtyPages, rfl⟩

theorem OnlyDirties.comp {g h : AgistLease → AgistLease} (hg : OnlyDirties g) (hh : OnlyDirties h) : OnlyDirties (g ∘ h) := by
  intro a
  obtain ⟨l, hl⟩ := hh a
  obtain ⟨m, hm⟩ := hg (h a)
  exact ⟨m, by rw [Function.comp, hm, hl]⟩

/-- What a write of `n` bytes at `p` notes of a move: the lines written while its page is copied (R246). -/
def logLines (p n : Nat) (m : PageMove) : PageMove :=
  if m.stage = 0 ∧ p / 65536 = m.src / 65536 then
    { m with logged := m.logged ++ (linesOf p n).filter (fun l => !m.logged.contains l) }
  else m

/-- What a write at `p` notes of a lease: the lent page that becomes dirty (R250). -/
def dirtyPage (p : Nat) (a : AgistLease) : AgistLease :=
  let base := placeOf a.lender a.lbase
  if 5 ≤ a.state ∧ base ≤ p ∧ p < base + a.size then
    let i := (p - base) / 65536
    { a with dirtyPages := if a.dirtyPages.contains i then a.dirtyPages else a.dirtyPages ++ [i] }
  else a

theorem onlyLogs_logLines (p n : Nat) : OnlyLogs (logLines p n) := by
  intro m
  unfold logLines
  split
  · exact ⟨_, rfl⟩
  · exact ⟨m.logged, rfl⟩

theorem onlyDirties_dirtyPage (p : Nat) : OnlyDirties (dirtyPage p) := by
  intro a
  unfold dirtyPage
  dsimp only
  split
  · exact ⟨_, rfl⟩
  · exact ⟨a.dirtyPages, rfl⟩

/-- A list rewritten only where it is not empty is rewritten. -/
theorem ite_isEmpty_map {α β : Type} (l : List α) (f : α → α) (g : List α → β) :
    (if l.isEmpty then g l else g (l.map f)) = g (l.map f) := by cases l <;> rfl

theorem noteWrite_hub (s : State) (p n : Nat) : (s.noteWrite p n).hub =
    { s.hub with moves := s.hub.moves.map (logLines p n), agist := s.hub.agist.map (dirtyPage p) } := by
  have keep : (if s.hub.ckdctl = 0 then s else (s.markDirtyBit p).markDirtyBit (p + n - 1)).hub = s.hub := by
    rw [apply_ite State.hub, markDirtyBit_hub, markDirtyBit_hub, ite_self]
  unfold noteWrite
  generalize (if s.hub.ckdctl = 0 then s else (s.markDirtyBit p).markDirtyBit (p + n - 1)) = u at keep ⊢
  have logged := ite_isEmpty_map u.hub.moves (logLines p n) (fun l => ({ u with hub := { u.hub with moves := l } } : State))
  rw [← keep]
  refine (congrArg (fun v : State => (if v.hub.agist.isEmpty then v else
    { v with hub := { v.hub with agist := v.hub.agist.map (dirtyPage p) } }).hub) logged).trans ?_
  exact congrArg State.hub (ite_isEmpty_map u.hub.agist (dirtyPage p) (fun l =>
    ({ u with hub := { u.hub with moves := u.hub.moves.map (logLines p n), agist := l } } : State)))

/-- A word written at its home changes nothing in the hub but what the write notes. -/
theorem writeAt_hub (s : State) (p n x : Nat) : ∃ f g, OnlyLogs f ∧ OnlyDirties g ∧
    (s.writeAt p n x).hub = { s.hub with moves := s.hub.moves.map f, agist := s.hub.agist.map g } := by
  have hub : (s.writeAt p n x).hub = if isScratch p then s.hub
      else ((s.writeBytes p (bytesOf n x)).noteWrite p (bytesOf n x).length).hub := by
    simp only [writeAt, perform, apply_ite State.hub, ite_self, writeBytes_hub]
  rw [hub]
  split
  · exact ⟨id, id, onlyLogs_id, onlyDirties_id, by rw [List.map_id, List.map_id]⟩
  · exact ⟨_, _, onlyLogs_logLines p _, onlyDirties_dirtyPage p, by rw [noteWrite_hub, writeBytes_hub]⟩

end Machine.State

end Sys2Proof
end

section
/-!
SUPPORT. The walker (R228, R233 to R235) and the end of an epoch (R244): a walk by the pointers that the walk cache holds, and
what the steps leave.
-/

namespace Sys2Proof.Machine

namespace State

theorem exec_tableWalk (s : State) : exec .tableWalk s = execTableWalk s := rfl
theorem exec_migrationEpochEnd (s : State) : exec .migrationEpochEnd s = execMigrationEpochEnd s := rfl

/-! ### A walk of the tables -/

/-- A table word of memory with nothing ahead of it on its path (R266) is read as it stands. -/
theorem physWord_ok {s : State} {p : Nat} (h : localTier (localOfPlace p) = 1 ∨ localTier (localOfPlace p) = 3)
    (hb : s.placeBusy p = false) : s.physWord p = .ok (s.readAt p 8) := by
  rw [physWord, if_pos h, hb]; rfl

/-- The walk cache's pointer is used, where it leads into the paddock (R233). -/
theorem walkPointer_cached {s : State} {die asid va level : Nat} {t : Tlb} (ht : s.tlbs.find? (fun t =>
      t.kind == 2 && t.unit == die && t.asid == asid && t.level == level && t.page == va / 2 ^ (if level = 3 then 42 else 29)) =
        some t) (hp : s.tablePageOk t.entry = true) (table index : Nat) :
    s.walkPointer die asid va level table index = .ok (s, some t.entry) := by
  have hit := find?_and (q := fun t : Tlb => s.tablePageOk t.entry) ht hp
  rw [walkPointer]
  simp only [hit]

/-- A normal base page of this package's HBM is a leaf (R231). -/
theorem leafOk_hbm {s : State} {e : Nat} (hv : bit e 0 = true) (hr : bits e 1 3 ≠ 0) (hz : bits e 13 3 = 0)
    (ht : bits e 9 2 = 0) (hn : bits e 6 3 = 1) (hp : bits e 16 44 / 2 ^ 29 = s.hub.pkg) (hf : bits e 16 44 % 2 ^ 29 < 2 ^ 23) :
    s.leafOk e false = true := by
  have pkg : pkgOfPlace (entryPage e) = s.hub.pkg := by rw [pkgOfPlace, entryPage, ← hp]; omega
  have tier : localTier (localOfPlace (entryPage e)) = 1 := by
    rw [localTier, if_pos]
    rw [localOfPlace, entryPage]; omega
  simp [leafOk, hv, hr, hz, ht, hn, pkg, tier]

/-- A word without a permission is no leaf (R231). -/
theorem leafOk_noRights (s : State) {e : Nat} (h : bits e 1 3 = 0) (large : Bool) : s.leafOk e large = false := by
  simp [leafOk, h]

/-- The walk of a mapped address finds its leaf and holds no pointer anew. -/
theorem walk_mapped {s : State} {die asid va at_ e : Nat} (h : MappedBy s die asid va at_ e) :
    s.walk die asid va = .ok (s, some (e, at_, false)) := by
  obtain ⟨⟨hroot, hrootFree⟩, hvalid, hok, ⟨t3, t2, h3, h2, ok3, ok2, ⟨⟨hat2, hat2Free⟩, hpointer⟩, rfl⟩, ⟨hat, hatFree⟩,
    rfl, hv, hr, hz, ht, hn, hp, hf⟩ := h
  have leaf := leafOk_hbm hv hr hz ht hn hp hf
  have noLeaf := leafOk_noRights s hpointer true
  simp only [walk, physWord_ok hroot hrootFree, ok_bind, hvalid, hok, Bool.not_true, Bool.or_self, Bool.false_eq_true, if_false,
    walkPointer_cached h3 ok3, physWord_ok hat2 hat2Free, noLeaf, walkPointer_cached h2 ok2, physWord_ok hat hatFree, leaf, if_true]

/-! ### What the walker's steps leave -/

section
variable {s : State} (hw : s.walks = []) (hq : s.walkQueue = [])
include hw hq

/-- With no walk in flight and none waiting a request walks at once (R234). -/
theorem requestWalk_idle (core asid va : Nat) (write : Bool) :
    s.requestWalk core asid va write = s.walkFor core asid va write := by
  have same : ({ s with walkQueue := s.walkQueue.erase (dieOf core, asid, va / 65536) } : State) = s := by
    rw [hq, List.erase_nil, ← hq]
  have none_ : s.walksOf (dieOf core) = 0 := by simp [walksOf, hw]
  have first : (s.walkQueue.filter (fun q => q.1 == dieOf core)).head? = none := by rw [hq]; rfl
  have joins : s.walks.find? (fun w => w.die == dieOf core && w.asid == asid && w.page == va / 65536) = none := by rw [hw]; rfl
  simp only [requestWalk, joins, none_, first, same]
  rw [if_pos ⟨by decide, .inl trivial⟩]

/-- The first walk of all begins at once, and stays in flight with the leaf that it finds. -/
theorem startWalk_idle {core asid va : Nat} {r : Option (Nat × Nat × Bool)} (h : s.walk (dieOf core) asid va = .ok (s, r)) :
    s.startWalk core asid va = .ok { s with walks := [
      { die := dieOf core, asid := asid, page := va / 65536, core := core, leaf := r }] } := by
  have none_ : s.walksOf (dieOf core) = 0 := by simp [walksOf, hw]
  simp [startWalk, hw, hq, none_, h, ok_bind]

end

theorem usedLeaf_read {e : Nat} (h : bit e 4 = true) : usedLeaf e false = e := by
  refine Nat.eq_of_testBit_eq fun i => ?_
  have sixteen : (0x10 : Nat).testBit i = decide (4 = i) := Nat.testBit_two_pow (n := 4)
  by_cases hi : 4 = i
  · subst hi
    simpa [usedLeaf, sixteen, bit] using h
  · simp [usedLeaf, sixteen, hi]

/-- A leaf that is held changes no memory, and stands in the micro-TLB of the core (R232, R233). -/
theorem holdLeaf_holds (s : State) (core asid va e : Nat) (large : Bool) : (s.holdLeaf core asid va e large).mem = s.mem ∧
    { kind := 0, unit := core, asid := asid, page := tlbPage large va, large := large, entry := e } ∈
      (s.holdLeaf core asid va e large).tlbs := by
  unfold holdLeaf
  dsimp only
  split <;> exact ⟨rfl, by simp [tlbInsert]⟩

/-- The walk of a mapped address for a read, its leaf already used: memory stays, and the leaf is held. -/
theorem walkFor_read {s : State} {core asid va at_ e : Nat} (h : MappedBy s (dieOf core) asid va at_ e) (ha : bit e 4 = true) :
    s.walkFor core asid va false = .ok (s.holdLeaf core asid va e false, some (e, false)) := by
  simp only [walkFor, walk_mapped h, ok_bind, usedLeaf_read ha, if_true]

theorem endWalk_noLeaf {s : State} {w : Walk} (h : w.leaf = none) (write : Bool) :
    s.endWalk w write = .ok { s with walks := s.walks.erase w } := by
  simp only [endWalk, joinWalk, h]; rfl

end State

open State

/-! ### The steps -/

theorem walkAndEpochSteps : WalkAndEpochSteps := by
  unfold WalkAndEpochSteps
  intro s done
  refine ⟨?request, ?mapped, ?ended, ?epoch⟩
  case request =>
    intro t r haux hw hq h
    rw [exec_tableWalk, execTableWalk, if_neg (by omega), if_neg (by omega), requestWalk_idle hw hq, h]
    rfl
  case mapped =>
    intro at_ e h hw hq
    constructor
    · intro haux hread ha
      obtain ⟨hmem, hheld⟩ := holdLeaf_holds s s.ev.core s.ev.val s.ev.addr e false
      refine ⟨_, ?_, hmem, _, hheld, rfl, rfl, rfl, rfl, rfl, ?_⟩
      · rw [exec_tableWalk, execTableWalk, if_neg (by omega), if_neg (by omega), requestWalk_idle hw hq, hread, walkFor_read h ha]
        rfl
      · simp [Tlb.covers, tlbPage]
    · intro haux
      rw [exec_tableWalk, execTableWalk, if_pos haux, startWalk_idle hw hq (walk_mapped h)]
      rfl
  case ended =>
    intro w haux hw hleaf
    rw [exec_tableWalk, execTableWalk, if_neg (by omega), if_pos haux, hw]
    simp only [endWalk_noLeaf hleaf]
    rfl
  case epoch =>
    intro hdue hoff
    rw [exec_migrationEpochEnd, execMigrationEpochEnd, if_neg (by omega), hoff]
    rfl

end Sys2Proof.Machine
end

section
/-!
SUPPORT. Moves of a page (R238, R246, R247): what a copied frame reads as, what the ending of a move leaves, and the removal of
translations where no access is under way.
-/

namespace Sys2Proof.Machine

namespace State

theorem exec_pageMoveCopy (s : State) : exec .pageMoveCopy s = execPageMoveCopy s := rfl
theorem exec_pageMoveDrain (s : State) : exec .pageMoveDrain s = execPageMoveDrain s := rfl
theorem exec_pageMoveSwitch (s : State) : exec .pageMoveSwitch s = execPageMoveSwitch s := rfl
theorem exec_pageMoveResume (s : State) : exec .pageMoveResume s = execPageMoveResume s := rfl
theorem exec_pageMoveAbandon (s : State) : exec .pageMoveAbandon s = execPageMoveAbandon s := rfl

/-! ### The copy of a frame -/

@[simp] theorem copyFrame_hub (s : State) (src dst : Nat) : (s.copyFrame src dst).hub = s.hub := by
  simp only [copyFrame, markDirtyBit_hub]

theorem copyFrame_mem {s : State} (hc : s.hub.ckdctl = 0) (src dst : Nat) :
    (s.copyFrame src dst).mem = Store.copyRange unlistedByte s.mem (src * 65536) (dst * 65536) 65536 := by
  rw [copyFrame, markDirtyBit_off]
  · rfl
  · exact hc

/-- A frame's copy has its bytes, and every other byte stays, while no checkpoint keeps dirty bits (R246). -/
theorem byteAt_copyFrame {s : State} (hm : s.MemCanonical) (hc : s.hub.ckdctl = 0) (src dst q : Nat) :
    (s.copyFrame src dst).byteAt q =
      if dst * 65536 ≤ q ∧ q < dst * 65536 + 65536 then s.byteAt (src * 65536 + (q - dst * 65536)) else s.byteAt q := by
  rw [byteAt, copyFrame_mem hc, Store.get_copyRange unlistedByte hm, apply_ite BitVec.toNat]
  rfl

/-! ### No access under way -/

section
variable {s : State} (hs : s.stores = []) (ha : s.atomics = [])
include hs ha

theorem settleSome_none (mine : Nat → Nat → Nat → Bool) : s.settleSome mine = .ok s := by
  rw [settleSome, drainWhere_none (by simp [hs])]
  exact settleAtomicsWhere_none (by simp [ha])

theorem hubTlbi_none (asid va : Nat) : s.hubTlbi asid va = .ok (s.dropTlb 0 6 asid va false false) :=
  settleSome_none (s := s.dropTlb 0 6 asid va false false) hs ha _

end

/-- The removal that the hub makes at .pa takes a base page's translations from every micro-TLB and cluster TLB (R238). -/
theorem dropTlb_removes {s : State} {asid va : Nat} {x : Tlb} (hx : x ∈ (s.dropTlb 0 6 asid va false false).tlbs)
    (ha : x.asid = asid) : ¬(x.kind ≤ 1 ∧ x.large = false ∧ x.page = va / 65536) := by
  rintro ⟨hk, hl, hp⟩
  have stays : (!(tlbNamed asid va false false x && tlbReached 0 6 x)) = true := (List.mem_filter.mp hx).2
  have named : tlbNamed asid va false false x = true := by
    simp [tlbNamed, ha, hl, hp, show x.kind ≠ 2 by omega]
  have reached : tlbReached 0 6 x = true := by
    rcases Nat.le_one_iff_eq_zero_or_eq_one.mp hk with h | h <;> simp [tlbReached, h]
  simp [named, reached] at stays

/-! ### The ending of a move -/

/-- A message of the hub waits in its core for the network. -/
theorem hubMessage_frame (s : State) (core tag prio src : Nat) (payload : List Nat) :
    ∃ cores, s.hubMessage core tag prio src payload = { s with cores := cores } := by
  unfold hubMessage
  dsimp only
  split
  · exact ⟨_, rfl⟩
  · exact ⟨s.cores, rfl⟩

/-- The ending's message draws free values and stands in its core. -/
theorem moveEvent_frame (s : State) (m : PageMove) (outcome : Nat) :
    ∃ cores fresh, s.moveEvent m outcome = { s with cores := cores, fresh := fresh } := by
  obtain ⟨cores, h⟩ := hubMessage_frame s.hubSource.2.freeValue.2 (bits s.hub.migctl.toNat 40 11) (bits s.hub.migctl.toNat 32 8)
    (s.hubSource.2.freeValue.1.toNat % 8) s.hubSource.1 [m.va, m.src / 65536, m.dst / 65536, outcome, m.poisoned, 0]
  exact ⟨cores, s.fresh + 2, h⟩

theorem endPageIn_none {m : PageMove} (h : m.pgin = none) (s : State) (fault : Option (Nat × Nat)) : s.endPageIn m fault = s := by
  rw [endPageIn, h]

/-- A placement's page enters no lease where the move is none. -/
theorem placePage_none {m : PageMove} (h : m.lease = none) (s : State) : s.placePage m = s := by
  have none_ : s.hub.agist.find? (fun a => m.lease == some (a.lender * 2 ^ 32 + a.id)) = none := by simp [h]
  rw [placePage]
  simp only [none_]

theorem not_mem_giveFrames {s : State} {l : List Nat} {f : Nat} (h : f ∈ l) : f ∉ (s.giveFrames l).hub.usedFrames := by
  simp [giveFrames, h]

/-- An abandoned move before its switch: it leaves the engine, and its destination is free (R247). -/
theorem abandonMove_leaves {s : State} {m : PageMove} (h2 : m.stage ≠ 2) (hl : m.lease = none) (hp : m.pgin = none) (line : Nat) :
    let t := s.abandonMove m line
    (∀ x ∈ t.hub.moves, x.leafAddr ≠ m.leafAddr) ∧ m.dst / 65536 ∉ t.hub.usedFrames ∧ t.mem = s.mem := by
  obtain ⟨cores, fresh, h⟩ := moveEvent_frame ((s.dropMove m).giveFrames [m.dst / 65536]) m 1
  have end_ : s.abandonMove m line =
      { (s.dropMove m).giveFrames [m.dst / 65536] with cores := cores, fresh := fresh } := by
    simp only [abandonMove, if_neg h2, hl, Option.isSome_none, Bool.false_eq_true, if_false, h, endPageIn_none hp]
  rw [end_]
  exact ⟨fun x hx => by simpa using (List.mem_filter.mp hx).2, not_mem_giveFrames (.head _), rfl⟩

/-- A move that ends while no lease is held: it leaves the engine, its source is free, and the lease count has moved (R246). -/
theorem resumePage_leaves {s : State} {m : PageMove} (hl : m.lease = none) (hp : m.pgin = none) (hh : s.heldLeases = []) :
    let t := s.resumePage m
    let src := m.src / 65536
    let dst := m.dst / 65536
    (∀ x ∈ t.hub.moves, x.leafAddr ≠ m.leafAddr) ∧ src ∉ t.hub.usedFrames ∧ t.mem = s.mem ∧
      (src ≠ dst → Store.get 0 t.hub.leaseCounts dst = Store.get 0 s.hub.leaseCounts src ∧
        Store.get 0 t.hub.leaseCounts src = 0) := by
  let u := ((s.dropMove m).carryCount (m.src / 65536) (m.dst / 65536)).giveFrames [m.src / 65536]
  obtain ⟨cores, fresh, h⟩ := moveEvent_frame u m (if m.poisoned = 0 then 0 else 2)
  have held : (s.dropMove m).heldLeases = [] := hh
  have end_ : s.resumePage m = { u with cores := cores, fresh := fresh } := by
    simp only [resumePage, placePage_none hl, held, List.any_nil, Bool.false_eq_true, if_false, endPageIn_none hp]
    exact h
  rw [end_]
  refine ⟨fun x hx => by simpa using (List.mem_filter.mp hx).2, not_mem_giveFrames (.head _), rfl, fun hne => ?_⟩
  have counts : u.hub.leaseCounts = Store.set 0 (Store.set 0 s.hub.leaseCounts (m.src / 65536) 0) (m.dst / 65536)
    (Store.get 0 s.hub.leaseCounts (m.src / 65536)) := rfl
  exact ⟨by rw [counts, Store.get_set_same], by rw [counts, Store.get_set_other _ _ _ hne, Store.get_set_same]⟩

/-- The switch of a leaf that nobody has changed, with no access under way (R246). -/
theorem switchPage_switches {s : State} {m : PageMove} (hm : m ∈ s.hub.moves) (hs : s.stores = []) (ha : s.atomics = [])
    (hleaf : setBits (s.readAt m.leafAddr 8) 4 2 0 = setBits m.leaf 4 2 0) (hc : s.hub.ckdctl = 0) :
    ∃ t : State, s.switchPage m = .ok t ∧
      t.readAt m.leafAddr 8 = movedLeaf (s.readAt m.leafAddr 8) (m.dst / 65536) m.dstTier % 2 ^ 64 ∧
      s.SameMemoryBut t m.leafAddr 8 ∧
      (∀ x ∈ t.tlbs, x.asid = m.asid → ¬(x.kind ≤ 1 ∧ x.large = false ∧ x.page = m.va / 65536)) ∧
      ∃ x ∈ t.hub.moves, x.leafAddr = m.leafAddr ∧ x.stage = 2 := by
  let u := s.writeAt m.leafAddr 8 (movedLeaf (s.readAt m.leafAddr 8) (m.dst / 65536) m.dstTier)
  have settled := hubTlbi_none (s := u) ((writeAt_stores ..).trans hs) ((writeAt_atomics ..).trans ha) m.asid m.va
  refine ⟨(u.dropTlb 0 6 m.asid m.va false false).setPageMove { m with stage := 2 }, ?_, readAt_writeAt hc _ 8 _,
    fun q hq => byteAt_writeAt_other hc _ 8 _ hq, fun x hx => dropTlb_removes hx, { m with stage := 2 }, ?_, rfl, rfl⟩
  · simp only [switchPage, hleaf, ne_eq, not_true_eq_false, if_false]
    rw [show s.writeAt m.leafAddr 8 _ = u from rfl, settled]
    rfl
  · obtain ⟨f, g, hf, _, hub⟩ := writeAt_hub s m.leafAddr 8 (movedLeaf (s.readAt m.leafAddr 8) (m.dst / 65536) m.dstTier)
    obtain ⟨l, hl⟩ := hf m
    have moved : f m ∈ u.hub.moves := by rw [hub]; exact List.mem_map_of_mem hm
    exact List.mem_map.mpr ⟨f m, moved, if_pos (by rw [hl])⟩

/-! ### The steps of a move -/

section
variable {s : State} {m : PageMove} (hm : s.hub.moves[s.ev.idx]? = some m)
include hm

theorem pageMoveCopy_eq (h0 : m.stage = 0) (hc : m.copied = false) : exec .pageMoveCopy s = .next
    (if s.ev.ok then s.copyPage m (if s.homeLost m.src then upFrom 0 1024 else s.ev.list) else s.abandonMove m m.va) := by
  simp only [exec_pageMoveCopy, execPageMoveCopy, evPageMove, hm, h0, hc, and_self, if_true]

theorem pageMoveDrain_eq (h0 : m.stage = 0) (hc : m.copied = true) : exec .pageMoveDrain s = finishEvent s (s.drainPage m) := by
  simp only [exec_pageMoveDrain, execPageMoveDrain, evPageMove, hm, h0, hc, and_self, if_true]

theorem pageMoveSwitch_eq (h1 : m.stage = 1) : exec .pageMoveSwitch s = finishEvent s (s.switchPage m) := by
  simp only [exec_pageMoveSwitch, execPageMoveSwitch, evPageMove, hm, h1, if_true]

theorem pageMoveResume_eq (h2 : m.stage = 2) : exec .pageMoveResume s = .next (s.resumePage m) := by
  simp only [exec_pageMoveResume, execPageMoveResume, evPageMove, hm, h2, if_true]

theorem pageMoveAbandon_eq (h2 : m.stage < 2) : exec .pageMoveAbandon s = .next (s.abandonMove m s.ev.addr) := by
  simp only [exec_pageMoveAbandon, execPageMoveAbandon, evPageMove, hm, h2, if_true]

end

/-- A copy with a lost line and without FORCE abandons the move (R247). -/
theorem copyPage_abandons {m : PageMove} (hf : m.force = false) (s : State) (l : Nat) (bad : List Nat) :
    s.copyPage m (l :: bad) = s.abandonMove m (m.va + 64 * (l % 1024)) := by
  simp only [copyPage, hf, Bool.false_eq_true, if_false]

/-- A drain with no access under way and no line logged. -/
theorem drainPage_quiet {s : State} {m : PageMove} (hm : m ∈ s.hub.moves) (hs : s.stores = []) (ha : s.atomics = [])
    (hl : m.logged = []) (hone : ∀ x ∈ s.hub.moves, x.leafAddr = m.leafAddr → x = m) :
    s.drainPage m = .ok (s.setPageMove { m with stage := 1 }) := by
  have found : s.hub.moves.find? (fun x => x.leafAddr == m.leafAddr) = some m := by
    have isSome : (s.hub.moves.find? (fun x => x.leafAddr == m.leafAddr)).isSome = true :=
      List.find?_isSome.mpr ⟨m, hm, beq_self_eq_true _⟩
    obtain ⟨x, hx⟩ := Option.isSome_iff_exists.mp isSome
    rw [hx, hone x (List.mem_of_find?_eq_some hx) (by simpa using List.find?_some hx)]
  have same : ({ m with stage := 1, logged := [] } : PageMove) = { m with stage := 1 } := by rw [← hl]
  simp only [drainPage, settleFrame, settleSome_none hs ha, ok_bind, found, Option.getD_some, hl, List.foldl_nil, same]

end State

open State

theorem pageMoveSteps : PageMoveSteps := by
  unfold PageMoveSteps
  intro s m hm done src dst
  have hmem : m ∈ s.hub.moves := List.mem_of_getElem? hm
  refine ⟨?copy, ?copyFails, ?copyLost, ?copyBad, ?drain, ?switch, ?changed, pageMoveResume_eq hm, ?resume,
    pageMoveAbandon_eq hm, ?abandon⟩
  case copy =>
    intro h0 hc hok hlist hcan hck hne hlost
    have bytes := byteAt_copyFrame hcan hck src dst
    refine ⟨(s.copyFrame src dst).setPageMove { m with copied := true }, ?_, fun i hi => ?_, fun q hq => ?_, ?_⟩
    · rw [pageMoveCopy_eq hm h0 hc, if_pos hok, hlost, hlist]
      rfl
    · refine (bytes _).trans ?_
      rw [if_pos (by omega), Nat.add_sub_cancel_left]
    · refine (bytes q).trans (if_neg ?_)
      omega
    · simp only [setPageMove, copyFrame_hub]
  case copyFails =>
    intro h0 hc hok
    rw [pageMoveCopy_eq hm h0 hc, hok]
    rfl
  case copyLost =>
    intro h0 hc hok hlost hf
    rw [pageMoveCopy_eq hm h0 hc, if_pos hok, if_pos hlost, upFrom, copyPage_abandons hf]
    rfl
  case copyBad =>
    intro h0 hc hok hlost l t hlist hf
    rw [pageMoveCopy_eq hm h0 hc, if_pos hok, hlost, hlist]
    simp only [Bool.false_eq_true, if_false, copyPage_abandons hf]
    rfl
  case drain =>
    intro h0 hc hs ha hl hone
    rw [pageMoveDrain_eq hm h0 hc, drainPage_quiet hmem hs ha hl hone]
    rfl
  case switch =>
    intro h1 hs ha _ hleaf hck _ _
    obtain ⟨t, ht, rest⟩ := switchPage_switches hmem hs ha hleaf hck
    exact ⟨t, by rw [pageMoveSwitch_eq hm h1, ht]; rfl, rest⟩
  case changed =>
    intro h1 hleaf
    rw [pageMoveSwitch_eq hm h1, switchPage, if_pos hleaf]
    rfl
  case resume =>
    intro h2 hl hp hh
    exact ⟨_, pageMoveResume_eq hm h2, resumePage_leaves hl hp hh⟩
  case abandon =>
    intro h2 hl hp
    exact ⟨_, pageMoveAbandon_eq hm h2, abandonMove_leaves (by omega) hl hp s.ev.addr⟩

end Sys2Proof.Machine
end

section
/-!
SUPPORT. Agistment (R250 to R254, R419 to R421): what the remapping of a page and the zero fill leave, and the ends of a lease
with no page placed.
-/

namespace Sys2Proof.Machine

namespace State

theorem exec_leasePageClean (s : State) : exec .leasePageClean s = execLeasePageClean s := rfl
theorem exec_musterNoticeArrive (s : State) : exec .musterNoticeArrive s = execMusterNoticeArrive s := rfl
theorem exec_leasePageRemap (s : State) : exec .leasePageRemap s = execLeasePageRemap s := rfl
theorem exec_musterDoneReceived (s : State) : exec .musterDoneReceived s = execMusterDoneReceived s := rfl
theorem exec_zeroFillDone (s : State) : exec .zeroFillDone s = execZeroFillDone s := rfl
theorem exec_musterWindowExpire (s : State) : exec .musterWindowExpire s = execMusterWindowExpire s := rfl
theorem exec_borrowerHubRestored (s : State) : exec .borrowerHubRestored s = execBorrowerHubRestored s := rfl
theorem exec_lenderLost (s : State) : exec .lenderLost s = execLenderLost s := rfl
theorem exec_agistTakeRequest (s : State) : exec .agistTakeRequest s = execAgistTakeRequest s := rfl
theorem exec_lenderAnswerTimeout (s : State) : exec .lenderAnswerTimeout s = execLenderAnswerTimeout s := rfl

/-! ### Cleaning (R250) -/

theorem cleanPage_starts {a : AgistLease} {i : Nat} (hd : i ∈ a.dirtyPages) (hc : i ∉ a.cleaning) (s : State) :
    s.cleanPage a i =
      s.keepLease { a with dirtyPages := a.dirtyPages.filter (fun j => j ≠ i), cleaning := a.cleaning ++ [i] } := by
  simp only [cleanPage, List.contains_eq_mem, hd, hc, decide_true, decide_false, if_true, Bool.false_eq_true, if_false]

theorem cleanPage_copies {a : AgistLease} {i : Nat} (hc : i ∈ a.cleaning) (s : State) : s.cleanPage a i =
    (s.copyFrame (a.lender * 2 ^ 29 + a.lbase / 65536 + i) (s.hub.pkg * 2 ^ 29 + a.backing / 65536 + i)).keepLease
      { a with cleaning := a.cleaning.filter (fun j => j ≠ i) } := by
  simp only [cleanPage, List.contains_eq_mem, hc, decide_true, if_true]

/-! ### A page remapped to its backing (R252) -/

/-- Two doublewords apart, written one after the other: both are read, and every other byte stays. -/
theorem writeAt_writeAt {s : State} (hc : s.hub.ckdctl = 0) {p q : Nat} (hd : p + 8 ≤ q ∨ q + 8 ≤ p) (x y : Nat) :
    let t := (s.writeAt p 8 x).writeAt q 8 y
    t.readAt p 8 = x % 2 ^ 64 ∧ t.readAt q 8 = y % 2 ^ 64 ∧
      (∀ r, r < p ∨ p + 8 ≤ r → r < q ∨ q + 8 ≤ r → t.byteAt r = s.byteAt r) ∧
      ∃ g, OnlyDirties g ∧ t.hub.agist = s.hub.agist.map g := by
  obtain ⟨_, g1, _, hg1, hub1⟩ := writeAt_hub s p 8 x
  obtain ⟨_, g2, _, hg2, hub2⟩ := writeAt_hub (s.writeAt p 8 x) q 8 y
  have hc' : (s.writeAt p 8 x).hub.ckdctl = 0 := by rw [hub1]; exact hc
  have agist1 : (s.writeAt p 8 x).hub.agist = s.hub.agist.map g1 := by rw [hub1]
  have agist2 : ((s.writeAt p 8 x).writeAt q 8 y).hub.agist = (s.writeAt p 8 x).hub.agist.map g2 := by rw [hub2]
  refine ⟨?_, readAt_writeAt hc' q 8 y, fun r hr hr' => ?_, g2 ∘ g1, hg2.comp hg1, ?_⟩
  · rw [readAt_writeAt_other hc' q 8 y hd]
    exact readAt_writeAt hc p 8 x
  · rw [byteAt_writeAt_other hc' q 8 y hr', byteAt_writeAt_other hc p 8 x hr]
  · rw [agist2, agist1, List.map_map]

/-- A page with a leaf: the leaf takes the backing frame at tier 3, the lease-map slot empties, and every other byte stays. -/
theorem remapPage_remaps {s : State} {a : AgistLease} {i leaf : Nat} (hs : s.stores = []) (ha : s.atomics = [])
    (hc : s.hub.ckdctl = 0) (hleaf : s.readAt (a.lmap % 2 ^ 60 + 8 * i) 8 = leaf) (h0 : leaf ≠ 0) (h60 : leaf < 2 ^ 60)
    (hd : leaf + 8 ≤ a.lmap % 2 ^ 60 + 8 * i ∨ a.lmap % 2 ^ 60 + 8 * i + 8 ≤ leaf) (asid va : Nat) :
    ∃ t g, s.remapPage a i asid va = .ok t ∧
      t.readAt leaf 8 = movedLeaf (s.readAt leaf 8) (s.backingFrame a i) 3 % 2 ^ 64 ∧
      t.readAt (a.lmap % 2 ^ 60 + 8 * i) 8 = 0 ∧
      (∀ p, p < leaf ∨ leaf + 8 ≤ p → p < a.lmap % 2 ^ 60 + 8 * i ∨ a.lmap % 2 ^ 60 + 8 * i + 8 ≤ p →
        t.byteAt p = s.byteAt p) ∧ OnlyDirties g ∧ t.hub.agist = s.hub.agist.map g := by
  have remap : s.remapPage a i asid va =
      ((((s.writeAt leaf 8 (movedLeaf (s.readAt leaf 8) (s.backingFrame a i) 3)).writeAt (a.lmap % 2 ^ 60 + 8 * i) 8 0).carryCount
        (lentFrame a i) (s.backingFrame a i)).redirect (lentFrame a i) (s.backingFrame a i)).hubTlbi asid va := by
    simp only [remapPage, hleaf, if_neg h0, Nat.mod_eq_of_lt h60]
  generalize a.lmap % 2 ^ 60 + 8 * i = slot at *
  generalize movedLeaf (s.readAt leaf 8) (s.backingFrame a i) 3 = new at *
  obtain ⟨hl, hslot, hrest, g, hg, hagist⟩ := writeAt_writeAt hc hd new 0
  have stores := (writeAt_stores (s.writeAt leaf 8 new) slot 8 0).trans ((writeAt_stores s leaf 8 new).trans hs)
  have atomics := (writeAt_atomics (s.writeAt leaf 8 new) slot 8 0).trans ((writeAt_atomics s leaf 8 new).trans ha)
  generalize (s.writeAt leaf 8 new).writeAt slot 8 0 = v at *
  refine ⟨_, g, remap.trans (hubTlbi_none ?_ ?_ asid va), hl, hslot, hrest, hg, hagist⟩
  · exact congrArg (List.map _) stores
  · exact congrArg (List.map _) atomics

/-- The only lease is the lease as the hub holds it. -/
theorem leaseNow_one {s : State} {a b : AgistLease} (h : s.hub.agist = [b]) (hi : b.id = a.id) (hl : b.lender = a.lender) :
    s.leaseNow a = b := by
  rw [leaseNow, h, List.find?_cons_of_pos (by simp [hi, hl])]
  rfl

theorem keepLease_one {s : State} {a b : AgistLease} (h : s.hub.agist = [a]) (hi : a.id = b.id) (hl : a.lender = b.lender) :
    (s.keepLease b).hub.agist = [b] := by
  simp [keepLease, h, hi, hl]

/-- One clean page of several remapped: the lease goes on without it. -/
theorem returnPage_remaps {s : State} {a : AgistLease} {i j asid va x y leaf : Nat} {l : List (Nat × Nat × Nat)}
    (hagist : s.hub.agist = [a]) (hs : s.stores = []) (ha : s.atomics = []) (hc : s.hub.ckdctl = 0)
    (hp : a.placed = (i, asid, va) :: (j, x, y) :: l) (hij : i ≠ j) (hdirty : a.dirtyPages = []) (hclean : a.cleaning = [])
    (hleaf : s.readAt (a.lmap % 2 ^ 60 + 8 * i) 8 = leaf) (h0 : leaf ≠ 0) (h60 : leaf < 2 ^ 60)
    (hd : leaf + 8 ≤ a.lmap % 2 ^ 60 + 8 * i ∨ a.lmap % 2 ^ 60 + 8 * i + 8 ≤ leaf) :
    ∃ t : State, s.returnPage a = .ok t ∧
      t.readAt leaf 8 = movedLeaf (s.readAt leaf 8) (s.backingFrame a i) 3 % 2 ^ 64 ∧
      t.readAt (a.lmap % 2 ^ 60 + 8 * i) 8 = 0 ∧
      (∀ p, p < leaf ∨ leaf + 8 ≤ p → p < a.lmap % 2 ^ 60 + 8 * i ∨ a.lmap % 2 ^ 60 + 8 * i + 8 ≤ p →
        t.byteAt p = s.byteAt p) ∧
      ∃ b, t.hub.agist = [b] ∧ b.state = a.state ∧ b.moved = a.moved + 1 ∧ (i, asid, va) ∉ b.placed ∧
        (j, x, y) ∈ b.placed := by
  obtain ⟨t, g, ht, hl, hslot, hrest, hg, hmap⟩ := remapPage_remaps hs ha hc hleaf h0 h60 hd asid va
  obtain ⟨d, hga⟩ := hg a
  have agist : t.hub.agist = [{ a with dirtyPages := d }] := by rw [hmap, hagist, List.map_singleton, hga]
  let b := leaseRemapped { a with dirtyPages := d } i va false false
  have gone : (i, asid, va) ∉ b.placed := by simp [b, leaseRemapped]
  have stays : (j, x, y) ∈ b.placed := by simp [b, leaseRemapped, hp, hij.symm]
  have notEmpty : b.placed.isEmpty = false := by
    rw [List.isEmpty_eq_false_iff_exists_mem]
    exact ⟨_, stays⟩
  have notDirty : dirtyLent a i = false := by simp [dirtyLent, hdirty, hclean]
  refine ⟨t.keepLease b, ?_, hl, hslot, hrest, b, keepLease_one agist rfl rfl, rfl, rfl, gone, stays⟩
  rw [returnPage, hp]
  simp only [notDirty, Bool.false_eq_true, if_false, ht, ok_bind, leaseNow_one (a := a) agist rfl rfl]
  show Except.ok (if b.placed.isEmpty then _ else _) = _
  rw [notEmpty]
  rfl

/-! ### The zero fill (R252, R253) -/

/-- A word whose field has been cleared reads zero there. -/
theorem bits_setBits_state (x : Nat) : bits (setBits x 8 3 0 % 2 ^ 64) 8 3 = 0 := by
  simp only [bits, setBits, Nat.shiftRight_eq_div_pow]
  omega

/-- A state whose memory is empty from `lo` up, `n` bytes, and not poisoned there. -/
def emptied (s : State) (lo n : Nat) : State :=
  let inside := fun p : Nat => decide (lo ≤ p ∧ p < lo + n)
  { s with mem := s.mem.filter (fun e => !inside e.1), poison := s.poison.filter (fun l => !inside (64 * l)) }

theorem byteAt_emptied (s : State) {lo n p : Nat} (hlo : lo ≤ p) (hhi : p < lo + n) : (s.emptied lo n).byteAt p = 0 := by
  have filtered := Store.get_filter_key unlistedByte (fun p => !decide (lo ≤ p ∧ p < lo + n)) s.mem p
  rw [decide_eq_true ⟨hlo, hhi⟩] at filtered
  exact congrArg BitVec.toNat filtered

/-- The zero fill empties the region, sends the lender's event, gives the frames back and frees the lease. -/
theorem endZeroFill_eq {s : State} (hc : s.hub.ckdctl = 0) (a : AgistLease) : ∃ cores fresh, s.endZeroFill a =
    (({ s.emptied (placeOf a.lender a.lbase) a.size with cores := cores, fresh := fresh } : State).giveFrames
      (lentFrames a)).freeLease a := by
  have off : bit s.hub.ckdctl.toNat 0 = false := by simp [hc, bit]
  let u := s.emptied (placeOf a.lender a.lbase) a.size
  obtain ⟨cores, hmsg⟩ := hubMessage_frame u.hubSource.2 a.core a.dtag 7 u.hubSource.1
    [a.id, bool1 a.revoked, a.notRemapped, 0, 0, 0]
  refine ⟨cores, s.fresh + 1, ?_⟩
  simp only [endZeroFill, off, Bool.false_eq_true, if_false]
  exact congrArg (fun v : State => (v.giveFrames (lentFrames a)).freeLease a) hmsg

/-- A lease freed: it leaves the table, STATE reads 0 in its record, and no byte but that word's changes (R420). -/
theorem freeLease_frees {s : State} {a : AgistLease} (hc : s.hub.ckdctl = 0) (hagist : s.hub.agist = [a]) :
    let t := s.freeLease a
    t.hub.agist = [] ∧ t.hub.usedFrames = s.hub.usedFrames ∧ bits (t.readAt (a.recPlace + 0x38) 8) 8 3 = 0 ∧
      s.SameMemoryBut t (a.recPlace + 0x38) 8 := by
  let w : State := { s with hub := { s.hub with agist := s.hub.agist.filter (fun x => !(x.id == a.id && x.lender == a.lender)) } }
  let word := setBits (w.readAt (a.recPlace + 0x38) 8) 8 3 0
  have hc' : w.hub.ckdctl = 0 := hc
  have gone : w.hub.agist = [] := by
    show s.hub.agist.filter _ = []
    simp [hagist]
  obtain ⟨_, _, _, _, hub⟩ := writeAt_hub w (a.recPlace + 0x38) 8 word
  have end_ : s.freeLease a = w.writeAt (a.recPlace + 0x38) 8 word := rfl
  rw [end_]
  refine ⟨by rw [hub, gone, List.map_nil], by rw [hub], ?_, fun p hp => byteAt_writeAt_other hc' _ 8 word hp⟩
  rw [readAt_writeAt hc']
  exact bits_setBits_state _

/-- The lent region reads zero, its frames are free, and the lease and its record are free. -/
theorem endZeroFill_empties {s : State} {a : AgistLease} (hc : s.hub.ckdctl = 0) (hagist : s.hub.agist = [a])
    (hd : a.recPlace + 0x40 ≤ placeOf a.lender a.lbase ∨ placeOf a.lender a.lbase + a.size ≤ a.recPlace) :
    let t := s.endZeroFill a
    (∀ p, placeOf a.lender a.lbase ≤ p → p < placeOf a.lender a.lbase + a.size → t.byteAt p = 0) ∧
      (∀ f ∈ lentFrames a, f ∉ t.hub.usedFrames) ∧ t.hub.agist = [] ∧ bits (t.readAt (a.recPlace + 0x38) 8) 8 3 = 0 := by
  obtain ⟨cores, fresh, end_⟩ := endZeroFill_eq hc a
  let u : State := { s.emptied (placeOf a.lender a.lbase) a.size with cores := cores, fresh := fresh }
  have freed := freeLease_frees (s := u.giveFrames (lentFrames a)) hc hagist
  rw [end_]
  obtain ⟨hagist', hused, hstate, hbytes⟩ := freed
  refine ⟨fun p hlo hhi => ?_, fun f hf => ?_, hagist', hstate⟩
  · exact (hbytes p (by omega)).trans (byteAt_emptied s hlo hhi)
  · rw [hused]
    exact not_mem_giveFrames hf

/-! ### The ends of a lease with no page placed (R253, R254) -/

section
variable {s : State} {a : AgistLease}

theorem loseAccesses_none (hs : s.stores = []) (ha : s.atomics = []) (gone : Nat → Bool) : s.loseAccesses gone = s := by
  have same : ({ s with stores := [], atomics := [] } : State) = s := by rw [← hs, ← ha]
  simp only [loseAccesses, hs, ha, List.filter_nil, List.foldl_nil, same]

theorem abandonPlacements_none (hm : s.hub.moves = []) : s.abandonPlacements a = s := by
  simp only [abandonPlacements, hm, List.filter_nil, List.foldl_nil]

theorem standPlacements_none (hm : s.hub.moves = []) : s.standPlacements a = s := by
  simp only [standPlacements, hm, List.filter_nil, List.foldl_nil]

variable (hagist : s.hub.agist = [a]) (hs : s.stores = []) (ha : s.atomics = []) (hp : a.placed = []) (hm : s.hub.moves = [])
include hagist hs ha hp hm

theorem restoreBorrower_noPage : s.restoreBorrower a = .ok (s.endLease a) := by
  simp only [restoreBorrower, standPlacements_none hm, abandonPlacements_none hm, loseAccesses_none hs ha,
    leaseNow_one hagist rfl rfl, hp, remapAll, ok_bind]

theorem loseLender_noPage : s.loseLender a = .ok ((s.demotionMessage a).endLease a) := by
  simp only [loseLender, abandonPlacements_none hm, loseAccesses_none hs ha, leaseNow_one hagist rfl rfl, hp, remapAll, ok_bind,
    finishReturn]

end

/-! ### The handshake of a take (R419) -/

/-- The answer to the only take: it is asked no more, and the lease is held, or its backing given back. -/
theorem takeAnswered_only {s : State} {t : Take} (h : s.hub.takes = [t]) (reason : Nat) : s.takeAnswered t.hart reason =
    if reason = 0 then (Answered s t reason).holdLease t.words t.recPlace
    else (Answered s t reason).giveFrames (s.backingFrames (leaseOf t.words t.recPlace s.hub.pkg 5)) := by
  have found : s.hub.takes.find? (fun x => x.hart == t.hart) = some t := by
    rw [h, List.find?_cons_of_pos (by simp)]
  have erased : s.hub.takes.erase t = [] := by rw [h, List.erase_cons_head]
  simp only [takeAnswered, found, erased]
  by_cases ho : t.orphan = true <;> simp only [Answered, ho, if_true, Bool.false_eq_true, if_false] <;> rfl

section
variable {s : State} {a : AgistLease} (hagist : s.hub.agist = [a])
include hagist

/-- The offer that a take names becomes LENT (R419). -/
theorem answerTake_lends {borrower : Nat} (h1 : a.state = 1) (hl : a.lender = s.hub.pkg) (hb : s.inPaddock borrower = true)
    (hne : borrower ≠ s.hub.pkg) :
    s.answerTake a.id a.lbase a.size a.mwin borrower = s.setLease { a with state := 2, borrower := borrower } := by
  simp [answerTake, hb, hne, hagist, h1, hl]

/-- A take that names no offer changes nothing. -/
theorem answerTake_refuses {lbase size mwin : Nat} (h : a.lbase ≠ lbase ∨ a.size ≠ size ∨ a.mwin ≠ mwin)
    (id borrower : Nat) : s.answerTake id lbase size mwin borrower = s := by
  have none_ : s.hub.agist.find? (fun x => x.state == 1 && x.lender == s.hub.pkg && x.id == id && x.lbase == lbase &&
      x.size == size && x.mwin == mwin) = none := by
    rw [hagist, List.find?_singleton, if_neg]
    simp only [Bool.and_eq_true, beq_iff_eq]
    rintro ⟨⟨⟨_, hlb⟩, hsz⟩, hmw⟩
    omega
  simp only [answerTake, none_, ite_self]

end

/-! ### The steps of a lease -/

section
variable {s : State} {a : AgistLease} (ha : s.hub.agist[s.ev.idx]? = some a)
include ha

theorem leasePageClean_eq (h5 : 5 ≤ a.state) : exec .leasePageClean s = .next (s.cleanPage a s.ev.aux) := by
  simp only [exec_leasePageClean, execLeasePageClean, evLease, ha, borrowed, decide_eq_true h5, if_true]

theorem musterNoticeArrive_eq : exec .musterNoticeArrive s = .next (if a.state = 5 then s.startReturn a else s) := by
  simp only [exec_musterNoticeArrive, execMusterNoticeArrive, evLease, ha]

theorem leasePageRemap_eq (h6 : a.state = 6) : exec .leasePageRemap s = finishEvent s (s.returnPage a) := by
  simp only [exec_leasePageRemap, execLeasePageRemap, evLease, ha, h6, if_true]

theorem musterDoneReceived_eq (h : a.state = 3 ∨ a.state = 2) :
    exec .musterDoneReceived s = .next (s.setLease { a with state := 4 }) := by
  simp only [exec_musterDoneReceived, execMusterDoneReceived, evLease, ha, h, if_true]

theorem zeroFillDone_eq (h4 : a.state = 4) : exec .zeroFillDone s = .next (s.endZeroFill a) := by
  simp only [exec_zeroFillDone, execZeroFillDone, evLease, ha, h4, if_true]

theorem musterWindowExpire_eq : exec .musterWindowExpire s = .next
    (if a.state = 3 ∧ a.since + a.mwin * 1100 ≤ s.cycle ∧ s.lost a.borrower = true then
      s.setLease { a with state := 4, revoked := true, notRemapped := min s.ev.val (a.size / 65536) } else s) := by
  simp only [exec_musterWindowExpire, execMusterWindowExpire, evLease, ha]

theorem borrowerHubRestored_eq (h5 : 5 ≤ a.state) : exec .borrowerHubRestored s = finishEvent s (s.restoreBorrower a) := by
  simp only [exec_borrowerHubRestored, execBorrowerHubRestored, evLease, ha, borrowed, decide_eq_true h5, if_true]

theorem lenderLost_eq (h5 : 5 ≤ a.state) (hcut : s.cutOff a.lender = true) :
    exec .lenderLost s = finishEvent s (s.loseLender a) := by
  simp only [exec_lenderLost, execLenderLost, evLease, ha, borrowed, decide_eq_true h5, hcut, Bool.and_self, if_true]

end

theorem agistTakeRequest_asked {s : State} (h : s.ev.list = []) :
    exec .agistTakeRequest s = .next (s.answerTake s.ev.idx s.ev.addr s.ev.val s.ev.aux s.ev.core) := by
  simp only [exec_agistTakeRequest, execAgistTakeRequest, h]

theorem agistTakeRequest_answered {s : State} {k : Nat} {l : List Nat} (h : s.ev.list = k :: l) :
    exec .agistTakeRequest s = .next (s.takeAnswered k (if s.ev.ok then 0 else 4)) := by
  simp only [exec_agistTakeRequest, execAgistTakeRequest, h]

theorem lenderAnswerTimeout_due {s : State} {t : Take} (h : s.hub.takes = [t]) (hk : t.hart = s.evHart)
    (hdue : t.since + 1100000 ≤ s.cycle) : exec .lenderAnswerTimeout s = .next (s.takeAnswered t.hart 5) := by
  have found : s.hub.takes.find? (fun x => x.hart == s.evHart) = some t := by
    rw [h, List.find?_cons_of_pos (by simp [hk])]
  simp only [exec_lenderAnswerTimeout, execLenderAnswerTimeout, found, hdue, if_true, hk]

end State

open State

/-- The steps of one lease, at each end of it (R250 to R254). -/
theorem agistmentSteps : AgistmentSteps := by
  unfold AgistmentSteps
  intro s done
  refine ⟨fun a ha => ⟨?dirty, ?cleaning, ?notice, ?again, ?noPage, ?returns, musterDoneReceived_eq ha, ?zero, ?expires, ?early,
    ?restored, ?lost, fun hagist hs hat => ⟨?remap, ?ends⟩⟩, ?offer, ?answer, ?timeout⟩
  case dirty =>
    intro h5 hd hc
    rw [leasePageClean_eq ha h5, cleanPage_starts hd hc]
  case cleaning =>
    intro h5 hc
    rw [leasePageClean_eq ha h5, cleanPage_copies hc]
  case notice =>
    intro h5
    rw [musterNoticeArrive_eq ha, if_pos h5]
    rfl
  case again =>
    intro h6
    rw [musterNoticeArrive_eq ha, if_neg (by omega)]
  case noPage =>
    intro h6 hp
    rw [leasePageRemap_eq ha h6, returnPage, hp]
    rfl
  case returns =>
    intro t h6 ht
    rw [leasePageRemap_eq ha h6, ht]
    rfl
  case zero =>
    intro h4 hc hagist _ _ _ _ hd
    exact ⟨_, zeroFillDone_eq ha h4, endZeroFill_empties hc hagist hd⟩
  case expires =>
    intro h3 hdue hlost
    rw [musterWindowExpire_eq ha, if_pos ⟨h3, hdue, hlost⟩]
  case early =>
    intro _ hearly
    rw [musterWindowExpire_eq ha, if_neg (by omega)]
  case restored =>
    intro t h5 ht
    rw [borrowerHubRestored_eq ha h5, ht]
    rfl
  case lost =>
    intro t h5 hcut ht
    rw [lenderLost_eq ha h5 hcut, ht]
    rfl
  case remap =>
    intro i j asid va x y leaf l h6 hp hij hdirty hclean hc hleaf h0 h60 hd
    obtain ⟨t, ht, hl, hslot, hrest, b, hb, hstate, hb'⟩ :=
      returnPage_remaps hagist hs hat hc hp hij hdirty hclean hleaf.symm h0 h60 hd
    exact ⟨t, by rw [leasePageRemap_eq ha h6, ht]; rfl, hl, hslot, hrest, b, hb, hstate.trans h6, hb'⟩
  case ends =>
    intro hp hm h5
    constructor
    · rw [borrowerHubRestored_eq ha h5, restoreBorrower_noPage hagist hs hat hp hm]
      rfl
    · intro hfenced
      have cut : s.cutOff a.lender = true := by simp [cutOff, hfenced]
      rw [lenderLost_eq ha h5 cut, loseLender_noPage hagist hs hat hp hm]
      rfl
  case offer =>
    intro hlist a hagist h1 hl hid
    constructor
    · intro hlb hsz hmw hb hne
      rw [agistTakeRequest_asked hlist, ← hid, ← hlb, ← hsz, ← hmw, answerTake_lends hagist h1 hl hb hne]
    · intro hne
      rw [agistTakeRequest_asked hlist, answerTake_refuses hagist hne]
  case answer =>
    rintro k x t hlist htakes rfl
    constructor
    · intro hok
      rw [agistTakeRequest_answered hlist, takeAnswered_only htakes, if_pos hok]
      rfl
    · intro hok
      rw [agistTakeRequest_answered hlist, takeAnswered_only htakes, hok]
      rfl
  case timeout =>
    intro t htakes hk hdue
    rw [lenderAnswerTimeout_due htakes hk hdue, takeAnswered_only htakes]
    rfl

end Sys2Proof.Machine
end

section
/-!
SUPPORT. Flush markers and multicast generations (R267, R270), and with them every step of the page engines and of the flushes.
-/

namespace Sys2Proof

namespace Machine

namespace State

theorem exec_flushMarkerArrive (s : State) : exec .flushMarkerArrive s = execFlushMarkerArrive s := rfl
theorem exec_flushAckReturn (s : State) : exec .flushAckReturn s = execFlushAckReturn s := rfl
theorem exec_mcgGenerationRetire (s : State) : exec .mcgGenerationRetire s = execMcgGenerationRetire s := rfl

/-- A packet to another package than the marker's goes ahead of no marker. -/
theorem aheadOf_elsewhere {m : FlushMark} {place : Nat} (h : pkgOfPlace place ≠ m.dest) (s : State) (since : Nat)
    (r : Option Release) : s.aheadOf m place since r = false := by
  simp [aheadOf, h]

/-- A marker with nothing on its way to its package arrives (R267). -/
theorem markArrives_alone {s : State} {m : FlushMark} (hs : ∀ t ∈ s.stores, pkgOfPlace t.place ≠ m.dest)
    (ha : ∀ t ∈ s.atomics, pkgOfPlace t.place ≠ m.dest)
    (hn : ∀ e ∈ s.cores, ∀ x ∈ e.2.netWait, x.dest / 2 ^ 11 ≠ m.dest) : s.markArrives m =
    .ok { s with hub := { s.hub with
      flushMarks := s.hub.flushMarks.erase m,
      flushAcks := if (s.hub.flushMarks.erase m).any (fun x => x.hart == m.hart && x.dest == m.dest) then s.hub.flushAcks
        else s.hub.flushAcks ++ [(m.hart, m.dest)] } } := by
  have noMessage : s.messagesAhead m = false := by
    simp only [messagesAhead, List.any_eq_false, Bool.not_eq_true]
    intro e he x hx
    rw [beq_false_of_ne (hn e he x hx), Bool.false_and, Bool.false_and]
  have drained : s.drainWhere (fun t => s.aheadOf m t.place t.since t.release) = .ok s :=
    drainWhere_none fun t ht => aheadOf_elsewhere (hs t ht) s _ _
  have settled : s.settleAtomicsWhere (fun t => s.aheadOf m t.place t.since t.release) = .ok s :=
    settleAtomicsWhere_none fun t ht => aheadOf_elsewhere (ha t ht) s _ _
  simp only [markArrives, noMessage, Bool.false_eq_true, if_false, drained, settled, ok_bind]
  cases (s.hub.flushMarks.erase m).any (fun x => x.hart == m.hart && x.dest == m.dest) <;> rfl

theorem flushMarkerArrive_eq {s : State} {m : FlushMark} (h : s.hub.flushMarks[s.ev.idx]? = some m) :
    exec .flushMarkerArrive s = finishEvent s (s.markArrives m) := by
  simp only [exec_flushMarkerArrive, execFlushMarkerArrive, h]

theorem flushAckReturn_eq {s : State} {k p : Nat} (h : s.hub.flushAcks[s.ev.idx]? = some (k, p)) :
    exec .flushAckReturn s =
      .next (({ s with hub := { s.hub with flushAcks := s.hub.flushAcks.erase (k, p) } } : State).setHart k
        { s.hartAt k with dests := (s.hartAt k).dests.filter (fun q => q ≠ p) }) := by
  simp only [exec_flushAckReturn, execFlushAckReturn, h]

end State

open State

theorem flushSteps : FlushSteps := by
  unfold FlushSteps
  intro s done
  refine ⟨?marker, ?ack, ?generation⟩
  case marker =>
    intro m l hl hi hs ha hn
    have first : s.hub.flushMarks[s.ev.idx]? = some m := by rw [hl, hi]; rfl
    rw [flushMarkerArrive_eq first, markArrives_alone hs ha hn, hl, List.erase_cons_head]
    rfl
  case ack =>
    intro k p l hl hi
    have first : s.hub.flushAcks[s.ev.idx]? = some (k, p) := by rw [hl, hi]; rfl
    rw [flushAckReturn_eq first, hl, List.erase_cons_head]
  case generation =>
    intro n members l hl hs
    have none_ : s.stores.any (fun x => members.contains x.pkg) = false := by simpa [List.any_eq_false] using hs
    simp only [exec_mcgGenerationRetire, execMcgGenerationRetire, hl, none_]
    rfl

end Machine

/-- Settles O51: its four parts are the walker's and the epoch's steps, the moves of a page, agistment, and the flushes. -/
theorem pageEngineSteps : Obligations.PageEngineSteps :=
  ⟨Machine.walkAndEpochSteps, Machine.pageMoveSteps, Machine.agistmentSteps, Machine.flushSteps⟩

end Sys2Proof
end
